-- ==== Sys2Proof/Word.lean ====
section
/-! DEFINITION. The machine's word and byte types (R10, R14: 32-bit registers, bytes little-endian). -/

namespace Sys2Proof

/-- A 32-bit register word (R14). -/
abbrev Word := BitVec 32

/-- One byte. -/
abbrev Byte := BitVec 8

end Sys2Proof
end

