-- ==== Sys2Proof/Syntax.lean ====
section
/-! DEFINITION. The commands the module takes: one constructor of `Instr` for each row of the spec's table of
operations and events. A row that the hardware brings about itself (a timer that expires, a decode that ends, a slot
that fires) is here the command to judge that row now: its meaning acts when the state meets the row's condition and
otherwise leaves the state as it is (log entry 1). -/

namespace Sys2Proof

/-- The two dies (R1, R2). -/
inductive DieId where
  | w | e
  deriving DecidableEq, Repr

/-- The other die. -/
def DieId.other : DieId → DieId
  | .w => .e
  | .e => .w

/-- Who accesses a register: a management core MC0 to MC3, or the control port. -/
inductive Master where
  | mc (k : Nat)
  | port
  deriving DecidableEq, Repr

/-- A symbol on a position line (R166): K28.1 or K28.5, another good symbol, or one with a coding or disparity error. -/
inductive PosSymbol where
  | comma | data | error
  deriving DecidableEq, Repr

/-- How a read of a protected memory ended (R288, R289): clean (or corrected), uncorrectable, or poison. -/
inductive MemRead where
  | clean | ue | poison
  deriving DecidableEq, Repr

/-- What the Kiln meets while it works on a row (R109, R113, R119): the density tile rows whose ρ its two density units
disagree on; how the figure store, the density map and an engine's accumulator read, with the figure, the density tile rows
and the raster tile column concerned; and the engine that takes each raster tile column begun here. -/
structure RowRun where
  differ : List Nat
  fig : MemRead
  figAt : Nat
  dens : MemRead
  densRows : List Nat
  acc : MemRead
  accTx : Nat
  engines : List (Nat × Nat)
  deriving DecidableEq, Repr

/-- A word of SRAM that R299 or R300 names: 32 pixels of a Tun row, entries of the active tables; a Cask directory entry, an
entry of the Unwritten Span Log, and a word that a local core reads of its own memory. -/
inductive SramWord where
  | tun (row a : Nat)
  | remap (b : Nat)
  | trim (b : Nat)
  | walk (s : Nat)
  | defects
  | directory (e : Nat)
  | spanEntry (i : Nat)
  | core (k : Nat)
  deriving DecidableEq, Repr

/-- A 66-bit block on a lane's line (R221, R222): its sync header, read with the first bit sent as the upper one, and its
payload, bit 0 first. -/
structure LineBlock where
  sync : Nat
  payload : Nat
  deriving DecidableEq, Repr

/-- An ALIGN control word of a round (R255, R256): the lane that carries it, the l, set_id and round count in it, and when
it arrives, in symbols. -/
structure AlignBlock where
  lane : Nat
  l : Nat
  setId : Nat
  count : Nat
  at_ : Nat
  deriving DecidableEq, Repr

/-- What the supply and thermal monitor reads (R418, R423): a junction sensor of a die, the base, the hottest DRAM
device (in 0.5 °C), VIN (0.1 V), the input current (mA) and the module power (0.1 W). -/
inductive Sensor where
  | junction (d : DieId) (i : Nat)
  | base | dram | vin | iin | power
  deriving DecidableEq, Repr

/-- What a STATUS message of a herd member carries (R366). -/
structure PeerStatus where
  /-- State of the gates of its dies W and E, and the interlock sources (R309) that hold them closed, one bit each. -/
  gateW : Bool
  gateE : Bool
  sourcesW : Nat
  sourcesE : Nat
  swapReady : Bool
  /-- The last slot whose triggers it launched. -/
  launched : Nat
  unit : Word
  /-- Oldest held stripe that has not started: id and rows. -/
  oldest : Option (Nat × Nat)
  /-- Its active MAP_GEOM. -/
  geom : Word
  /-- From the buck: its shadow SLOT_RATE_LIMIT. -/
  rateLimit : Nat
  deriving DecidableEq, Repr

/-- How a stripe, named by its id, ends: at its last boundary (R182), early with a cause, from a first blanked slot if one is left (R187,
R313, R40), or not begun, with the stripe and the cause (R183). -/
inductive StripeEnd where
  | boundary (stripe : Nat)
  | early (stripe cause : Nat) (ka : Option Nat)
  | notBegun (stripe cause : Nat)
  deriving DecidableEq, Repr

/-- What a SLOT message carries (R366), which is what the scheduler tells the dies of its own module too: the slot fired,
the scheduler mode (0 to 2), whether the slot is a stripe slot, S0 with stripe_id and N, the stripe whose slot-0 frames
are to be launched (R230), the causes for which the slot is blanked, how a stripe ends in this tick, and for a slot of a
calibration burst its module, die, beam within the die and code; and which of the turnaround and calibration windows are open. -/
structure SlotMsg where
  number : Nat
  fires : Bool
  mode : Nat
  exposing : Bool
  s0 : Option (Nat × Nat)
  arms : Option Nat
  blanked : List Nat
  ends : Option StripeEnd
  burst : Option (Nat × DieId × Nat × Nat)
  turn : Bool
  cal : Bool
  deriving DecidableEq, Repr

/-- Phases of a herd swap (R366, R377). -/
inductive SwapPhase where
  | arm | ready | commit | cancelled | disarmed
  /-- The swap, or an arming, is refused, for reasons of CFG_SWAP_STATUS. -/
  | refused (reasons : List Nat)
  | armRefused (reasons : List Nat)
  deriving DecidableEq, Repr

/-- A sync message (R366). Its encoding on the line is not specified. -/
inductive SyncMsg where
  /-- part_code, herd state, buck_ok, CRC-32C of the settings. -/
  | hello (part state buckOk crc : Nat)
  | status (s : PeerStatus)
  | slot (s : SlotMsg)
  /-- A gate of a die has closed by a source of its own, closed by repetition, or opened. -/
  | gate (d : DieId) (source : Nat) (closed : Bool)
  /-- A swap's phase; for arm its slot in mode 1; for commit the herd unit enable (R377), and the tick in which it acts, by the
  buck's count of ticks. -/
  | swap (phase : SwapPhase) (slot : Option Nat) (herdEnable : Bool) (tick : Nat)
  /-- The local time of the sender at a decision tick, by its count of ticks, and its CTRL_PTP_STATUS.state (R373; that TIME
  carries it is log entry 60). -/
  | time (t ptp tick : Nat)
  | meas (m : List Nat)
  deriving DecidableEq, Repr

/-- What an Announce message tells of a master (R273): the domain, the identity of the sending port, the data set by which masters
are compared, and log2 of its interval. -/
structure Announce where
  domain : Nat
  source : Nat
  priority1 : Nat
  clockClass : Nat
  accuracy : Nat
  variance : Nat
  priority2 : Nat
  grandmaster : Nat
  steps : Nat
  logInterval : Int
  deriving DecidableEq, Repr

/-- An IEEE 1588 message as the ordinary clock meets it (R272 to R275): a message received has a domain, and the identity of the
sending port. Times are in ns. -/
inductive PtpMsg where
  /-- An Announce is received. -/
  | announce (a : Announce)
  /-- A Sync is received: its sequence number, its origin time when the master is one-step, and log2 of its interval. -/
  | sync (domain source seq : Nat) (t1 : Option Int) (logInterval : Int)
  /-- A Follow_Up carries the origin time of the Sync of its sequence number. -/
  | followUp (domain source seq : Nat) (t1 : Int)
  /-- The clock sends a Delay_Req. -/
  | delayReq
  /-- A Delay_Resp to this clock carries the receive time of its Delay_Req of that sequence number. -/
  | delayResp (domain source seq : Nat) (t4 : Int)
  /-- A message of peer delay, another transport or another clock role: discarded (R273). -/
  | unsupported
  deriving DecidableEq, Repr

/-- The commands of the module. -/
inductive Instr where
  /-- REGISTER_WRITE (R17): a write of a word to a register or table entry that has no row of its own. -/
  | registerWrite (m : Master) (d : DieId) (off : Nat) (v : Word)
  /-- RC_READ (R17, R19): a read of a register with read-to-clear fields. -/
  | rcRead (m : Master) (d : DieId) (off : Nat)
  /-- WIDE_LOW_WORD_READ (R20): a read of the low word of a value wider than 32 bits. -/
  | wideLowWordRead (m : Master) (d : DieId) (off : Nat)
  /-- SHADOW_COPY_WRITE (R348): a write to a shadow copy. -/
  | shadowCopyWrite (m : Master) (d : DieId) (off : Nat) (v : Word)
  /-- EVUNE_LANE_FAIL (R28): a lane fails, in the direction from die W to die E or back. -/
  | evuneLaneFail (fromW : Bool) (lane : Nat)
  /-- EVUNE_TRAINING_TIMEOUT (R28): no training pattern for 1 µs. -/
  | evuneTrainingTimeout
  /-- EVUNE_RETRAIN (R28): the attempt made every 1 ms while the link is down. -/
  | evuneRetrain
  /-- EVUNE_LINK_RETURN (R434): training succeeds with these lanes and this measured latency. -/
  | evuneLinkReturn (maskWE maskEW latency : Nat)
  /-- CLOCK_FAULT (R40): the reference of a die stops, or its core PLL loses lock. -/
  | clockFault (d : DieId)
  /-- CLOCK_FAULT_END (R39): reference and lock have both returned. -/
  | clockFaultEnd (d : DieId)
  /-- TUN_ROW_RELEASE (R35): a row of a stripe is released if its conditions hold. -/
  | tunRowRelease (d : DieId) (stripe row : Nat)
  /-- LOG_ENTRY_WRITE (R45): the log writer writes its oldest reported span. -/
  | logEntryWrite (d : DieId)
  /-- EVL_RD_IDX_WRITE (R46). -/
  | evlRdIdxWrite (m : Master) (d : DieId) (v : Word)
  /-- EVL_CLEAR_OVERFLOW (R47): the write of EVL_CTRL with clear_overflow = 1 and the given halt_on_overflow. -/
  | evlClearOverflow (m : Master) (d : DieId) (halt : Bool)
  /-- SPAN_ENTRY_CAPTURE_READ (R44): a read of word 0 of a span-log entry. -/
  | spanEntryCaptureRead (m : Master) (d : DieId) (idx : Nat)
  /-- BUDGET_PERIOD_START (R48). -/
  | budgetPeriodStart (d : DieId)
  /-- GRIST_BLOCK_ARRIVAL (R65): rounds of the aggregate stream arrive, each as its lanes' descrambled words, control words
  marked (R254); the stream's blocks are delimited by R257, and each block that ends is judged. -/
  | gristBlockArrival (d : DieId) (rounds : List (List (Nat × Bool × Nat)))
  /-- CREDIT_PERIODIC (R76). -/
  | creditPeriodic (d : DieId)
  /-- VERIFY_DECODE_START (R78). -/
  | verifyDecodeStart (d : DieId)
  /-- VERIFY_DECODE_END (R78): `read` is how the compressed copy read. -/
  | verifyDecodeEnd (d : DieId) (read : MemRead)
  /-- FEED_DECODE_START (R79). -/
  | feedDecodeStart (d : DieId)
  /-- FEED_DECODE_END (R79): `read` is how the compressed copy read; `fault` says the decoder itself erred. -/
  | feedDecodeEnd (d : DieId) (read : MemRead) (fault : Bool)
  /-- BLOCK_TREATED_AS_FED (R80). -/
  | blockTreatedAsFed (d : DieId)
  /-- FIGURES_CREDIT_RETURN (R72): the block is freed if its conditions hold. -/
  | figuresCreditReturn (d : DieId) (stripe seq : Nat)
  /-- GRIST_ENABLE (R73): the write of GRIST_CTRL with enable = 1. -/
  | gristEnable (m : Master) (d : DieId)
  /-- GRIST_DISABLE (R74): the write of GRIST_CTRL with enable = 0. -/
  | gristDisable (m : Master) (d : DieId)
  /-- GRIST_FLUSH (R74): the write of GRIST_CTRL with enable = 1 and flush = 1. -/
  | gristFlush (m : Master) (d : DieId)
  /-- ROW_DEADLINE (R86): the deadline slot of a stripe row fires. -/
  | rowDeadline (d : DieId) (row : Nat)
  /-- FIGURE_RECORD (R97): the feed decoder delivers its next record; `sram` is how the figure store read back. -/
  | figureRecord (d : DieId) (sram : MemRead)
  /-- KILN_STRIPE_BIND (R117). -/
  | kilnStripeBind (d : DieId) (stripe : Nat)
  /-- KILN_ROW_RASTERIZE (R115): a stripe row is rasterized, unless what the Kiln meets forbids it. -/
  | kilnRowRasterize (d : DieId) (stripe row : Nat) (run : RowRun)
  /-- TASTER_COMPARE_COMPLETE (R121): the comparison of a sampled tile. -/
  | tasterCompareComplete (d : DieId) (stripe tx ty : Nat) (mismatch : Bool)
  /-- KILN_ENGINE_EN_WRITE (R122). -/
  | kilnEngineEnWrite (m : Master) (d : DieId) (v : Word)
  /-- SHIFT_TABLE_WRITE (R102): a write of entry K[c]. -/
  | shiftTableWrite (m : Master) (d : DieId) (c : Nat) (v : Word)
  /-- STRIPE_OPEN_REPORT (R124): the other die's oldest report arrives at die `d`. -/
  | stripeOpenReport (d : DieId)
  /-- MARGIN_MESSAGE_SEND (R124): die `d` sends a row's margin. -/
  | marginMessageSend (d : DieId) (stripe row : Nat)
  /-- MARGIN_MESSAGE_RECEIVE (R125): the oldest margin message to die `d` arrives. -/
  | marginMessageReceive (d : DieId)
  /-- SEAM_MISMATCH_RECEIVE (R125): the oldest seam-mismatch message to die `d` arrives. -/
  | seamMismatchReceive (d : DieId)
  /-- MAP_CHECK_COMPLETE (R138). -/
  | mapCheckComplete (d : DieId)
  /-- CASK_CHUNK_COMMIT (R153): the next chunk of the store is written and read back: the Mash stream the compressor
  chose, and how the read-back read. -/
  | caskChunkCommit (d : DieId) (stream : List Nat) (read : MemRead) (flips : List (Nat × Nat))
  /-- CASK_PLAY_BIND (R158): a played stripe falls due to bind; `dir` is how the directory entry read. -/
  | caskPlayBind (d : DieId) (stripe : Nat) (dir : MemRead)
  /-- CASK_CHUNK_READ (R161): the next chunk of a play is read. -/
  | caskChunkRead (d : DieId) (stripe chunk : Nat) (read : MemRead) (flips : List (Nat × Nat))
  /-- CASK_FREE_ENTRY (R162). -/
  | caskFreeEntry (m : Master) (d : DieId) (entry : Nat)
  /-- CASK_FREE_ALL (R162). -/
  | caskFreeAll (m : Master) (d : DieId)
  /-- CASK_ENABLE (R162): the write of CASK_CTRL with enable = 1 and this effort. -/
  | caskEnable (m : Master) (d : DieId) (effort : Nat)
  /-- CASK_DISABLE (R162): the write of CASK_CTRL with enable = 0 and this effort. -/
  | caskDisable (m : Master) (d : DieId) (effort : Nat)
  /-- CASK_ENTRY_FREED (R162): an entry in state freeing. -/
  | caskEntryFreed (d : DieId) (entry : Nat)
  /-- POSITION_WORD (R169): a complete word on channel `ch` (0 PX, 1 PY, 2 PYAW), with the places (0 to
  9) of its symbols that have coding errors and whether a control symbol falls among its data symbols. -/
  | positionWord (ch : Nat) (errors : List Nat) (control : Bool) (bytes : List Nat)
  /-- POSITION_LOCK_ACQUIRE (R166). -/
  | positionLockAcquire (ch : Nat)
  /-- POSITION_LOCK_LOSS (R166): the symbols seen since the last word, if any. -/
  | positionLockLoss (ch : Nat) (symbols : List PosSymbol)
  /-- COAST_EXPIRY (R171). -/
  | coastExpiry (ch : Nat)
  /-- STILL_TIMEOUT (R173). -/
  | stillTimeout (ch : Nat)
  /-- CHANNEL_ENABLE (R170): the write that sets a channel's enable bit. -/
  | channelEnable (m : Master) (ch : Nat)
  /-- CHANNEL_DISABLE (R170): the write that clears a channel's enable bit. -/
  | channelDisable (m : Master) (ch : Nat)
  /-- CHANNEL_REARM (R170): the write of a channel's rearm bit. -/
  | channelRearm (m : Master) (ch : Nat)
  /-- SLOT_FIRE (R177). -/
  | slotFire
  /-- OVERSPEED_END (R186). -/
  | overspeedEnd
  /-- IDLE_SLOT_FIRE (R178). -/
  | idleSlotFire
  /-- SLOT_ARM (R179): the write of SLOT_ARM_CTRL with arm = 1 and this stripe_id. -/
  | slotArm (m : Master) (stripe : Nat)
  /-- SLOT_DISARM (R179): the write of SLOT_ARM_CTRL with disarm = 1 and this stripe_id. -/
  | slotDisarm (m : Master) (stripe : Nat)
  /-- STRIPE_NOT_BEGUN (R183). -/
  | stripeNotBegun
  /-- STRIPE_START (R181). -/
  | stripeStart
  /-- COMPARE_FIRE (R184): compare `n` is evaluated. -/
  | compareFire (n : Nat)
  /-- STRIPE_END (R182). -/
  | stripeEnd
  /-- DEFLECTION_SAMPLE (R194). -/
  | deflectionSample
  /-- DEFLECTION_CHECK_COMPLETE (R197). -/
  | deflectionCheckComplete
  /-- DEFL_ENABLE (R201): a write of DEFL_CTRL that changes en; the other fields are those of `v`. -/
  | deflEnable (m : Master) (v : Word)
  /-- AXIS_STEP_TICK (R203). -/
  | axisStepTick (n : Nat)
  /-- AXIS_PROFILE_TICK (R206). -/
  | axisProfileTick (n : Nat)
  /-- AXIS_STILL_TIMEOUT (R208). -/
  | axisStillTimeout (n : Nat)
  /-- LIMIT_FILTER_CHANGE (R211): the filtered state of a limit input (forward or reverse) is judged. -/
  | limitFilterChange (n : Nat) (fwd : Bool)
  /-- LIMIT_RAW_EDGE (R210): a limit input changes its level. -/
  | limitRawEdge (n : Nat) (fwd : Bool)
  /-- ENCODER_TRANSITION (R215): the levels of ENCn_A and ENCn_B, and the ticks for which each has held its own. -/
  | encoderTransition (n : Nat) (a b : Bool) (heldA heldB : Nat)
  /-- ENCODER_INDEX_EDGE (R213): a rising edge of ENCn_I. -/
  | encoderIndexEdge (n : Nat)
  /-- ENCODER_SPEED_ESTIMATE (R216). -/
  | encoderSpeedEstimate (n : Nat)
  /-- AXIS_MOVE (R211): AXIS_CMD op 1. -/
  | axisMove (m : Master) (n : Nat)
  /-- AXIS_STOP (R217): AXIS_CMD op 2. -/
  | axisStop (m : Master) (n : Nat)
  /-- AXIS_HOME (R213): AXIS_CMD op 3. -/
  | axisHome (m : Master) (n : Nat)
  /-- AXIS_FAULT_STOP (R210): AXIS_CMD op 4. -/
  | axisFaultStop (m : Master) (n : Nat)
  /-- PARAM_SEGMENT_SEND (R231). -/
  | paramSegmentSend (d : DieId)
  /-- BANK_LOAD_START (R233). -/
  | bankLoadStart (d : DieId)
  /-- ECHO_RECEIVE (R238): the bytes of a message received on BL_RX of a local lane. -/
  | echoReceive (d : DieId) (lane : Nat) (bytes : List Nat)
  /-- ECHO_DEADLINE (R238): the deadline of the oldest echo group. -/
  | echoDeadline (d : DieId)
  /-- HANDOVER_TO_SPARE (R240): BLNK_HANDOVER op 1. -/
  | handoverToSpare (m : Master) (d : DieId) (lam : Nat)
  /-- HANDBACK (R240): BLNK_HANDOVER op 2. -/
  | handback (m : Master) (d : DieId) (lam : Nat)
  /-- HANDOVER_WAKE_END (R240): the wake phase of a spare group's handover ends. -/
  | handoverWakeEnd (d : DieId) (group : Nat)
  /-- HANDOVER_ABANDON (R241). -/
  | handoverAbandon (d : DieId) (group : Nat)
  /-- BLNK_ENABLE (R233): a write of BLNK_CTRL with en = 1; the other fields are those of `v`. -/
  | blnkEnable (m : Master) (d : DieId) (v : Word)
  /-- BLNK_DISABLE (R228): a write of BLNK_CTRL with en = 0. -/
  | blnkDisable (m : Master) (d : DieId) (v : Word)
  /-- RX_BLOCK_LOCK_GAIN (R224): the blocks, scrambled, that bring a blanker or Grist lane receiver of a die into block
  lock, after `skip` blocks that it passes over. -/
  | rxBlockLockGain (d : DieId) (grist : Bool) (lane skip : Nat) (blocks : List LineBlock)
  /-- RX_BLOCK_LOCK_LOSS (R224): the blocks by which a receiver loses block lock. -/
  | rxBlockLockLoss (d : DieId) (grist : Bool) (lane skip : Nat) (blocks : List LineBlock)
  /-- DESCRAMBLER_LOCK_GAIN (R224): the blocks that bring a receiver into descrambler lock. -/
  | descramblerLockGain (d : DieId) (grist : Bool) (lane skip : Nat) (blocks : List LineBlock)
  /-- DESCRAMBLER_LOCK_LOSS (R224): the blocks by which a receiver loses descrambler lock. -/
  | descramblerLockLoss (d : DieId) (grist : Bool) (lane skip : Nat) (blocks : List LineBlock)
  /-- TRANSITION_WINDOW_END (R245): a window of 1,024 symbols ends with this many transitions; in it these blocks
  arrived, after `skip` that the receiver passes over (R246). -/
  | transitionWindowEnd (d : DieId) (grist : Bool) (lane transitions skip : Nat) (blocks : List LineBlock)
  /-- LANE_TRAIN_COMMAND (R247): PHY_TRAIN_CMD with start = 1. -/
  | laneTrainCommand (m : Master) (d : DieId) (lane : Nat)
  /-- TRAIN_REPORT_RECEIVE (R249): the bytes of a TRAIN_REPORT, and the module's own BL_RX figures for the preset. -/
  | trainReportReceive (d : DieId) (lane : Nat) (bytes : List Nat) (eyeH eyeW errors : Nat)
  /-- TRAIN_REPORT_TIMEOUT (R249): no report arrives; the module's own BL_RX figures for the preset. -/
  | trainReportTimeout (d : DieId) (lane : Nat) (eyeH eyeW errors : Nat)
  /-- ALIGN_ROUND (R256): an ALIGN round, by the blocks of the lanes that carried one. -/
  | alignRound (d : DieId) (blocks : List AlignBlock)
  /-- DESKEW_TIMEOUT (R256). -/
  | deskewTimeout (d : DieId)
  /-- LANE_SET_CHANGE (R261): the die forms a new set because a lane of the set has lost lock (R260). -/
  | laneSetChange (d : DieId)
  /-- LANE_MESSAGE_RESEND (R260). -/
  | laneMessageResend (d : DieId)
  /-- RETURN_LANE_SLEEP (R259). -/
  | returnLaneSleep (d : DieId)
  /-- RETURN_LANE_WAKE (R259). -/
  | returnLaneWake (d : DieId)
  /-- GRIST_RESYNC (R260): a write of PHY_GR_CTRL with resync = 1. -/
  | gristResync (m : Master) (d : DieId) (v : Word)
  /-- GRIST_LANE_EN_WRITE (R260): a write of PHY_GR_CTRL. -/
  | gristLaneEnWrite (m : Master) (d : DieId) (v : Word)
  /-- GRIST_LANE_TRAIN_COMMAND (R263): PHY_GR_TRAIN_CMD with start = 1. -/
  | gristLaneTrainCommand (m : Master) (d : DieId) (lane : Nat)
  /-- GRIST_TRAIN_STEP_END (R263): a preset's measurement ends with these figures. -/
  | gristTrainStepEnd (d : DieId) (lane eyeH eyeW errors : Nat)
  /-- CONTROL_READ (R267): a PDU that asks for a read arrives from a source MAC address, with its
  802.1Q tag if it has one. -/
  | controlRead (p : DieId) (src : Nat) (tag : Option Nat) (pdu : List Nat)
  /-- CONTROL_WRITE (R267): a PDU that asks for a write. -/
  | controlWrite (p : DieId) (src : Nat) (tag : Option Nat) (pdu : List Nat)
  /-- FORWARDED_REQUEST (R267): the oldest request forwarded from die `p`'s port is executed on the other die;
  `reported` says whether its report comes back. -/
  | forwardedRequest (p : DieId) (reported : Bool)
  /-- FORWARD_TIMEOUT (R266): the oldest forwarded request of port `p` has no answer. -/
  | forwardTimeout (p : DieId)
  /-- FRAME_DISCARD (R264): a frame arrives; it is discarded and counted when R264 does not accept it. -/
  | frameDiscard (p : DieId) (dst etherType : Nat) (fcsOk : Bool)
  /-- MSG_SEND (R269). -/
  | msgSend (d : DieId)
  /-- MSG_RETRY (R269). -/
  | msgRetry (d : DieId)
  /-- MSG_ACK (R269): a MSG_ACK with this seq arrives. -/
  | msgAck (d : DieId) (seq : Nat)
  /-- PTP_MESSAGE (R275): a frame of EtherType 0x88F7 is received or sent. -/
  | ptpMessage (p : DieId) (msg : PtpMsg)
  /-- SYNC_LOSS (R275). -/
  | syncLoss
  /-- HOLDOVER_END (R275). -/
  | holdoverEnd
  /-- CONTROL_PORT_LINK_LOSS (R273). -/
  | controlPortLinkLoss (p : DieId)
  /-- TIME_STEP (R270): a write of the high word of CTRL_TIME_STEP. -/
  | timeStep (m : Master) (v : Word)
  /-- TIME_INC_WRITE (R270): a write of the high word of CTRL_TIME_INC. -/
  | timeIncWrite (m : Master) (v : Word)
  /-- DRAM_READ (R288): a client (numbered as in DRAM_BUDGET_n; for a read by a management core, the core too) reads the
  8-byte word at a die address; `flips` are the stored bits that have changed since it was written, and `early` says
  that the write-back of the word's last correction is still pending. -/
  | dramRead (d : DieId) (client : Nat) (core : Option Nat) (addr : Nat) (flips : List Nat) (early : Bool)
  /-- PAGE_RETIRE_COMPLETE (R297): the oldest retirement copy of a die completes. -/
  | pageRetireComplete (d : DieId)
  /-- SRAM_READ_ERROR (R299): a word of the data path's SRAM reads uncorrectable, or as poison. -/
  | sramReadError (d : DieId) (word : SramWord) (poison : Bool)
  /-- RETIRE_COMMAND (R298): a write of ECC_RETIRE_CMD. -/
  | retireCommand (m : Master) (d : DieId) (v : Word)
  /-- REFRESH_RATE_UPDATE (R282): the temperatures, in °C, that the devices of channels 0 to 3 report. -/
  | refreshRateUpdate (d : DieId) (t0 t1 t2 t3 : Int)
  /-- REFRESH_DUE (R282): a bank's refresh falls due; `wanted` says that requests to its open row are pending. -/
  | refreshDue (d : DieId) (channel bank : Nat) (wanted : Bool)
  /-- SELF_REFRESH_ENTRY (R283). -/
  | selfRefreshEntry (d : DieId) (channel : Nat)
  /-- DRAM_TRAIN_START (R286): a write of DRAM_TRAIN_CTRL. -/
  | dramTrainStart (m : Master) (d : DieId) (v : Word)
  /-- DRAM_TRAIN_COMPLETE (R286): the operation ends; `misread` lists bits (word of the range, lane) sampled wrong. -/
  | dramTrainComplete (d : DieId) (misread : List (Nat × Nat))
  /-- DRAM_DELAY_WRITE (R286): a write of DRAM_DLY of a lane. -/
  | dramDelayWrite (m : Master) (d : DieId) (channel lane : Nat) (v : Word)
  /-- DRAM_FILL_START (R291): a write of DRAM_FILL_CTRL. -/
  | dramFillStart (m : Master) (d : DieId) (v : Word)
  /-- DRAM_FILL_COMPLETE (R291). -/
  | dramFillComplete (d : DieId)
  /-- SCRUB_READ (R301): the DRAM scrubber reads its next line; `flips` lists bits changed: (word of the line, bit). -/
  | scrubRead (d : DieId) (flips : List (Nat × Nat))
  /-- SRAM_SCRUB_READ (R302): the SRAM scrubber reads a word of a region. `rewritten` says that its unit has written it since
  it was read last, `flips` are the stored bits that have changed since then, and `last` says that it ends the lap. -/
  | sramScrubRead (d : DieId) (region idx : Nat) (rewritten : Bool) (flips : List Nat) (last : Bool)
  /-- INTERLOCK_INPUT_DROP (R309): an input (0 to 7) of a die has stood for `held` ticks at the level that is not its ok_level. -/
  | interlockInputDrop (d : DieId) (input held : Nat)
  /-- INTERLOCK_INPUT_RESTORE (R316): an input of a die has stood for `held` ticks at its ok_level. -/
  | interlockInputRestore (d : DieId) (input held : Nat)
  /-- GATE_CLOSE_REPORT (R309): the gate-closed report of the other die, or of a herd member, arrives at die `d`. -/
  | gateCloseReport (d : DieId) (member : Option Nat)
  /-- FORCE_CLOSE (R309): a write of ILK_CTRL with force_close = 1, and this reopen bit. -/
  | forceClose (m : Master) (d : DieId) (alsoReopen : Bool)
  /-- REOPEN (R316): a write of ILK_CTRL with reopen = 1 and force_close = 0. -/
  | reopen (m : Master) (d : DieId)
  /-- ILK_MASK_WRITE (R309). -/
  | ilkMaskWrite (m : Master) (d : DieId) (v : Word)
  /-- EVT_SET (R321): a write of EVT_SET_k. -/
  | evtSet (m : Master) (d : DieId) (k : Nat) (v : Word)
  /-- EVT_CLR (R321): a write of EVT_CLR_k. -/
  | evtClr (m : Master) (d : DieId) (k : Nat) (v : Word)
  /-- EVT_ACK (R325): a read of EVT_ACK_c. -/
  | evtAck (m : Master) (d : DieId) (c : Nat)
  /-- EVT_EOI (R326): a write of EVT_EOI_c. -/
  | evtEoi (m : Master) (d : DieId) (c : Nat) (id : Nat)
  /-- EVT_SCAN (R328): a read of EVT_SCAN_c. -/
  | evtScan (m : Master) (d : DieId) (c : Nat)
  /-- CORE_SLEEP (R335): a write of EVT_SLEEP_c.req = 1, or the core's sleep instruction. -/
  | coreSleep (d : DieId) (c : Nat)
  /-- CORE_WAKE (R333). -/
  | coreWake (d : DieId) (c : Nat)
  /-- FALLBACK_TIMEOUT (R334): the fallback rule is judged for a source. -/
  | fallbackTimeout (d : DieId) (source : Nat)
  /-- REMOTE_CANDIDATE (R329): the other die's candidate message for a core of this die arrives. -/
  | remoteCandidate (d : DieId) (c : Nat)
  /-- TAKEN_MESSAGE (R329): the oldest taken message to this die arrives. -/
  | takenMessage (d : DieId)
  /-- EVT_TARGET_WRITE (R330): a write of EVT_CFG_n. -/
  | evtTargetWrite (m : Master) (d : DieId) (n : Nat) (v : Word)
  /-- EVT_MODE_WRITE (R324): a write of EVT_CORE_CTRL_c. -/
  | evtModeWrite (m : Master) (d : DieId) (c : Nat) (v : Word)
  /-- HOST_QUEUE_DELIVERY (R331). -/
  | hostQueueDelivery (d : DieId)
  /-- POWER_ON (R427): VIN rises through turn-on from cold. -/
  | powerOn
  /-- SUPPLY_GOOD (R418). -/
  | supplyGood
  /-- RESET_RELEASE (R344): reset is released; REFCLK is present and every PLL locked. -/
  | resetRelease (straps : Nat)
  /-- IMAGE_VERIFY_COMPLETE (R341): both images have been read and verified. -/
  | imageVerifyComplete
  /-- BOOT_OK (R344): a write of CFG_BOOT_OK with ok = 1. -/
  | bootOk (m : Master)
  /-- BOOT_DEADLINE (R342). -/
  | bootDeadline
  /-- MODULE_RESET (R361): a module reset takes place, by power-on or the supply monitor. -/
  | moduleReset
  /-- RESET_COMMAND (R361): a write of CFG_RESET.module = 1. -/
  | resetCommand (m : Master)
  /-- SWAP_ARM (R346): a write of CFG_SWAP_CTRL with arm = 1 and this mode. -/
  | swapArm (m : Master) (mode : Bool)
  /-- SWAP_DISARM (R348): a write of CFG_SWAP_CTRL with disarm = 1, arm = 0 and this mode. -/
  | swapDisarm (m : Master) (mode : Bool)
  /-- SWAP_PREPARE_COMPLETE (R346): a die's pending copy is complete; `bad` lists the shadow table entries that were
  uncorrectable and arrived as poison. -/
  | swapPrepareComplete (d : DieId) (bad : List Nat)
  /-- SWAP_POINT (R347). -/
  | swapPoint
  /-- CHK_ACQUIRE (R350): CHK_CTRL_u.acquire = 1, with this algo. -/
  | chkAcquire (m : Master) (d : DieId) (u algo : Nat)
  /-- CHK_RELEASE (R350): CHK_CTRL_u.release = 1, with this algo. -/
  | chkRelease (m : Master) (d : DieId) (u algo : Nat)
  /-- CHK_START (R351): CHK_CTRL_u.start = 1, with this algo. -/
  | chkStart (m : Master) (d : DieId) (u algo : Nat)
  /-- CHK_DATA (R351). -/
  | chkData (m : Master) (d : DieId) (u : Nat) (v : Word)
  /-- CHK_DATA_B (R351). -/
  | chkDataB (m : Master) (d : DieId) (u : Nat) (v : Word)
  /-- CHK_RANGE_GO (R351): a write of the third word of CHK_RANGE_u with go = 1. -/
  | chkRangeGo (m : Master) (d : DieId) (u : Nat) (v : Word)
  /-- CHK_RANGE_COMPLETE (R351): the range of a unit ends; `good` bytes were read before `read` stopped it, all of them
  when it is clean. -/
  | chkRangeComplete (d : DieId) (u : Nat) (read : MemRead) (good : Nat)
  /-- MAINT_CHALLENGE (R354): CFG_MAINT_CMD op 1. -/
  | maintChallenge (m : Master)
  /-- MAINT_VERIFY (R354): op 2. -/
  | maintVerify (m : Master)
  /-- MAINT_VERIFY_COMPLETE (R355). -/
  | maintVerifyComplete
  /-- MAINT_CLOSE (R355): op 3. -/
  | maintClose (m : Master)
  /-- MAINT_EXPIRY (R355). -/
  | maintExpiry
  /-- WATCHDOG_KICK (R356): a write of CFG_MC_CTRL_c with kick = 1; the other fields are those of `v`. -/
  | watchdogKick (m : Master) (d : DieId) (c : Nat) (v : Word)
  /-- WATCHDOG_EXPIRY (R356). -/
  | watchdogExpiry (d : DieId) (c : Nat)
  /-- CORE_RESTART (R356): a write of CFG_MC_CTRL_c with restart = 1; the other fields are those of `v`. -/
  | coreRestart (m : Master) (d : DieId) (c : Nat) (v : Word)
  /-- CORE_RELOAD_COMPLETE (R356). -/
  | coreReloadComplete (d : DieId) (c : Nat)
  /-- MEASUREMENT_RECOMPUTE_COMPLETE (R358). -/
  | measurementRecomputeComplete
  /-- JLOG_RD_IDX_WRITE (R359). -/
  | jlogRdIdxWrite (m : Master) (d : DieId) (v : Word)
  /-- JOB_LOG_CAPTURE_READ (R359): a read of word 0 of a job record. -/
  | jobLogCaptureRead (m : Master) (d : DieId) (idx : Nat)
  /-- CASK_DIRECTORY_CAPTURE_READ (R165): a read of word 0 of a directory entry. -/
  | caskDirectoryCaptureRead (m : Master) (d : DieId) (idx : Nat)
  /-- ERROR_LOG_CAPTURE_READ (R305): a read of word 0 of a correctable-error log entry. -/
  | errorLogCaptureRead (m : Master) (d : DieId) (idx : Nat)
  /-- FLASH_READ (R337): a write of CFG_FLASH_CMD with op 1 and this device. -/
  | flashRead (m : Master) (device : Bool)
  /-- FLASH_PROGRAM (R337): op 2. -/
  | flashProgram (m : Master) (device : Bool)
  /-- FLASH_ERASE (R337): op 3. -/
  | flashErase (m : Master) (device : Bool)
  /-- FLASH_OPERATION_DONE (R337): the operation ends; `failed` says that the device reported a failure. -/
  | flashOperationDone (failed : Bool)
  /-- HELLO_SEND (R366). -/
  | helloSend
  /-- STATUS_SEND (R366). -/
  | statusSend
  /-- TIME_SEND (R366). -/
  | timeSend
  /-- SYNC_MESSAGE_RECEIVE (R366): a message arrives on a sync link, with its origin, sequence number and hops; `due` is
  the tick in which a decision it carries acts (R367), and `short` and `long` are the delays measured to the origin. -/
  | syncMessageReceive (linkB : Bool) (skip : Nat) (blocks : List LineBlock) (origin seq hops : Nat) (msg : SyncMsg)
      (due short long : Nat)
  /-- HERD_ELECTION (R371). -/
  | herdElection
  /-- HERD_DECISION_ACT (R367): the oldest decision of the buck acts. -/
  | herdDecisionAct
  /-- MEMBER_LOSS (R381): the buck judges whether a member is lost. -/
  | memberLoss (id : Nat)
  /-- BUCK_LOSS (R382). -/
  | buckLoss
  /-- FAILOVER_ELECTION (R383). -/
  | failoverElection
  /-- SYNC_LINK_LOSS (R380). -/
  | syncLinkLoss (linkB : Bool)
  /-- CHAIN_CHECK_REQUEST (R389): a write of CAL_CTRL with chain_go = 1; the other fields are those of `v`. -/
  | chainCheckRequest (m : Master) (v : Word)
  /-- CHAIN_CHECK_START (R389). -/
  | chainCheckStart
  /-- CHAIN_CHECK_COMPLETE (R389). -/
  | chainCheckComplete
  /-- CAL_STEP_GO (R395): a write of CAL_CTRL with step_go = 1. -/
  | calStepGo (m : Master) (v : Word)
  /-- CAL_ABORT (R395): a write of CAL_CTRL with abort = 1. -/
  | calAbort (m : Master) (v : Word)
  /-- CAL_ZERO_COMPLETE (R388). -/
  | calZeroComplete
  /-- CAL_BURST_START (R392). -/
  | calBurstStart
  /-- CAL_BURST_SLOT (R392). -/
  | calBurstSlot
  /-- CAL_BURST_COMPLETE (R393). -/
  | calBurstComplete
  /-- LANE_RECAL_TURN (R399). -/
  | laneRecalTurn (d : DieId)
  /-- LANE_RECAL_START (R399). -/
  | laneRecalStart (d : DieId)
  /-- CAL_ADC_SAMPLE (R402): the ADC's next sample, two's complement of 16 bits. -/
  | calAdcSample (x : Int)
  /-- SENSOR_READ (R423): a sensor is read with this value. -/
  | sensorRead (s : Sensor) (v : Int)
  /-- SENSOR_FAULT (R423): a temperature sensor has reported no value for `silent` ticks. -/
  | sensorFault (s : Sensor) (silent : Nat)
  /-- SUPPLY_WARNING (R418): VIN (0.1 V) has stood outside 36 to 75 V for `held` ticks. -/
  | supplyWarning (vin held : Nat)
  /-- SUPPLY_FAULT (R420): the condition of 1 undervoltage, 2 overvoltage (0.1 V), 3 overcurrent (mA) or 4 rail fault (‰ off its
set value) has held for `held` ticks, with this value. -/
  | supplyFault (why value held : Nat)
  /-- SUPPLY_FAULT_RESET (R420). -/
  | supplyFaultReset
  /-- RAIL_MARGIN_LOW (R430): the rail furthest off has stood `dev` ‰ from its set value for `held` ticks. -/
  | railMarginLow (dev held : Nat)
  /-- POWER_ABOVE_LIMIT (R430): the filtered module power, in 0.1 W, is judged. -/
  | powerAboveLimit (power : Nat)
  /-- HERD_DIGEST_COMPLETE (R363). -/
  | herdDigestComplete
  /-- CONTROL_PORT_LINK_UP (R273). -/
  | controlPortLinkUp (p : DieId)
  /-- SCHEDULE_WINDOW_OPEN (R274). -/
  | scheduleWindowOpen (p : DieId)
  deriving DecidableEq, Repr

end Sys2Proof
end

