-- ==== Sys2Proof/Decode.lean ====
section
/-! DEFINITION. The command that a word spells by the bits of the table. The spec's table gives no row any bits (its rows
are operations and events, not encodings), so no word spells a command. -/

namespace Sys2Proof

/-- The command spelled by a word of `nbits` bits: none of the table's rows has bits. -/
def decodeTableWord (_nbits _w : Nat) : Option Instr := none

end Sys2Proof
end

