-- ==== Sys2Proof/Config.lean ====
section
/-! DEFINITION. What an implementation fixes and the spec leaves open: constants and free values without a body.
Nothing can be proved about their values, so a claim about them holds for every value. -/

namespace Sys2Proof.Config

/-- A fresh open value for each use: applied to the counter `Chip.free`, which each use advances. -/
opaque freeValue : Nat → Nat

/-- The scrambler seeds of the lane transmitters, by die, lane and wake (R223: any nonzero value). -/
opaque scramblerSeed : Nat → Nat

/-- The clock identity of the ordinary clock, of which R273 does not say how it is formed. -/
opaque clockIdentity : Nat

/-- The module's serial number (CFG_SERIAL), fixed at manufacture. -/
opaque serial : BitVec 64

/-- The sense in which the encoders count (R215 leaves it open): A leading B counts down when it is true. -/
opaque encReversed : Bool

/-- The choices by which the check columns of the DRAM code are assigned to bits 0 to 71 (R287: fixed in silicon and not
visible): the column of a bit is that number, modulo how many are left, among the columns of its weight not yet taken. -/
opaque dramCol : Nat → Nat

/-- The same choices for the SRAM code, bits 0 to 136 (R289). -/
opaque sramCol : Nat → Nat

/-- The row that an access to an address which the spec does not show leaves open in a bank, by access and bank (R280). -/
opaque openRow : Nat → Nat → Nat

/-- The pseudo-random word of the memory test at a word index (R286 does not print it). -/
opaque prbsWord : Nat → Nat

end Sys2Proof.Config
end

