-- ==== Sys2Proof/Machine/Bits.lean ====
section
/-! DEFINITION. Bit fields, wrapping differences, the integer operations of R433, and byte order (R10). -/

namespace Sys2Proof.Machine

/-- Bits `hi:lo` of a word, as a number. -/
def bits (w : Word) (hi lo : Nat) : Nat := (w.toNat >>> lo) % 2 ^ (hi + 1 - lo)

/-- Bit `i` of a word. -/
def bit (w : Word) (i : Nat) : Bool := bits w i i == 1

/-- Ones in bits `hi:lo`. -/
def fieldMask (hi lo : Nat) : Word := BitVec.ofNat 32 ((2 ^ (hi + 1 - lo) - 1) <<< lo)

/-- A word with bits `hi:lo` replaced by the low bits of `v`. -/
def putBits (w : Word) (hi lo v : Nat) : Word :=
  (w &&& ~~~ fieldMask hi lo) ||| (BitVec.ofNat 32 (v <<< lo) &&& fieldMask hi lo)

/-- A word made of a number (modulo 2^32). -/
def word (n : Nat) : Word := BitVec.ofNat 32 n

/-- A Boolean as a bit. -/
def b2n (b : Bool) : Nat := if b then 1 else 0

/-- Bit `i` of a number. -/
def nbit (n i : Nat) : Bool := (n >>> i) % 2 == 1

/-- A number with bit `i` set to `b`. -/
def setNbit (n i : Nat) (b : Bool) : Nat :=
  if b then (if nbit n i then n else n + 2 ^ i) else (if nbit n i then n - 2 ^ i else n)

/-- An `n`-bit number read as two's complement (R10). -/
def toSigned (n v : Nat) : Int :=
  let r := v % 2 ^ n
  if r < 2 ^ (n - 1) then (r : Int) else (r : Int) - (2 : Int) ^ n

/-- The low `n` bits of an integer. -/
def toBits (n : Nat) (v : Int) : Nat := (v % ((2 : Int) ^ n)).toNat

/-- Signed difference of two wrapping values (R11). -/
def sdiff (n a b : Nat) : Int := toSigned n (toBits n ((a : Int) - (b : Int)))

/-- `x div y` of R433: rounds toward zero. -/
def divZ (x y : Int) : Int := x.tdiv y

/-- `floor(x / y)` of R433. -/
def floorDiv (x y : Int) : Int := x.fdiv y

/-- `ceil(x / y)` of R433. -/
def ceilDiv (x y : Int) : Int := -((-x).fdiv y)

/-- `x asr n` of R433. -/
def asr (x : Int) (n : Nat) : Int := x.fdiv ((2 : Int) ^ n)

/-- `x mod y` of R433. -/
def modZ (x y : Int) : Int := x.emod y

/-- `x / y` rounded to the nearest integer, halves away from zero. -/
def roundDiv (x y : Int) : Int :=
  if 0 ≤ x then (2 * x + y).fdiv (2 * y) else -((2 * (-x) + y).fdiv (2 * y))

/-- An integer held within ±limits. -/
def clampI (lo hi x : Int) : Int := if x < lo then lo else if hi < x then hi else x

/-- A count with a ceiling (the saturating counters of the register tables). -/
def satAdd (limit a b : Nat) : Nat := if a + b < limit then a + b else limit

/-- Modulus of slot numbers, position words and local ticks of 48 bits. -/
def m48 : Nat := 2 ^ 48

/-- The `n` little-endian bytes of a number (R10). -/
def leBytes : Nat → Nat → List Nat
  | 0, _ => []
  | n + 1, v => (v % 256) :: leBytes n (v / 256)

/-- The number whose little-endian bytes these are (R10). -/
def ofLe : List Nat → Nat
  | [] => 0
  | b :: bs => b % 256 + 256 * ofLe bs

/-- The number whose big-endian bytes these are. -/
def ofBe (l : List Nat) : Nat := l.foldl (fun a b => a * 256 + b % 256) 0

/-- The `n` big-endian bytes of a number. -/
def beBytes (n v : Nat) : List Nat := (leBytes n v).reverse

/-- `n` bytes from offset `o`, zeros past the end. -/
def sliceBytes (l : List Nat) (o n : Nat) : List Nat :=
  let t := (l.drop o).take n
  t ++ List.replicate (n - t.length) 0

/-- The little-endian number of `n` bytes from offset `o`. -/
def leAt (l : List Nat) (o n : Nat) : Nat := ofLe (sliceBytes l o n)

/-- Number of ones of a number's low `n` bits. -/
def popcount : Nat → Nat → Nat
  | 0, _ => 0
  | n + 1, v => v % 2 + popcount n (v / 2)

/-- The positions of the ones among a number's low `n` bits, ascending. -/
def onesOf (n v : Nat) : List Nat := (List.range n).filter (nbit v)

/-- A number of the given width from a list of bits, bit 0 first. -/
def ofBitList : List Bool → Nat
  | [] => 0
  | b :: bs => b2n b + 2 * ofBitList bs

end Sys2Proof.Machine
end

