-- ==== Sys2Proof/Machine/Regs.lean ====
section
/-! DEFINITION. The register table of one die: every register of the block windows (R53), with its fields, their
access codes (R17) and their reset values, as the register tables of the chapters give them. A field with code `live`
is RO and computed from the machine's state when read; `ro` is RO and holds the value hardware latched last.
`F.<register>_<field>` names one field; a register that repeats has a stride, and `Fld.at` names its copies. -/

namespace Sys2Proof.Machine

/-- Access codes of R17, with RO split in two: `ro` is a latched value the hardware writes into the register,
`live` is computed from the state at the read. W1S occurs in EVT_SET only, which has its own rule (R321). -/
inductive Acc where
  | rw | rws | w1c | wo | rc | ro | live
  deriving DecidableEq, Repr

/-- One field of a register: its bit range, access code and reset value. -/
structure FieldSpec where
  hi : Nat
  lo : Nat
  acc : Acc
  reset : Nat
  deriving DecidableEq, Repr

/-- One register heading: `count` registers `stride` bytes apart from `base`; `wide` words make one value (R20). -/
structure RegSpec where
  base : Nat
  stride : Nat
  count : Nat
  wide : Nat
  fields : List FieldSpec
  deriving DecidableEq, Repr

/-- A field of a named register, for access by name. -/
structure Fld where
  off : Nat
  stride : Nat
  hi : Nat
  lo : Nat
  deriving DecidableEq, Repr

/-- The same field of the register's `i`-th copy. -/
def Fld.at (f : Fld) (i : Nat) : Fld := { f with off := f.off + f.stride * i }


/-- Registers of block SYS, chapter 00 (R6, R14). -/
def regsSys00 : List RegSpec := [
  /- SYS_ID -/ ⟨0x000000, 4, 1, 1, [⟨31, 20, .live, 0⟩, ⟨19, 4, .live, 0⟩, ⟨3, 0, .live, 0⟩]⟩,
  /- SYS_VARIANT -/ ⟨0x000004, 4, 1, 1, [⟨0, 0, .live, 0⟩, ⟨1, 1, .live, 0⟩, ⟨6, 4, .live, 0⟩, ⟨23, 8, .live, 0⟩]⟩]

/-- Registers of block SYS, chapter 01 (R27, R28). -/
def regsSys01 : List RegSpec := [
  /- SYS_EVUNE_STATUS -/ ⟨0x000010, 4, 1, 1, [⟨1, 0, .live, 0⟩, ⟨9, 2, .live, 0⟩, ⟨17, 10, .live, 0⟩, ⟨29, 18, .live, 0⟩, ⟨30, 30, .w1c, 0⟩]⟩]

/-- Registers of block SYS, chapter 01 (R31-R34). -/
def regsSys01b : List RegSpec := [
  /- SYS_UNIT_CELL -/ ⟨0x004000, 4, 2048, 1, [⟨0, 0, .rws, 1⟩, ⟨3, 1, .live, 0⟩, ⟨29, 8, .live, 0⟩, ⟨30, 30, .w1c, 0⟩, ⟨31, 31, .w1c, 0⟩]⟩,
  /- SYS_UNIT_FIELD -/ ⟨0x006000, 4, 32, 1, [⟨0, 0, .rws, 1⟩, ⟨3, 1, .live, 0⟩, ⟨29, 8, .live, 0⟩, ⟨30, 30, .w1c, 0⟩, ⟨31, 31, .w1c, 0⟩]⟩,
  /- SYS_UNIT_HALF -/ ⟨0x006080, 4, 1, 1, [⟨0, 0, .rws, 1⟩, ⟨3, 1, .live, 0⟩, ⟨29, 8, .live, 0⟩, ⟨30, 30, .w1c, 0⟩, ⟨31, 31, .w1c, 0⟩]⟩,
  /- SYS_UNIT_MODULE -/ ⟨0x006084, 4, 1, 1, [⟨0, 0, .rws, 1⟩, ⟨3, 1, .live, 0⟩, ⟨29, 8, .live, 0⟩, ⟨30, 30, .w1c, 0⟩, ⟨31, 31, .w1c, 0⟩]⟩,
  /- SYS_UNIT_HERD -/ ⟨0x006088, 4, 1, 1, [⟨0, 0, .rws, 1⟩, ⟨3, 1, .live, 0⟩, ⟨29, 8, .live, 0⟩, ⟨30, 30, .w1c, 0⟩, ⟨31, 31, .w1c, 0⟩]⟩]

/-- Registers of block EVL, chapter 01 (R44-R47). -/
def regsEvl01 : List RegSpec := [
  /- EVL_CTRL -/ ⟨0x160000, 4, 1, 1, [⟨0, 0, .rw, 0⟩, ⟨1, 1, .wo, 0⟩]⟩,
  /- EVL_STATUS -/ ⟨0x160004, 4, 1, 1, [⟨10, 0, .live, 0⟩, ⟨25, 16, .live, 0⟩, ⟨26, 26, .live, 0⟩, ⟨27, 27, .live, 0⟩, ⟨28, 28, .live, 0⟩]⟩,
  /- EVL_RD_IDX -/ ⟨0x160008, 4, 1, 1, [⟨9, 0, .live, 0⟩, ⟨16, 16, .wo, 0⟩]⟩,
  /- EVL_OVF_COUNT -/ ⟨0x16000C, 4, 1, 1, [⟨31, 0, .ro, 0⟩]⟩,
  /- EVL_OVF_FIRST_JOB -/ ⟨0x160010, 4, 1, 1, [⟨31, 0, .ro, 0⟩]⟩,
  /- EVL_OVF_LAST_JOB -/ ⟨0x160014, 4, 1, 1, [⟨31, 0, .ro, 0⟩]⟩,
  /- EVL_OVF_FIRST_STRIPE -/ ⟨0x160018, 4, 1, 1, [⟨23, 0, .ro, 0⟩]⟩,
  /- EVL_OVF_LAST_STRIPE -/ ⟨0x16001C, 4, 1, 1, [⟨23, 0, .ro, 0⟩]⟩,
  /- EVL_OVF_FIRST_V -/ ⟨0x160020, 4, 1, 1, [⟨31, 0, .ro, 0⟩]⟩,
  /- EVL_OVF_LAST_V -/ ⟨0x160024, 4, 1, 1, [⟨31, 0, .ro, 0⟩]⟩]

/-- Registers of block GRIST, chapter 02 (R73, R74, R86). -/
def regsGrist02 : List RegSpec := [
  /- GRIST_CTRL -/ ⟨0x020000, 4, 1, 1, [⟨0, 0, .rw, 0⟩, ⟨1, 1, .wo, 0⟩]⟩,
  /- GRIST_RX_BASE -/ ⟨0x020004, 4, 1, 1, [⟨18, 0, .rw, 0⟩]⟩,
  /- GRIST_RX_SIZE -/ ⟨0x020008, 4, 1, 1, [⟨18, 0, .rw, 16384⟩]⟩,
  /- GRIST_LEAD -/ ⟨0x02000C, 4, 1, 1, [⟨19, 0, .rws, 4096⟩]⟩,
  /- GRIST_RESEND_MIN -/ ⟨0x020010, 4, 1, 1, [⟨19, 0, .rw, 1024⟩]⟩,
  /- GRIST_STATUS -/ ⟨0x020014, 4, 1, 1, [⟨8, 0, .live, 0⟩, ⟨10, 9, .live, 0⟩, ⟨11, 11, .live, 0⟩, ⟨12, 12, .live, 0⟩, ⟨31, 13, .live, 0⟩]⟩,
  /- GRIST_JOB -/ ⟨0x020018, 4, 1, 1, [⟨31, 0, .live, 0⟩]⟩,
  /- GRIST_CREDIT -/ ⟨0x02001C, 4, 1, 1, [⟨31, 0, .live, 0⟩]⟩,
  /- GRIST_DESC_CREDIT -/ ⟨0x020020, 4, 1, 1, [⟨31, 0, .live, 0⟩]⟩,
  /- GRIST_NACK_COUNT -/ ⟨0x020024, 4, 1, 1, [⟨31, 0, .rc, 0⟩]⟩,
  /- GRIST_LAST_NACK -/ ⟨0x020028, 4, 1, 3, [⟨7, 0, .ro, 0⟩, ⟨31, 8, .ro, 0⟩]⟩,
  /- GRIST_LAST_NACK_1 -/ ⟨0x02002C, 4, 1, 1, [⟨31, 0, .ro, 0⟩]⟩,
  /- GRIST_LAST_NACK_2 -/ ⟨0x020030, 4, 1, 1, [⟨31, 0, .ro, 0⟩]⟩,
  /- GRIST_GRANULES_USED -/ ⟨0x020034, 4, 1, 1, [⟨22, 0, .live, 0⟩]⟩]

/-- Registers of block MASH, chapter 02 (R78, R79, R84). -/
def regsMash02 : List RegSpec := [
  /- MASH_STATUS -/ ⟨0x030000, 4, 1, 1, [⟨0, 0, .live, 0⟩, ⟨1, 1, .live, 0⟩, ⟨10, 2, .live, 0⟩, ⟨19, 11, .live, 0⟩]⟩,
  /- MASH_CRC_ERR_COUNT -/ ⟨0x030004, 4, 1, 1, [⟨31, 0, .rc, 0⟩]⟩,
  /- MASH_DECODE_ERR_COUNT -/ ⟨0x030008, 4, 1, 1, [⟨31, 0, .rc, 0⟩]⟩,
  /- MASH_FEED_MISMATCH_COUNT -/ ⟨0x03000C, 4, 1, 1, [⟨31, 0, .rc, 0⟩]⟩,
  /- MASH_LAST_ERR -/ ⟨0x030010, 4, 1, 1, [⟨3, 0, .ro, 0⟩, ⟨26, 4, .ro, 0⟩, ⟨27, 27, .ro, 0⟩]⟩]

/-- Registers of block KILN, chapter 03 (R104-R109, R112, R117, R122). -/
def regsKiln03 : List RegSpec := [
  /- KILN_CTRL -/ ⟨0x040000, 4, 1, 1, [⟨0, 0, .rws, 0⟩, ⟨2, 1, .rws, 1⟩]⟩,
  /- KILN_STATUS -/ ⟨0x040004, 4, 1, 1, [⟨5, 0, .live, 0⟩, ⟨6, 6, .live, 0⟩, ⟨7, 7, .live, 0⟩, ⟨8, 8, .live, 0⟩, ⟨27, 9, .live, 0⟩]⟩,
  /- KILN_ENGINE_EN -/ ⟨0x040008, 4, 1, 1, [⟨31, 0, .rw, 4294967295⟩]⟩,
  /- KILN_ENGINE_RETIRED -/ ⟨0x04000C, 4, 1, 1, [⟨31, 0, .w1c, 0⟩]⟩,
  /- KILN_SAT_COUNT -/ ⟨0x040010, 4, 1, 1, [⟨31, 0, .rc, 0⟩]⟩,
  /- KILN_FIG_ERR_COUNT -/ ⟨0x040014, 4, 1, 1, [⟨31, 0, .rc, 0⟩]⟩,
  /- KILN_FIG_ERR -/ ⟨0x040018, 4, 1, 5, [⟨3, 0, .ro, 0⟩, ⟨4, 4, .ro, 0⟩, ⟨28, 5, .ro, 0⟩]⟩,
  /- KILN_FIG_ERR_1 -/ ⟨0x04001C, 4, 1, 1, [⟨31, 0, .ro, 0⟩]⟩,
  /- KILN_FIG_ERR_2 -/ ⟨0x040020, 4, 1, 1, [⟨23, 0, .ro, 0⟩]⟩,
  /- KILN_FIG_ERR_3 -/ ⟨0x040024, 4, 1, 1, [⟨31, 0, .ro, 0⟩]⟩,
  /- KILN_FIG_ERR_4 -/ ⟨0x040028, 4, 1, 1, [⟨31, 0, .ro, 0⟩]⟩,
  /- KILN_KERN_U -/ ⟨0x040040, 4, 8, 1, [⟨12, 0, .rws, 0⟩]⟩,
  /- KILN_KERN_U_8 -/ ⟨0x040060, 4, 1, 1, [⟨12, 0, .rws, 4096⟩]⟩,
  /- KILN_KERN_U_9 -/ ⟨0x040064, 4, 8, 1, [⟨12, 0, .rws, 0⟩]⟩,
  /- KILN_KERN_V -/ ⟨0x0400A0, 4, 8, 1, [⟨12, 0, .rws, 0⟩]⟩,
  /- KILN_KERN_V_8 -/ ⟨0x0400C0, 4, 1, 1, [⟨12, 0, .rws, 4096⟩]⟩,
  /- KILN_KERN_V_9 -/ ⟨0x0400C4, 4, 8, 1, [⟨12, 0, .rws, 0⟩]⟩,
  /- KILN_CLASS -/ ⟨0x040100, 4, 16, 1, [⟨0, 0, .rws, 0⟩, ⟨1, 1, .rws, 1⟩, ⟨2, 2, .rws, 1⟩]⟩]

/-- Registers of block TASTE, chapter 03 (R120-R125). -/
def regsTaste03 : List RegSpec := [
  /- TASTE_CTRL -/ ⟨0x050000, 4, 1, 1, [⟨5, 0, .rw, 0⟩]⟩,
  /- TASTE_STATUS -/ ⟨0x050004, 4, 1, 1, [⟨0, 0, .live, 0⟩]⟩,
  /- TASTE_SAMPLE_COUNT -/ ⟨0x050008, 4, 1, 1, [⟨31, 0, .rc, 0⟩]⟩,
  /- TASTE_MISMATCH_COUNT -/ ⟨0x05000C, 4, 1, 1, [⟨31, 0, .rc, 0⟩]⟩,
  /- TASTE_LAST_MISMATCH -/ ⟨0x050010, 4, 1, 3, [⟨4, 0, .ro, 0⟩, ⟨16, 8, .ro, 0⟩]⟩,
  /- TASTE_LAST_MISMATCH_1 -/ ⟨0x050014, 4, 1, 1, [⟨23, 0, .ro, 0⟩]⟩,
  /- TASTE_LAST_MISMATCH_2 -/ ⟨0x050018, 4, 1, 1, [⟨31, 0, .ro, 0⟩]⟩,
  /- TASTE_SEAM_MISMATCH_COUNT -/ ⟨0x05001C, 4, 1, 1, [⟨31, 0, .rc, 0⟩]⟩,
  /- TASTE_DENS_MISMATCH_COUNT -/ ⟨0x050020, 4, 1, 1, [⟨31, 0, .rc, 0⟩]⟩,
  /- TASTE_ENGINE_MISS -/ ⟨0x050040, 4, 32, 1, [⟨6, 0, .live, 0⟩]⟩]

/-- Registers of block MAP, chapter 04 (R137-R141, R147). -/
def regsMap04 : List RegSpec := [
  /- MAP_GEOM -/ ⟨0x060000, 4, 1, 1, [⟨2, 0, .rws, 0⟩, ⟨6, 4, .rws, 0⟩, ⟨10, 8, .rws, 0⟩]⟩,
  /- MAP_WINDOW -/ ⟨0x060004, 4, 1, 1, [⟨7, 0, .rws, 200⟩]⟩,
  /- MAP_COMP -/ ⟨0x060008, 4, 1, 1, [⟨7, 0, .rws, 2⟩, ⟨8, 8, .rws, 1⟩]⟩,
  /- MAP_TABLE_VIEW -/ ⟨0x06000C, 4, 1, 1, [⟨0, 0, .rw, 0⟩]⟩,
  /- MAP_CHECK -/ ⟨0x060010, 4, 1, 1, [⟨0, 0, .live, 0⟩, ⟨1, 1, .live, 0⟩, ⟨5, 2, .live, 0⟩, ⟨24, 8, .live, 0⟩]⟩,
  /- MAP_VIEW_SUMMARY -/ ⟨0x060014, 4, 1, 1, [⟨17, 0, .live, 0⟩, ⟨28, 18, .live, 0⟩]⟩,
  /- MAP_BIND -/ ⟨0x060018, 4, 1, 1, [⟨23, 0, .live, 0⟩, ⟨24, 24, .live, 0⟩]⟩,
  /- MAP_UNCOMP_COUNT -/ ⟨0x06001C, 4, 1, 1, [⟨31, 0, .rc, 0⟩]⟩,
  /- MAP_CAPPED_COUNT -/ ⟨0x060020, 4, 1, 1, [⟨31, 0, .rc, 0⟩]⟩]

/-- Registers of block CASK, chapter 05 (R148, R152, R155-R162). -/
def regsCask05 : List RegSpec := [
  /- CASK_CTRL -/ ⟨0x070000, 4, 1, 1, [⟨0, 0, .rw, 0⟩, ⟨3, 1, .rw, 2⟩]⟩,
  /- CASK_BASE -/ ⟨0x070004, 4, 1, 1, [⟨18, 0, .rw, 0⟩]⟩,
  /- CASK_SIZE -/ ⟨0x070008, 4, 1, 1, [⟨18, 0, .rw, 0⟩]⟩,
  /- CASK_STATUS -/ ⟨0x07000C, 4, 1, 1, [⟨0, 0, .live, 0⟩, ⟨1, 1, .live, 0⟩, ⟨7, 2, .live, 0⟩, ⟨13, 8, .live, 0⟩, ⟨20, 14, .live, 0⟩]⟩,
  /- CASK_SPACE -/ ⟨0x070010, 4, 1, 1, [⟨22, 0, .live, 0⟩]⟩,
  /- CASK_CMD -/ ⟨0x070014, 4, 1, 1, [⟨5, 0, .wo, 0⟩, ⟨9, 8, .wo, 0⟩]⟩,
  /- CASK_PLAY -/ ⟨0x070020, 4, 4, 1, [⟨23, 0, .rw, 0⟩, ⟨29, 24, .rw, 0⟩, ⟨31, 31, .rw, 0⟩]⟩,
  /- CASK_STORE_FAIL_COUNT -/ ⟨0x070030, 4, 1, 1, [⟨31, 0, .rc, 0⟩]⟩,
  /- CASK_PLAY_ERR_COUNT -/ ⟨0x070034, 4, 1, 1, [⟨31, 0, .rc, 0⟩]⟩,
  /- CASK_VERIFY_MISMATCH_COUNT -/ ⟨0x070038, 4, 1, 1, [⟨31, 0, .rc, 0⟩]⟩,
  /- CASK_READ_ERR_COUNT -/ ⟨0x07003C, 4, 1, 1, [⟨31, 0, .rc, 0⟩]⟩,
  /- CASK_LAST_FAIL -/ ⟨0x070040, 4, 1, 3, [⟨3, 0, .ro, 0⟩, ⟨9, 4, .ro, 0⟩, ⟨31, 10, .ro, 0⟩]⟩,
  /- CASK_LAST_FAIL_1 -/ ⟨0x070044, 4, 1, 1, [⟨23, 0, .ro, 0⟩]⟩,
  /- CASK_LAST_FAIL_2 -/ ⟨0x070048, 4, 1, 1, [⟨31, 0, .ro, 0⟩]⟩]

/-- Registers of block SLOT, chapter 06 (R168-R189). -/
def regsSlot06 : List RegSpec := [
  /- SLOT_SCAN -/ ⟨0x080000, 4, 1, 1, [⟨0, 0, .rws, 1⟩, ⟨1, 1, .rws, 0⟩]⟩,
  /- SLOT_PITCH -/ ⟨0x080004, 4, 1, 1, [⟨12, 0, .rws, 2560⟩]⟩,
  /- SLOT_RATE_LIMIT -/ ⟨0x080008, 4, 1, 1, [⟨11, 0, .rws, 4000⟩]⟩,
  /- SLOT_IDLE -/ ⟨0x08000C, 4, 1, 1, [⟨11, 0, .rw, 1000⟩]⟩,
  /- SLOT_TRACK -/ ⟨0x080010, 4, 1, 1, [⟨3, 0, .rw, 8⟩, ⟨9, 4, .rw, 15⟩, ⟨31, 16, .rw, 1000⟩]⟩,
  /- SLOT_LIMITS -/ ⟨0x080014, 4, 1, 1, [⟨15, 0, .rw, 4096⟩, ⟨31, 16, .rw, 64⟩]⟩,
  /- SLOT_SPEED_CFG -/ ⟨0x080018, 4, 1, 1, [⟨7, 0, .rw, 3⟩, ⟨23, 8, .rw, 100⟩]⟩,
  /- SLOT_POS_CTRL -/ ⟨0x08001C, 4, 1, 1, [⟨2, 0, .rw, 7⟩, ⟨6, 4, .wo, 0⟩, ⟨27, 16, .rw, 0⟩]⟩,
  /- SLOT_POS_STATE -/ ⟨0x080020, 4, 3, 1, [⟨2, 0, .live, 0⟩, ⟨3, 3, .live, 0⟩, ⟨7, 4, .live, 0⟩, ⟨11, 8, .live, 0⟩, ⟨13, 12, .live, 0⟩, ⟨14, 14, .live, 0⟩]⟩,
  /- SLOT_POS_ERR -/ ⟨0x08002C, 4, 3, 1, [⟨7, 0, .rc, 0⟩, ⟨15, 8, .rc, 0⟩, ⟨23, 16, .rc, 0⟩, ⟨31, 24, .rc, 0⟩]⟩,
  /- SLOT_POS -/ ⟨0x080040, 16, 3, 4, [⟨31, 0, .live, 0⟩]⟩,
  /- SLOT_POS_1 -/ ⟨0x080044, 16, 3, 1, [⟨15, 0, .live, 0⟩]⟩,
  /- SLOT_POS_2 -/ ⟨0x080048, 16, 3, 1, [⟨31, 0, .live, 0⟩]⟩,
  /- SLOT_POS_3 -/ ⟨0x08004C, 16, 3, 1, [⟨15, 0, .live, 0⟩]⟩,
  /- SLOT_SPEED -/ ⟨0x080070, 4, 3, 1, [⟨31, 0, .live, 0⟩]⟩,
  /- SLOT_MODE -/ ⟨0x080080, 4, 1, 1, [⟨1, 0, .live, 0⟩, ⟨2, 2, .live, 0⟩, ⟨3, 3, .live, 0⟩, ⟨4, 4, .live, 0⟩, ⟨31, 8, .live, 0⟩]⟩,
  /- SLOT_NUMBER -/ ⟨0x080084, 4, 1, 2, [⟨31, 0, .live, 0⟩]⟩,
  /- SLOT_NUMBER_1 -/ ⟨0x080088, 4, 1, 1, [⟨15, 0, .live, 0⟩]⟩,
  /- SLOT_TICK -/ ⟨0x08008C, 4, 1, 2, [⟨31, 0, .live, 0⟩]⟩,
  /- SLOT_TICK_1 -/ ⟨0x080090, 4, 1, 1, [⟨15, 0, .live, 0⟩]⟩,
  /- SLOT_PHASE -/ ⟨0x080094, 4, 1, 2, [⟨31, 0, .live, 0⟩]⟩,
  /- SLOT_PHASE_1 -/ ⟨0x080098, 4, 1, 1, [⟨31, 0, .live, 0⟩]⟩,
  /- SLOT_PHASE_INC -/ ⟨0x08009C, 4, 1, 1, [⟨31, 0, .live, 0⟩]⟩,
  /- SLOT_HWM -/ ⟨0x0800A0, 4, 1, 1, [⟨31, 0, .live, 0⟩]⟩,
  /- SLOT_S0 -/ ⟨0x0800A4, 4, 1, 2, [⟨31, 0, .live, 0⟩]⟩,
  /- SLOT_S0_1 -/ ⟨0x0800A8, 4, 1, 1, [⟨15, 0, .live, 0⟩]⟩,
  /- SLOT_N -/ ⟨0x0800AC, 4, 1, 1, [⟨31, 0, .live, 0⟩]⟩,
  /- SLOT_ARM_POS -/ ⟨0x0800C0, 4, 1, 2, [⟨31, 0, .rw, 0⟩]⟩,
  /- SLOT_ARM_POS_1 -/ ⟨0x0800C4, 4, 1, 1, [⟨15, 0, .rw, 0⟩]⟩,
  /- SLOT_ARM_CTRL -/ ⟨0x0800C8, 4, 1, 1, [⟨23, 0, .rw, 0⟩, ⟨30, 30, .wo, 0⟩, ⟨31, 31, .wo, 0⟩]⟩,
  /- SLOT_OVS_COUNT -/ ⟨0x0800D0, 4, 1, 1, [⟨31, 0, .rc, 0⟩]⟩,
  /- SLOT_REV_COUNT -/ ⟨0x0800D4, 4, 1, 1, [⟨31, 0, .rc, 0⟩]⟩,
  /- SLOT_LATE_COUNT -/ ⟨0x0800D8, 4, 1, 1, [⟨31, 0, .rc, 0⟩]⟩,
  /- SLOT_POS_FAULT_COUNT -/ ⟨0x0800DC, 4, 1, 1, [⟨31, 0, .rc, 0⟩]⟩,
  /- SLOT_CMP -/ ⟨0x080100, 16, 8, 2, [⟨31, 0, .rw, 0⟩]⟩,
  /- SLOT_CMP_1 -/ ⟨0x080104, 16, 8, 1, [⟨15, 0, .rw, 0⟩]⟩,
  /- SLOT_CMP_2 -/ ⟨0x080108, 16, 8, 1, [⟨0, 0, .rw, 0⟩, ⟨1, 1, .rw, 0⟩, ⟨4, 2, .rw, 0⟩, ⟨8, 8, .rw, 0⟩, ⟨9, 9, .w1c, 0⟩, ⟨10, 10, .w1c, 0⟩]⟩,
  /- SLOT_CMP_3 -/ ⟨0x08010C, 16, 8, 1, [⟨31, 0, .ro, 0⟩]⟩]

/-- Registers of block DEFL, chapter 07 (R192-R201). -/
def regsDefl07 : List RegSpec := [
  /- DEFL_CTRL -/ ⟨0x090000, 4, 1, 1, [⟨0, 0, .rw, 0⟩, ⟨1, 1, .rws, 0⟩]⟩,
  /- DEFL_SCALE_A -/ ⟨0x090004, 4, 1, 1, [⟨23, 0, .rws, 16384⟩]⟩,
  /- DEFL_SCALE_C -/ ⟨0x090008, 4, 1, 1, [⟨23, 0, .rws, 16384⟩]⟩,
  /- DEFL_OFFSET_A -/ ⟨0x09000C, 4, 1, 1, [⟨19, 0, .rws, 0⟩]⟩,
  /- DEFL_OFFSET_C -/ ⟨0x090010, 4, 1, 1, [⟨19, 0, .rws, 0⟩]⟩,
  /- DEFL_LEAD -/ ⟨0x090014, 4, 1, 1, [⟨9, 0, .rw, 0⟩]⟩,
  /- DEFL_YAW_K -/ ⟨0x090018, 4, 1, 1, [⟨15, 0, .rws, 0⟩, ⟨31, 16, .rws, 0⟩]⟩,
  /- DEFL_CORR_LIMIT -/ ⟨0x09001C, 4, 1, 1, [⟨19, 0, .rws, 65536⟩]⟩,
  /- DEFL_CROSS_REF -/ ⟨0x090020, 4, 1, 2, [⟨31, 0, .rws, 0⟩]⟩,
  /- DEFL_CROSS_REF_1 -/ ⟨0x090024, 4, 1, 1, [⟨15, 0, .rws, 0⟩]⟩,
  /- DEFL_YAW_REF -/ ⟨0x090028, 4, 1, 2, [⟨31, 0, .rws, 0⟩]⟩,
  /- DEFL_YAW_REF_1 -/ ⟨0x09002C, 4, 1, 1, [⟨15, 0, .rws, 0⟩]⟩,
  /- DEFL_CHECK -/ ⟨0x090030, 4, 1, 1, [⟨0, 0, .live, 0⟩, ⟨1, 1, .live, 0⟩, ⟨5, 2, .live, 0⟩, ⟨14, 6, .live, 0⟩]⟩,
  /- DEFL_STATUS -/ ⟨0x090034, 4, 1, 1, [⟨0, 0, .ro, 0⟩, ⟨1, 1, .ro, 0⟩]⟩,
  /- DEFL_LAST_A -/ ⟨0x090038, 4, 1, 1, [⟨19, 0, .ro, 0⟩]⟩,
  /- DEFL_LAST_C -/ ⟨0x09003C, 4, 1, 1, [⟨19, 0, .ro, 0⟩]⟩,
  /- DEFL_LIMIT_COUNT -/ ⟨0x090040, 4, 1, 1, [⟨31, 0, .rc, 0⟩]⟩]

/-- Registers of block AXIS, chapter 07 (R202-R217). -/
def regsAxis07 : List RegSpec := [
  /- AXIS_CTRL -/ ⟨0x0A0000, 256, 2, 1, [⟨0, 0, .rw, 0⟩, ⟨1, 1, .rw, 0⟩, ⟨2, 2, .rw, 0⟩, ⟨3, 3, .rw, 0⟩]⟩,
  /- AXIS_CMD -/ ⟨0x0A0004, 256, 2, 1, [⟨2, 0, .wo, 0⟩]⟩,
  /- AXIS_TARGET -/ ⟨0x0A0008, 256, 2, 1, [⟨31, 0, .rw, 0⟩]⟩,
  /- AXIS_VMAX -/ ⟨0x0A000C, 256, 2, 1, [⟨31, 0, .rw, 268435456⟩]⟩,
  /- AXIS_ACC -/ ⟨0x0A0010, 256, 2, 1, [⟨31, 0, .rw, 65536⟩]⟩,
  /- AXIS_DEC -/ ⟨0x0A0014, 256, 2, 1, [⟨31, 0, .rw, 65536⟩]⟩,
  /- AXIS_DEC_LIMIT -/ ⟨0x0A0018, 256, 2, 1, [⟨31, 0, .rw, 1048576⟩]⟩,
  /- AXIS_HOME_V -/ ⟨0x0A001C, 256, 2, 1, [⟨31, 0, .rw, 67108864⟩]⟩,
  /- AXIS_HOME_OFS -/ ⟨0x0A0020, 256, 2, 1, [⟨31, 0, .rw, 0⟩]⟩,
  /- AXIS_CURRENT -/ ⟨0x0A0024, 256, 2, 1, [⟨8, 0, .rw, 256⟩, ⟨17, 9, .rw, 128⟩, ⟨31, 18, .rw, 200⟩]⟩,
  /- AXIS_INPUT -/ ⟨0x0A0028, 256, 2, 1, [⟨7, 0, .rw, 2⟩, ⟨11, 8, .rw, 4⟩, ⟨19, 12, .rw, 50⟩, ⟨23, 20, .rw, 3⟩, ⟨31, 24, .rw, 10⟩]⟩,
  /- AXIS_POS -/ ⟨0x0A002C, 256, 2, 1, [⟨31, 0, .live, 0⟩]⟩,
  /- AXIS_STATUS -/ ⟨0x0A0030, 256, 2, 1, [⟨2, 0, .live, 0⟩, ⟨3, 3, .live, 0⟩, ⟨4, 4, .live, 0⟩, ⟨5, 5, .live, 0⟩, ⟨6, 6, .live, 0⟩, ⟨7, 7, .live, 0⟩, ⟨8, 8, .live, 0⟩]⟩,
  /- AXIS_FAULT -/ ⟨0x0A0034, 256, 2, 1, [⟨0, 0, .w1c, 0⟩, ⟨1, 1, .w1c, 0⟩, ⟨2, 2, .w1c, 0⟩, ⟨3, 3, .w1c, 0⟩, ⟨4, 4, .w1c, 0⟩, ⟨5, 5, .w1c, 0⟩, ⟨6, 6, .w1c, 0⟩]⟩,
  /- AXIS_ENC -/ ⟨0x0A0038, 256, 2, 1, [⟨31, 0, .live, 0⟩]⟩,
  /- AXIS_ENC_SPEED -/ ⟨0x0A003C, 256, 2, 1, [⟨31, 0, .live, 0⟩]⟩,
  /- AXIS_INDEX -/ ⟨0x0A0040, 256, 2, 1, [⟨31, 0, .ro, 0⟩]⟩,
  /- AXIS_ENC_ERR -/ ⟨0x0A0044, 256, 2, 1, [⟨31, 0, .rc, 0⟩]⟩]

/-- Registers of block BLNK, chapter 08 (R228, R233-R241, R247). -/
def regsBlnk08 : List RegSpec := [
  /- BLNK_CTRL -/ ⟨0x0B0000, 4, 1, 1, [⟨0, 0, .rw, 0⟩, ⟨1, 1, .rw, 1⟩, ⟨2, 2, .rw, 1⟩, ⟨15, 8, .rw, 8⟩, ⟨23, 16, .rw, 4⟩]⟩,
  /- BLNK_STATUS -/ ⟨0x0B0004, 4, 1, 1, [⟨7, 0, .live, 0⟩, ⟨8, 8, .live, 0⟩, ⟨9, 9, .live, 0⟩, ⟨10, 10, .live, 0⟩, ⟨18, 11, .live, 0⟩, ⟨24, 19, .live, 0⟩, ⟨27, 25, .live, 0⟩]⟩,
  /- BLNK_HANDOVER -/ ⟨0x0B0008, 4, 1, 1, [⟨5, 0, .wo, 0⟩, ⟨9, 8, .wo, 0⟩]⟩,
  /- BLNK_ECHO_BAD_COUNT -/ ⟨0x0B0010, 4, 1, 1, [⟨31, 0, .rc, 0⟩]⟩,
  /- BLNK_ECHO_MISS_COUNT -/ ⟨0x0B0014, 4, 1, 1, [⟨31, 0, .rc, 0⟩]⟩,
  /- BLNK_EPOCH_ERR_COUNT -/ ⟨0x0B0018, 4, 1, 1, [⟨31, 0, .rc, 0⟩]⟩,
  /- BLNK_ABORT_COUNT -/ ⟨0x0B001C, 4, 1, 1, [⟨31, 0, .rc, 0⟩]⟩,
  /- BLNK_MAP -/ ⟨0x0B0100, 4, 64, 1, [⟨6, 0, .live, 0⟩, ⟨9, 7, .live, 0⟩]⟩,
  /- BLNK_SPARE -/ ⟨0x0B0200, 4, 4, 1, [⟨2, 0, .live, 0⟩, ⟨8, 3, .live, 0⟩]⟩]

/-- Registers of block PHY, chapter 08 (R243-R250). -/
def regsPhy08 : List RegSpec := [
  /- PHY_BL -/ ⟨0x0C0000, 4, 68, 1, [⟨2, 0, .live, 0⟩, ⟨5, 3, .live, 0⟩, ⟨6, 6, .live, 0⟩, ⟨7, 7, .live, 0⟩, ⟨15, 8, .live, 0⟩, ⟨21, 16, .live, 0⟩]⟩,
  /- PHY_BL_PRBS -/ ⟨0x0C0200, 4, 68, 1, [⟨15, 0, .rc, 0⟩, ⟨31, 16, .rc, 0⟩]⟩,
  /- PHY_TRAIN_CFG -/ ⟨0x0C0400, 4, 1, 1, [⟨7, 0, .rw, 40⟩, ⟨13, 8, .rw, 16⟩, ⟨23, 14, .rw, 200⟩, ⟨27, 24, .rw, 5⟩, ⟨31, 28, .rw, 0⟩]⟩,
  /- PHY_TRAIN_CMD -/ ⟨0x0C0404, 4, 1, 1, [⟨6, 0, .wo, 0⟩, ⟨7, 7, .wo, 0⟩]⟩,
  /- PHY_TRAIN_STATUS -/ ⟨0x0C0408, 4, 1, 1, [⟨0, 0, .live, 0⟩, ⟨7, 1, .live, 0⟩, ⟨9, 8, .live, 0⟩, ⟨12, 10, .live, 0⟩, ⟨13, 13, .live, 0⟩, ⟨21, 14, .live, 0⟩]⟩,
  /- PHY_DFE_CFG -/ ⟨0x0C040C, 4, 1, 1, [⟨9, 0, .rw, 64⟩]⟩]

/-- Registers of block PHY, chapter 09 (R255-R263). -/
def regsPhy09 : List RegSpec := [
  /- PHY_GR_CTRL -/ ⟨0x0C0800, 4, 1, 1, [⟨15, 0, .rw, 65535⟩, ⟨18, 16, .rw, 4⟩, ⟨19, 19, .wo, 0⟩, ⟨20, 20, .rw, 1⟩]⟩,
  /- PHY_GR_STATUS -/ ⟨0x0C0804, 4, 1, 1, [⟨7, 0, .live, 0⟩, ⟨8, 8, .live, 0⟩, ⟨12, 9, .live, 0⟩, ⟨31, 16, .live, 0⟩]⟩,
  /- PHY_GR -/ ⟨0x0C0810, 4, 16, 1, [⟨2, 0, .live, 0⟩, ⟨5, 3, .live, 0⟩, ⟨6, 6, .live, 0⟩, ⟨7, 7, .live, 0⟩, ⟨15, 8, .live, 0⟩, ⟨21, 16, .live, 0⟩]⟩,
  /- PHY_GR_PRBS -/ ⟨0x0C0850, 4, 16, 1, [⟨15, 0, .rc, 0⟩, ⟨31, 16, .rc, 0⟩]⟩,
  /- PHY_GR_TRAIN_CMD -/ ⟨0x0C0890, 4, 1, 1, [⟨3, 0, .wo, 0⟩, ⟨4, 4, .wo, 0⟩]⟩,
  /- PHY_GR_FRAME_ERR -/ ⟨0x0C0894, 4, 1, 1, [⟨7, 0, .rc, 0⟩, ⟨15, 8, .rc, 0⟩, ⟨23, 16, .rc, 0⟩, ⟨31, 24, .rc, 0⟩]⟩]

/-- Registers of block CTRL, chapter 09 (R264-R275). -/
def regsCtrl09 : List RegSpec := [
  /- CTRL_PORT_STATUS -/ ⟨0x0D0000, 4, 1, 1, [⟨0, 0, .live, 0⟩, ⟨1, 1, .live, 0⟩]⟩,
  /- CTRL_MAC -/ ⟨0x0D0008, 4, 1, 2, [⟨31, 0, .ro, 0⟩]⟩,
  /- CTRL_MAC_1 -/ ⟨0x0D000C, 4, 1, 1, [⟨15, 0, .ro, 0⟩]⟩,
  /- CTRL_HOST_MAC -/ ⟨0x0D0010, 4, 1, 2, [⟨31, 0, .rw, 0⟩]⟩,
  /- CTRL_HOST_MAC_1 -/ ⟨0x0D0014, 4, 1, 1, [⟨15, 0, .rw, 0⟩]⟩,
  /- CTRL_RX_DISCARD_COUNT -/ ⟨0x0D0018, 4, 1, 1, [⟨31, 0, .rc, 0⟩]⟩,
  /- CTRL_REQ_ERR_COUNT -/ ⟨0x0D001C, 4, 1, 1, [⟨31, 0, .rc, 0⟩]⟩,
  /- CTRL_MSG_CFG -/ ⟨0x0D0020, 4, 1, 1, [⟨15, 0, .rw, 500⟩, ⟨16, 16, .rw, 0⟩]⟩,
  /- CTRL_MSG_STATUS -/ ⟨0x0D0024, 4, 1, 1, [⟨6, 0, .live, 0⟩, ⟨7, 7, .live, 0⟩, ⟨15, 8, .rc, 0⟩, ⟨31, 16, .live, 0⟩]⟩,
  /- CTRL_SCHED_CYCLE -/ ⟨0x0D0028, 4, 1, 1, [⟨31, 0, .rw, 1000000⟩]⟩,
  /- CTRL_SCHED_PHASE -/ ⟨0x0D002C, 4, 1, 1, [⟨31, 0, .rw, 0⟩]⟩,
  /- CTRL_SCHED_OPEN -/ ⟨0x0D0030, 4, 1, 1, [⟨31, 0, .rw, 1000000⟩]⟩,
  /- CTRL_TIME -/ ⟨0x0D0100, 4, 1, 3, [⟨31, 0, .live, 0⟩]⟩,
  /- CTRL_TIME_1 -/ ⟨0x0D0104, 4, 1, 1, [⟨31, 0, .live, 0⟩]⟩,
  /- CTRL_TIME_2 -/ ⟨0x0D0108, 4, 1, 1, [⟨31, 0, .live, 0⟩]⟩,
  /- CTRL_TIME_INC -/ ⟨0x0D010C, 4, 1, 2, [⟨31, 0, .rw, 0⟩]⟩,
  /- CTRL_TIME_INC_1 -/ ⟨0x0D0110, 4, 1, 1, [⟨7, 0, .rw, 1⟩]⟩,
  /- CTRL_TIME_STEP -/ ⟨0x0D0114, 4, 1, 3, [⟨31, 0, .rw, 0⟩]⟩,
  /- CTRL_TIME_STEP_1 -/ ⟨0x0D0118, 4, 1, 1, [⟨31, 0, .rw, 0⟩]⟩,
  /- CTRL_TIME_STEP_2 -/ ⟨0x0D011C, 4, 1, 1, [⟨31, 0, .rw, 0⟩]⟩,
  /- CTRL_TS_LAT -/ ⟨0x0D0120, 4, 1, 1, [⟨15, 0, .rw, 0⟩, ⟨31, 16, .rw, 0⟩]⟩,
  /- CTRL_PTP_CFG -/ ⟨0x0D0140, 4, 1, 1, [⟨7, 0, .rw, 0⟩, ⟨8, 8, .rw, 0⟩, ⟨9, 9, .rw, 1⟩, ⟨19, 10, .rw, 50⟩, ⟨31, 20, .rw, 1000⟩]⟩,
  /- CTRL_PTP_STATUS -/ ⟨0x0D0144, 4, 1, 1, [⟨2, 0, .live, 0⟩, ⟨3, 3, .live, 0⟩]⟩,
  /- CTRL_PTP_OFFSET -/ ⟨0x0D0148, 4, 1, 1, [⟨31, 0, .ro, 0⟩]⟩,
  /- CTRL_PTP_MPD -/ ⟨0x0D014C, 4, 1, 1, [⟨31, 0, .ro, 0⟩]⟩,
  /- CTRL_PTP_STEP_COUNT -/ ⟨0x0D0150, 4, 1, 1, [⟨31, 0, .rc, 0⟩]⟩]

/-- Registers of block DRAM, chapter 10 (R48-R52, R281-R291). -/
def regsDram10 : List RegSpec := [
  /- DRAM_CTRL -/ ⟨0x0E0000, 4, 1, 1, [⟨0, 0, .rw, 1⟩, ⟨19, 4, .rw, 100⟩, ⟨20, 20, .rw, 1⟩]⟩,
  /- DRAM_STATUS -/ ⟨0x0E0004, 4, 1, 1, [⟨7, 0, .live, 0⟩, ⟨15, 8, .live, 0⟩, ⟨16, 16, .live, 0⟩, ⟨17, 17, .live, 0⟩]⟩,
  /- DRAM_PANIC -/ ⟨0x0E0008, 4, 1, 1, [⟨15, 0, .rw, 512⟩, ⟨31, 16, .rw, 1024⟩]⟩,
  /- DRAM_PANIC_COUNT -/ ⟨0x0E000C, 4, 1, 1, [⟨31, 0, .rc, 0⟩]⟩,
  /- DRAM_BUDGET -/ ⟨0x0E0010, 4, 2, 1, [⟨14, 0, .rw, 5120⟩]⟩,
  /- DRAM_BUDGET_2 -/ ⟨0x0E0018, 4, 1, 1, [⟨14, 0, .rw, 256⟩]⟩,
  /- DRAM_BUDGET_3 -/ ⟨0x0E001C, 4, 1, 1, [⟨14, 0, .rw, 128⟩]⟩,
  /- DRAM_BUDGET_4 -/ ⟨0x0E0020, 4, 2, 1, [⟨14, 0, .rw, 1536⟩]⟩,
  /- DRAM_BUDGET_6 -/ ⟨0x0E0028, 4, 1, 1, [⟨14, 0, .rw, 256⟩]⟩,
  /- DRAM_BUDGET_SUM -/ ⟨0x0E002C, 4, 1, 1, [⟨17, 0, .live, 0⟩, ⟨18, 18, .live, 0⟩]⟩,
  /- DRAM_CLIENT -/ ⟨0x0E0030, 4, 7, 1, [⟨14, 0, .ro, 0⟩, ⟨31, 16, .rc, 0⟩]⟩,
  /- DRAM_SYS_TXN -/ ⟨0x0E004C, 4, 1, 1, [⟨31, 0, .rc, 0⟩]⟩,
  /- DRAM_FILL_BASE -/ ⟨0x0E0050, 4, 1, 1, [⟨18, 0, .rw, 0⟩]⟩,
  /- DRAM_FILL_SIZE -/ ⟨0x0E0054, 4, 1, 1, [⟨18, 0, .rw, 0⟩]⟩,
  /- DRAM_FILL_CTRL -/ ⟨0x0E0058, 4, 1, 1, [⟨1, 0, .wo, 0⟩, ⟨2, 2, .wo, 0⟩, ⟨3, 3, .live, 0⟩]⟩,
  /- DRAM_TRAIN_CTRL -/ ⟨0x0E0100, 4, 1, 1, [⟨1, 0, .rw, 0⟩, ⟨3, 2, .rw, 0⟩, ⟨6, 4, .rw, 0⟩, ⟨7, 7, .wo, 0⟩, ⟨8, 8, .live, 0⟩]⟩,
  /- DRAM_TRAIN_ADDR -/ ⟨0x0E0104, 4, 1, 1, [⟨14, 0, .rw, 0⟩]⟩,
  /- DRAM_TRAIN_LEN -/ ⟨0x0E0108, 4, 1, 1, [⟨14, 0, .rw, 16384⟩]⟩,
  /- DRAM_TRAIN_PAT -/ ⟨0x0E010C, 4, 1, 2, [⟨31, 0, .rw, 0⟩]⟩,
  /- DRAM_TRAIN_PAT_1 -/ ⟨0x0E0110, 4, 1, 1, [⟨31, 0, .rw, 0⟩]⟩,
  /- DRAM_TRAIN_RESULT -/ ⟨0x0E0114, 4, 1, 3, [⟨31, 0, .ro, 0⟩]⟩,
  /- DRAM_TRAIN_RESULT_1 -/ ⟨0x0E0118, 4, 1, 1, [⟨31, 0, .ro, 0⟩]⟩,
  /- DRAM_TRAIN_RESULT_2 -/ ⟨0x0E011C, 4, 1, 1, [⟨7, 0, .ro, 0⟩]⟩,
  /- DRAM_TRAIN_RESULT_3 -/ ⟨0x0E0120, 4, 1, 1, [⟨31, 0, .ro, 0⟩]⟩,
  /- DRAM_DLY -/ ⟨0x0E0200, 4, 288, 1, [⟨6, 0, .rw, 32⟩, ⟨14, 8, .rw, 32⟩, ⟨21, 16, .rw, 32⟩]⟩]

/-- Registers of block ECC, chapter 10 (R293-R304). -/
def regsEcc10 : List RegSpec := [
  /- ECC_CTRL -/ ⟨0x0F0000, 4, 1, 1, [⟨0, 0, .rw, 1⟩, ⟨1, 1, .rw, 1⟩, ⟨2, 2, .rw, 1⟩]⟩,
  /- ECC_CE_COUNT -/ ⟨0x0F0004, 4, 1, 1, [⟨31, 0, .rc, 0⟩]⟩,
  /- ECC_UE_COUNT -/ ⟨0x0F0008, 4, 1, 1, [⟨31, 0, .rc, 0⟩]⟩,
  /- ECC_POISON_COUNT -/ ⟨0x0F000C, 4, 1, 1, [⟨31, 0, .rc, 0⟩]⟩,
  /- ECC_CHKBIT_COUNT -/ ⟨0x0F0010, 4, 1, 1, [⟨31, 0, .rc, 0⟩]⟩,
  /- ECC_CE_EVICT_COUNT -/ ⟨0x0F0014, 4, 1, 1, [⟨31, 0, .rc, 0⟩]⟩,
  /- ECC_UE_LAST -/ ⟨0x0F0018, 4, 1, 3, [⟨3, 0, .ro, 0⟩, ⟨5, 4, .ro, 0⟩, ⟨8, 6, .ro, 0⟩, ⟨9, 9, .ro, 0⟩]⟩,
  /- ECC_UE_LAST_1 -/ ⟨0x0F001C, 4, 1, 1, [⟨31, 0, .ro, 0⟩]⟩,
  /- ECC_UE_LAST_2 -/ ⟨0x0F0020, 4, 1, 1, [⟨2, 0, .ro, 0⟩]⟩,
  /- ECC_SCRUB_STATUS -/ ⟨0x0F0030, 4, 1, 1, [⟨15, 0, .ro, 0⟩, ⟨31, 16, .rc, 0⟩]⟩,
  /- ECC_SCRUB_LAP -/ ⟨0x0F0034, 4, 1, 1, [⟨31, 0, .ro, 0⟩]⟩,
  /- ECC_SCRUB_CFG -/ ⟨0x0F0038, 4, 1, 1, [⟨15, 0, .rw, 60⟩]⟩,
  /- ECC_SRAM_LAP -/ ⟨0x0F003C, 4, 1, 1, [⟨31, 0, .ro, 0⟩]⟩,
  /- ECC_POOL -/ ⟨0x0F0040, 4, 4, 1, [⟨8, 0, .live, 0⟩]⟩,
  /- ECC_RETIRE_CMD -/ ⟨0x0F0050, 4, 1, 1, [⟨22, 0, .wo, 0⟩, ⟨31, 31, .wo, 0⟩]⟩,
  /- ECC_INJECT -/ ⟨0x0F0060, 4, 1, 2, [⟨31, 0, .rw, 0⟩]⟩,
  /- ECC_INJECT_1 -/ ⟨0x0F0064, 4, 1, 1, [⟨2, 0, .rw, 0⟩]⟩,
  /- ECC_INJECT_2 -/ ⟨0x0F0068, 4, 1, 1, [⟨6, 0, .rw, 0⟩, ⟨14, 8, .rw, 0⟩, ⟨16, 16, .rw, 0⟩, ⟨31, 31, .rw, 0⟩]⟩]

/-- Registers of block ILK, chapter 11 (R308-R316). -/
def regsIlk11 : List RegSpec := [
  /- ILK_CTRL -/ ⟨0x100000, 4, 1, 1, [⟨0, 0, .wo, 0⟩, ⟨1, 1, .wo, 0⟩]⟩,
  /- ILK_CFG -/ ⟨0x100004, 4, 1, 1, [⟨5, 0, .rw, 20⟩, ⟨6, 6, .rw, 0⟩, ⟨23, 8, .rw, 10⟩]⟩,
  /- ILK_MASK -/ ⟨0x100008, 4, 1, 1, [⟨7, 0, .rw, 255⟩]⟩,
  /- ILK_POL -/ ⟨0x10000C, 4, 1, 1, [⟨7, 0, .rw, 255⟩]⟩,
  /- ILK_STATUS -/ ⟨0x100010, 4, 1, 1, [⟨7, 0, .live, 0⟩, ⟨15, 8, .live, 0⟩, ⟨16, 16, .live, 0⟩, ⟨17, 17, .live, 0⟩, ⟨18, 18, .live, 0⟩, ⟨19, 19, .live, 0⟩]⟩,
  /- ILK_FIRST -/ ⟨0x100014, 4, 1, 3, [⟨3, 0, .ro, 10⟩, ⟨6, 4, .ro, 0⟩, ⟨7, 7, .ro, 1⟩]⟩,
  /- ILK_FIRST_1 -/ ⟨0x100018, 4, 1, 1, [⟨31, 0, .ro, 0⟩]⟩,
  /- ILK_FIRST_2 -/ ⟨0x10001C, 4, 1, 1, [⟨31, 0, .ro, 0⟩]⟩,
  /- ILK_DROP_COUNT_LO -/ ⟨0x100020, 4, 1, 1, [⟨7, 0, .rc, 0⟩, ⟨15, 8, .rc, 0⟩, ⟨23, 16, .rc, 0⟩, ⟨31, 24, .rc, 0⟩]⟩,
  /- ILK_DROP_COUNT_HI -/ ⟨0x100024, 4, 1, 1, [⟨7, 0, .rc, 0⟩, ⟨15, 8, .rc, 0⟩, ⟨23, 16, .rc, 0⟩, ⟨31, 24, .rc, 0⟩]⟩,
  /- ILK_GATE_COUNT -/ ⟨0x100028, 4, 1, 1, [⟨31, 0, .rc, 0⟩]⟩]

/-- Registers of block EVT, chapter 12 (R320-R335). -/
def regsEvt12 : List RegSpec := [
  /- EVT_CTRL -/ ⟨0x110000, 4, 1, 1, [⟨2, 0, .rw, 2⟩, ⟨31, 16, .rw, 100⟩]⟩,
  /- EVT_SET -/ ⟨0x110100, 4, 8, 1, [⟨31, 0, .live, 0⟩]⟩,
  /- EVT_CLR -/ ⟨0x110120, 4, 8, 1, [⟨31, 0, .live, 0⟩]⟩,
  /- EVT_EN -/ ⟨0x110140, 4, 8, 1, [⟨31, 0, .rw, 0⟩]⟩,
  /- EVT_COUNT -/ ⟨0x110200, 4, 64, 1, [⟨31, 0, .live, 0⟩]⟩,
  /- EVT_CFG -/ ⟨0x110400, 4, 256, 1, [⟨3, 0, .rw, 0⟩, ⟨6, 4, .rw, 0⟩, ⟨7, 7, .rw, 0⟩, ⟨8, 8, .live, 0⟩, ⟨9, 9, .live, 0⟩]⟩,
  /- EVT_CORE_CTRL -/ ⟨0x110800, 64, 2, 1, [⟨0, 0, .rw, 0⟩, ⟨1, 1, .live, 0⟩, ⟨31, 16, .rw, 0⟩]⟩,
  /- EVT_ACK -/ ⟨0x110804, 64, 2, 1, [⟨9, 0, .live, 0⟩, ⟨17, 10, .live, 0⟩]⟩,
  /- EVT_EOI -/ ⟨0x110808, 64, 2, 1, [⟨9, 0, .wo, 0⟩]⟩,
  /- EVT_SCAN -/ ⟨0x11080C, 64, 2, 1, [⟨9, 0, .live, 0⟩, ⟨17, 10, .live, 0⟩]⟩,
  /- EVT_SLEEP -/ ⟨0x110810, 64, 2, 1, [⟨0, 0, .wo, 0⟩, ⟨2, 1, .live, 0⟩]⟩,
  /- EVT_STACK -/ ⟨0x110814, 64, 2, 1, [⟨4, 0, .live, 0⟩, ⟨14, 5, .live, 0⟩, ⟨18, 15, .live, 0⟩]⟩,
  /- EVT_FAULT -/ ⟨0x110900, 4, 1, 2, [⟨0, 0, .ro, 0⟩, ⟨10, 1, .ro, 0⟩, ⟨20, 11, .ro, 0⟩]⟩,
  /- EVT_FAULT_1 -/ ⟨0x110904, 4, 1, 1, [⟨31, 0, .rc, 0⟩]⟩,
  /- EVT_HOST_STATUS -/ ⟨0x110910, 4, 1, 1, [⟨7, 0, .ro, 0⟩, ⟨15, 8, .live, 0⟩, ⟨31, 16, .rc, 0⟩]⟩]

/-- Registers of block CFG, chapter 13 (R341-R362). -/
def regsCfg13 : List RegSpec := [
  /- CFG_STATUS -/ ⟨0x010000, 4, 1, 1, [⟨2, 0, .live, 0⟩, ⟨3, 3, .live, 0⟩, ⟨4, 4, .live, 0⟩, ⟨5, 5, .live, 0⟩, ⟨6, 6, .live, 0⟩, ⟨15, 7, .live, 0⟩, ⟨31, 16, .live, 0⟩]⟩,
  /- CFG_BOOT_SEL -/ ⟨0x010004, 4, 1, 1, [⟨1, 0, .rw, 0⟩]⟩,
  /- CFG_BOOT_OK -/ ⟨0x010008, 4, 1, 1, [⟨0, 0, .wo, 0⟩]⟩,
  /- CFG_RESET -/ ⟨0x01000C, 4, 1, 1, [⟨0, 0, .wo, 0⟩]⟩,
  /- CFG_SERIAL -/ ⟨0x010010, 4, 1, 2, [⟨31, 0, .live, 0⟩]⟩,
  /- CFG_SERIAL_1 -/ ⟨0x010014, 4, 1, 1, [⟨31, 0, .live, 0⟩]⟩,
  /- CFG_IMAGE_A -/ ⟨0x010020, 4, 1, 2, [⟨31, 0, .live, 0⟩]⟩,
  /- CFG_IMAGE_A_1 -/ ⟨0x010024, 4, 1, 1, [⟨0, 0, .live, 0⟩, ⟨4, 1, .live, 0⟩]⟩,
  /- CFG_IMAGE_B -/ ⟨0x010028, 4, 1, 2, [⟨31, 0, .live, 0⟩]⟩,
  /- CFG_IMAGE_B_1 -/ ⟨0x01002C, 4, 1, 1, [⟨0, 0, .live, 0⟩, ⟨4, 1, .live, 0⟩]⟩,
  /- CFG_SWAP_CTRL -/ ⟨0x010100, 4, 1, 1, [⟨0, 0, .wo, 0⟩, ⟨1, 1, .wo, 0⟩, ⟨2, 2, .rw, 0⟩]⟩,
  /- CFG_SWAP_SLOT -/ ⟨0x010104, 4, 1, 2, [⟨31, 0, .rw, 0⟩]⟩,
  /- CFG_SWAP_SLOT_1 -/ ⟨0x010108, 4, 1, 1, [⟨15, 0, .rw, 0⟩]⟩,
  /- CFG_SWAP_STATUS -/ ⟨0x01010C, 4, 1, 1, [⟨1, 0, .live, 0⟩, ⟨4, 2, .ro, 0⟩, ⟨11, 5, .ro, 0⟩, ⟨31, 16, .ro, 0⟩]⟩,
  /- CFG_SWAP_LAST -/ ⟨0x010110, 4, 1, 2, [⟨31, 0, .ro, 0⟩]⟩,
  /- CFG_SWAP_LAST_1 -/ ⟨0x010114, 4, 1, 1, [⟨15, 0, .ro, 0⟩]⟩,
  /- CFG_MEAS -/ ⟨0x010200, 4, 1, 8, [⟨31, 0, .live, 0⟩]⟩,
  /- CFG_MEAS_1 -/ ⟨0x010204, 4, 7, 1, [⟨31, 0, .live, 0⟩]⟩,
  /- CFG_LOCK_STATUS -/ ⟨0x010300, 4, 1, 1, [⟨1, 0, .live, 0⟩, ⟨5, 2, .live, 0⟩, ⟨6, 6, .live, 0⟩, ⟨7, 7, .live, 0⟩, ⟨24, 8, .live, 0⟩]⟩,
  /- CFG_MAINT_CMD -/ ⟨0x010304, 4, 1, 1, [⟨1, 0, .wo, 0⟩]⟩,
  /- CFG_MAINT_DUR -/ ⟨0x010308, 4, 1, 1, [⟨16, 0, .rw, 0⟩]⟩,
  /- CFG_MAINT_CHAL -/ ⟨0x010320, 4, 1, 8, [⟨31, 0, .live, 0⟩]⟩,
  /- CFG_MAINT_CHAL_1 -/ ⟨0x010324, 4, 7, 1, [⟨31, 0, .live, 0⟩]⟩,
  /- CFG_MAINT_RESP -/ ⟨0x010340, 4, 16, 1, [⟨31, 0, .rw, 0⟩]⟩,
  /- CFG_MC_CTRL -/ ⟨0x010400, 4, 2, 1, [⟨0, 0, .wo, 0⟩, ⟨1, 1, .wo, 0⟩, ⟨2, 2, .rw, 1⟩, ⟨4, 3, .live, 0⟩, ⟨6, 5, .live, 0⟩, ⟨31, 16, .rw, 100⟩]⟩,
  /- CFG_FLASH_CMD -/ ⟨0x010500, 4, 1, 1, [⟨1, 0, .wo, 0⟩, ⟨2, 2, .wo, 0⟩]⟩,
  /- CFG_FLASH_ADDR -/ ⟨0x010504, 4, 1, 1, [⟨25, 0, .rw, 0⟩]⟩,
  /- CFG_FLASH_STATUS -/ ⟨0x010508, 4, 1, 1, [⟨0, 0, .live, 0⟩, ⟨1, 1, .live, 0⟩]⟩,
  /- CFG_JLOG_STATUS -/ ⟨0x010600, 4, 1, 1, [⟨8, 0, .live, 0⟩, ⟨16, 9, .live, 0⟩, ⟨31, 17, .rc, 0⟩]⟩,
  /- CFG_JLOG_RD_IDX -/ ⟨0x010604, 4, 1, 1, [⟨7, 0, .live, 0⟩, ⟨8, 8, .wo, 0⟩]⟩,
  /- CFG_FLASH_BUF -/ ⟨0x010800, 4, 64, 1, [⟨31, 0, .rw, 0⟩]⟩]

/-- Registers of block CHK, chapter 13 (R350, R351). -/
def regsChk13 : List RegSpec := [
  /- CHK_CTRL -/ ⟨0x120000, 64, 4, 1, [⟨1, 0, .rw, 0⟩, ⟨2, 2, .wo, 0⟩, ⟨3, 3, .wo, 0⟩, ⟨4, 4, .wo, 0⟩, ⟨6, 5, .live, 0⟩, ⟨7, 7, .live, 0⟩, ⟨8, 8, .live, 0⟩]⟩,
  /- CHK_DATA -/ ⟨0x120004, 64, 4, 1, [⟨31, 0, .wo, 0⟩]⟩,
  /- CHK_DATA_B -/ ⟨0x120008, 64, 4, 1, [⟨7, 0, .wo, 0⟩]⟩,
  /- CHK_RESULT -/ ⟨0x12000C, 64, 4, 1, [⟨31, 0, .live, 0⟩]⟩,
  /- CHK_RANGE -/ ⟨0x120010, 64, 4, 2, [⟨31, 0, .rw, 0⟩]⟩,
  /- CHK_RANGE_1 -/ ⟨0x120014, 64, 4, 1, [⟨2, 0, .rw, 0⟩]⟩,
  /- CHK_RANGE_2 -/ ⟨0x120018, 64, 4, 1, [⟨30, 0, .rw, 0⟩, ⟨31, 31, .wo, 0⟩]⟩]

/-- Registers of block HERD, chapter 14 (R363-R384). -/
def regsHerd14 : List RegSpec := [
  /- HERD_STATUS -/ ⟨0x130000, 4, 1, 1, [⟨2, 0, .live, 0⟩, ⟨5, 3, .live, 0⟩, ⟨8, 6, .live, 0⟩, ⟨9, 9, .live, 0⟩, ⟨10, 10, .live, 0⟩, ⟨14, 11, .live, 0⟩]⟩,
  /- HERD_CFG -/ ⟨0x130004, 4, 1, 1, [⟨7, 0, .live, 0⟩, ⟨15, 8, .live, 0⟩, ⟨16, 16, .live, 0⟩, ⟨26, 17, .live, 0⟩]⟩,
  /- HERD_MEMBER -/ ⟨0x130020, 4, 8, 1, [⟨31, 0, .live, 0⟩]⟩,
  /- HERD_DELAY -/ ⟨0x130040, 4, 8, 1, [⟨9, 0, .live, 0⟩, ⟨19, 10, .live, 0⟩]⟩,
  /- HERD_LINK_ERR -/ ⟨0x130060, 4, 1, 1, [⟨15, 0, .rc, 0⟩, ⟨31, 16, .rc, 0⟩]⟩,
  /- HERD_LOST_COUNT -/ ⟨0x130064, 4, 1, 1, [⟨31, 0, .rc, 0⟩]⟩,
  /- HERD_MEAS -/ ⟨0x130100, 4, 1, 8, [⟨31, 0, .live, 0⟩]⟩,
  /- HERD_MEAS_1 -/ ⟨0x130104, 4, 7, 1, [⟨31, 0, .live, 0⟩]⟩]

/-- Registers of block CAL, chapter 15 (R387-R402). -/
def regsCal15 : List RegSpec := [
  /- CAL_CTRL -/ ⟨0x140000, 4, 1, 1, [⟨0, 0, .rw, 0⟩, ⟨1, 1, .rw, 0⟩, ⟨2, 2, .rw, 0⟩, ⟨3, 3, .wo, 0⟩, ⟨4, 4, .wo, 0⟩, ⟨5, 5, .wo, 0⟩]⟩,
  /- CAL_STATUS -/ ⟨0x140004, 4, 1, 1, [⟨2, 0, .live, 0⟩, ⟨3, 3, .w1c, 0⟩, ⟨9, 4, .live, 0⟩, ⟨12, 10, .live, 0⟩, ⟨13, 13, .live, 0⟩, ⟨31, 16, .rc, 0⟩]⟩,
  /- CAL_ADC -/ ⟨0x140008, 4, 1, 1, [⟨1, 0, .rw, 1⟩]⟩,
  /- CAL_BURST -/ ⟨0x14000C, 4, 1, 1, [⟨11, 0, .rw, 1000⟩, ⟨17, 12, .rw, 16⟩, ⟨23, 18, .rw, 56⟩, ⟨27, 24, .rw, 10⟩]⟩,
  /- CAL_STEP -/ ⟨0x140010, 4, 1, 1, [⟨10, 0, .rw, 0⟩, ⟨11, 11, .rw, 0⟩, ⟨14, 12, .rw, 0⟩]⟩,
  /- CAL_STEP_MASK -/ ⟨0x140014, 4, 1, 2, [⟨31, 0, .rw, 0⟩]⟩,
  /- CAL_STEP_MASK_1 -/ ⟨0x140018, 4, 1, 1, [⟨31, 0, .rw, 0⟩]⟩,
  /- CAL_TARGET -/ ⟨0x140020, 4, 1, 1, [⟨31, 0, .rw, 4600000⟩]⟩,
  /- CAL_GAIN_REF -/ ⟨0x140024, 4, 1, 1, [⟨7, 0, .rw, 205⟩]⟩,
  /- CAL_REF_FA -/ ⟨0x140028, 4, 1, 1, [⟨31, 0, .rws, 500000⟩]⟩,
  /- CAL_REF_ID -/ ⟨0x14002C, 4, 1, 1, [⟨31, 0, .rws, 0⟩]⟩,
  /- CAL_LIMITS -/ ⟨0x140030, 4, 1, 1, [⟨15, 0, .rw, 2000⟩, ⟨23, 16, .rw, 24⟩, ⟨31, 24, .rw, 50⟩]⟩,
  /- CAL_DEAD_FA -/ ⟨0x140034, 4, 1, 1, [⟨31, 0, .rw, 50000⟩]⟩,
  /- CAL_BG_REF -/ ⟨0x140038, 4, 1, 1, [⟨31, 0, .rw, 0⟩]⟩,
  /- CAL_CHAIN -/ ⟨0x140040, 4, 1, 1, [⟨31, 0, .live, 0⟩]⟩,
  /- CAL_CHAIN_STATUS -/ ⟨0x140044, 4, 1, 1, [⟨15, 0, .live, 0⟩, ⟨23, 16, .live, 0⟩, ⟨24, 24, .live, 0⟩, ⟨25, 25, .live, 0⟩]⟩,
  /- CAL_DISCARD_COUNT -/ ⟨0x140048, 4, 1, 1, [⟨31, 0, .rc, 0⟩]⟩,
  /- CAL_CELL_RESULT -/ ⟨0x140050, 4, 1, 1, [⟨31, 0, .ro, 0⟩]⟩,
  /- CAL_CELL_RESULT_1 -/ ⟨0x140054, 4, 1, 1, [⟨15, 0, .ro, 0⟩]⟩,
  /- CAL_CAP_BASE -/ ⟨0x140058, 4, 1, 1, [⟨18, 0, .rw, 0⟩]⟩,
  /- CAL_CAP_SIZE -/ ⟨0x14005C, 4, 1, 1, [⟨18, 0, .rw, 0⟩]⟩,
  /- CAL_LANE_CTRL -/ ⟨0x140100, 4, 1, 1, [⟨0, 0, .rw, 0⟩, ⟨1, 1, .rw, 0⟩, ⟨15, 8, .rw, 1⟩]⟩,
  /- CAL_LANE_MARGIN -/ ⟨0x140104, 4, 1, 1, [⟨7, 0, .rw, 10⟩, ⟨13, 8, .rw, 4⟩]⟩,
  /- CAL_LANE_STATUS -/ ⟨0x140108, 4, 1, 1, [⟨6, 0, .live, 0⟩, ⟨7, 7, .live, 0⟩, ⟨9, 8, .live, 0⟩]⟩,
  /- CAL_LANE -/ ⟨0x140200, 4, 68, 1, [⟨7, 0, .ro, 0⟩, ⟨13, 8, .ro, 0⟩, ⟨14, 14, .w1c, 0⟩, ⟨31, 16, .live, 0⟩]⟩,
  /- CAL_RESULT -/ ⟨0x141000, 16, 64, 1, [⟨7, 0, .ro, 0⟩, ⟨10, 8, .ro, 0⟩, ⟨14, 11, .ro, 5⟩, ⟨15, 15, .ro, 0⟩, ⟨31, 16, .ro, 0⟩]⟩,
  /- CAL_RESULT_1 -/ ⟨0x141004, 16, 64, 1, [⟨31, 0, .ro, 0⟩]⟩,
  /- CAL_RESULT_2 -/ ⟨0x141008, 16, 64, 1, [⟨31, 0, .ro, 0⟩]⟩,
  /- CAL_RESULT_3 -/ ⟨0x14100C, 16, 64, 1, [⟨31, 0, .ro, 0⟩]⟩]

/-- Registers of block PWR, chapter 17 (R418-R430). -/
def regsPwr17 : List RegSpec := [
  /- PWR_STATUS -/ ⟨0x150000, 4, 1, 1, [⟨0, 0, .live, 0⟩, ⟨1, 1, .live, 0⟩, ⟨2, 2, .live, 0⟩, ⟨3, 3, .live, 0⟩, ⟨4, 4, .live, 0⟩, ⟨5, 5, .w1c, 0⟩]⟩,
  /- PWR_VIN -/ ⟨0x150004, 4, 1, 1, [⟨15, 0, .ro, 0⟩, ⟨31, 16, .ro, 0⟩]⟩,
  /- PWR_POWER -/ ⟨0x150008, 4, 1, 1, [⟨15, 0, .ro, 0⟩, ⟨31, 16, .rc, 0⟩]⟩,
  /- PWR_TEMP_DIE -/ ⟨0x15000C, 4, 1, 1, [⟨10, 0, .ro, 0⟩, ⟨15, 11, .ro, 0⟩, ⟨26, 16, .rc, 0⟩]⟩,
  /- PWR_TEMP_BASE -/ ⟨0x150010, 4, 1, 1, [⟨10, 0, .ro, 0⟩, ⟨26, 16, .ro, 0⟩]⟩,
  /- PWR_THERM_CFG -/ ⟨0x150014, 4, 1, 1, [⟨7, 0, .rw, 145⟩, ⟨25, 16, .rw, 470⟩]⟩,
  /- PWR_LAST_RESET -/ ⟨0x150018, 4, 1, 2, [⟨3, 0, .ro, 0⟩, ⟨31, 16, .ro, 0⟩]⟩,
  /- PWR_LAST_RESET_1 -/ ⟨0x15001C, 4, 1, 1, [⟨31, 0, .ro, 0⟩]⟩,
  /- PWR_FAULT_COUNT -/ ⟨0x150020, 4, 1, 1, [⟨15, 0, .rc, 0⟩, ⟨31, 16, .rc, 0⟩]⟩]

/-- Every register of the block windows. -/
def regTable : List RegSpec :=
  regsSys00 ++ regsSys01 ++ regsSys01b ++ regsEvl01 ++ regsGrist02 ++ regsMash02 ++ regsKiln03 ++ regsTaste03 ++ regsMap04 ++ regsCask05 ++ regsSlot06 ++ regsDefl07 ++ regsAxis07 ++ regsBlnk08 ++ regsPhy08 ++ regsPhy09 ++ regsCtrl09 ++ regsDram10 ++ regsEcc10 ++ regsIlk11 ++ regsEvt12 ++ regsCfg13 ++ regsChk13 ++ regsHerd14 ++ regsCal15 ++ regsPwr17

namespace F

def SYS_ID_vendor_code : Fld := ⟨0x000000, 4, 31, 20⟩
def SYS_ID_part_code : Fld := ⟨0x000000, 4, 19, 4⟩
def SYS_ID_stepping : Fld := ⟨0x000000, 4, 3, 0⟩
def SYS_VARIANT_die_pos : Fld := ⟨0x000004, 4, 0, 0⟩
def SYS_VARIANT_pair_present : Fld := ⟨0x000004, 4, 1, 1⟩
def SYS_VARIANT_module_id : Fld := ⟨0x000004, 4, 6, 4⟩
def SYS_VARIANT_beam_count_k : Fld := ⟨0x000004, 4, 23, 8⟩
def SYS_EVUNE_STATUS_link_state : Fld := ⟨0x000010, 4, 1, 0⟩
def SYS_EVUNE_STATUS_tx_lane_ok : Fld := ⟨0x000010, 4, 9, 2⟩
def SYS_EVUNE_STATUS_rx_lane_ok : Fld := ⟨0x000010, 4, 17, 10⟩
def SYS_EVUNE_STATUS_latency_ns : Fld := ⟨0x000010, 4, 29, 18⟩
def SYS_EVUNE_STATUS_link_lost : Fld := ⟨0x000010, 4, 30, 30⟩
def SYS_UNIT_CELL_enable : Fld := ⟨0x004000, 4, 0, 0⟩
def SYS_UNIT_CELL_state : Fld := ⟨0x004000, 4, 3, 1⟩
def SYS_UNIT_CELL_defect_count : Fld := ⟨0x004000, 4, 29, 8⟩
def SYS_UNIT_CELL_span_pending : Fld := ⟨0x004000, 4, 30, 30⟩
def SYS_UNIT_CELL_fault : Fld := ⟨0x004000, 4, 31, 31⟩
def SYS_UNIT_FIELD_enable : Fld := ⟨0x006000, 4, 0, 0⟩
def SYS_UNIT_FIELD_state : Fld := ⟨0x006000, 4, 3, 1⟩
def SYS_UNIT_FIELD_defect_count : Fld := ⟨0x006000, 4, 29, 8⟩
def SYS_UNIT_FIELD_span_pending : Fld := ⟨0x006000, 4, 30, 30⟩
def SYS_UNIT_FIELD_fault : Fld := ⟨0x006000, 4, 31, 31⟩
def SYS_UNIT_HALF_enable : Fld := ⟨0x006080, 4, 0, 0⟩
def SYS_UNIT_HALF_state : Fld := ⟨0x006080, 4, 3, 1⟩
def SYS_UNIT_HALF_defect_count : Fld := ⟨0x006080, 4, 29, 8⟩
def SYS_UNIT_HALF_span_pending : Fld := ⟨0x006080, 4, 30, 30⟩
def SYS_UNIT_HALF_fault : Fld := ⟨0x006080, 4, 31, 31⟩
def SYS_UNIT_MODULE_enable : Fld := ⟨0x006084, 4, 0, 0⟩
def SYS_UNIT_MODULE_state : Fld := ⟨0x006084, 4, 3, 1⟩
def SYS_UNIT_MODULE_defect_count : Fld := ⟨0x006084, 4, 29, 8⟩
def SYS_UNIT_MODULE_span_pending : Fld := ⟨0x006084, 4, 30, 30⟩
def SYS_UNIT_MODULE_fault : Fld := ⟨0x006084, 4, 31, 31⟩
def SYS_UNIT_HERD_enable : Fld := ⟨0x006088, 4, 0, 0⟩
def SYS_UNIT_HERD_state : Fld := ⟨0x006088, 4, 3, 1⟩
def SYS_UNIT_HERD_defect_count : Fld := ⟨0x006088, 4, 29, 8⟩
def SYS_UNIT_HERD_span_pending : Fld := ⟨0x006088, 4, 30, 30⟩
def SYS_UNIT_HERD_fault : Fld := ⟨0x006088, 4, 31, 31⟩
def EVL_CTRL_halt_on_overflow : Fld := ⟨0x160000, 4, 0, 0⟩
def EVL_CTRL_clear_overflow : Fld := ⟨0x160000, 4, 1, 1⟩
def EVL_STATUS_valid_count : Fld := ⟨0x160004, 4, 10, 0⟩
def EVL_STATUS_wr_idx : Fld := ⟨0x160004, 4, 25, 16⟩
def EVL_STATUS_full : Fld := ⟨0x160004, 4, 26, 26⟩
def EVL_STATUS_overflowed : Fld := ⟨0x160004, 4, 27, 27⟩
def EVL_STATUS_open_entry : Fld := ⟨0x160004, 4, 28, 28⟩
def EVL_RD_IDX_rd_idx : Fld := ⟨0x160008, 4, 9, 0⟩
def EVL_RD_IDX_full_lap : Fld := ⟨0x160008, 4, 16, 16⟩
def EVL_OVF_COUNT_lost_spans : Fld := ⟨0x16000C, 4, 31, 0⟩
def EVL_OVF_FIRST_JOB_job_id : Fld := ⟨0x160010, 4, 31, 0⟩
def EVL_OVF_LAST_JOB_job_id : Fld := ⟨0x160014, 4, 31, 0⟩
def EVL_OVF_FIRST_STRIPE_stripe_id : Fld := ⟨0x160018, 4, 23, 0⟩
def EVL_OVF_LAST_STRIPE_stripe_id : Fld := ⟨0x16001C, 4, 23, 0⟩
def EVL_OVF_FIRST_V_v : Fld := ⟨0x160020, 4, 31, 0⟩
def EVL_OVF_LAST_V_v : Fld := ⟨0x160024, 4, 31, 0⟩
def GRIST_CTRL_enable : Fld := ⟨0x020000, 4, 0, 0⟩
def GRIST_CTRL_flush : Fld := ⟨0x020000, 4, 1, 1⟩
def GRIST_RX_BASE_base_64k : Fld := ⟨0x020004, 4, 18, 0⟩
def GRIST_RX_SIZE_size_64k : Fld := ⟨0x020008, 4, 18, 0⟩
def GRIST_LEAD_deadline_lead : Fld := ⟨0x02000C, 4, 19, 0⟩
def GRIST_RESEND_MIN_resend_min : Fld := ⟨0x020010, 4, 19, 0⟩
def GRIST_STATUS_blocks_held : Fld := ⟨0x020014, 4, 8, 0⟩
def GRIST_STATUS_stripes_held : Fld := ⟨0x020014, 4, 10, 9⟩
def GRIST_STATUS_job_open : Fld := ⟨0x020014, 4, 11, 11⟩
def GRIST_STATUS_job_closing : Fld := ⟨0x020014, 4, 12, 12⟩
def GRIST_STATUS_granules_used_64k : Fld := ⟨0x020014, 4, 31, 13⟩
def GRIST_JOB_job_id : Fld := ⟨0x020018, 4, 31, 0⟩
def GRIST_CREDIT_granules_granted : Fld := ⟨0x02001C, 4, 31, 0⟩
def GRIST_DESC_CREDIT_descs_granted : Fld := ⟨0x020020, 4, 31, 0⟩
def GRIST_NACK_COUNT_nacks : Fld := ⟨0x020024, 4, 31, 0⟩
def GRIST_LAST_NACK_reason : Fld := ⟨0x020028, 4, 7, 0⟩
def GRIST_LAST_NACK_stripe_id : Fld := ⟨0x020028, 4, 31, 8⟩
def GRIST_LAST_NACK_1_block_seq : Fld := ⟨0x02002C, 4, 31, 0⟩
def GRIST_LAST_NACK_2_job_id : Fld := ⟨0x020030, 4, 31, 0⟩
def GRIST_GRANULES_USED_granules_used : Fld := ⟨0x020034, 4, 22, 0⟩
def MASH_STATUS_verify_busy : Fld := ⟨0x030000, 4, 0, 0⟩
def MASH_STATUS_feed_busy : Fld := ⟨0x030000, 4, 1, 1⟩
def MASH_STATUS_verify_waiting : Fld := ⟨0x030000, 4, 10, 2⟩
def MASH_STATUS_feed_waiting : Fld := ⟨0x030000, 4, 19, 11⟩
def MASH_CRC_ERR_COUNT_crc_errors : Fld := ⟨0x030004, 4, 31, 0⟩
def MASH_DECODE_ERR_COUNT_decode_errors : Fld := ⟨0x030008, 4, 31, 0⟩
def MASH_FEED_MISMATCH_COUNT_feed_mismatches : Fld := ⟨0x03000C, 4, 31, 0⟩
def MASH_LAST_ERR_sub_code : Fld := ⟨0x030010, 4, 3, 0⟩
def MASH_LAST_ERR_byte_offset : Fld := ⟨0x030010, 4, 26, 4⟩
def MASH_LAST_ERR_feed : Fld := ⟨0x030010, 4, 27, 27⟩
def KILN_CTRL_dens_en : Fld := ⟨0x040000, 4, 0, 0⟩
def KILN_CTRL_dens_tile : Fld := ⟨0x040000, 4, 2, 1⟩
def KILN_STATUS_engines_active : Fld := ⟨0x040004, 4, 5, 0⟩
def KILN_STATUS_below_min : Fld := ⟨0x040004, 4, 6, 6⟩
def KILN_STATUS_store_full : Fld := ⟨0x040004, 4, 7, 7⟩
def KILN_STATUS_swap_wait : Fld := ⟨0x040004, 4, 8, 8⟩
def KILN_STATUS_store_used : Fld := ⟨0x040004, 4, 27, 9⟩
def KILN_ENGINE_EN_engine_en : Fld := ⟨0x040008, 4, 31, 0⟩
def KILN_ENGINE_RETIRED_retired : Fld := ⟨0x04000C, 4, 31, 0⟩
def KILN_SAT_COUNT_saturated : Fld := ⟨0x040010, 4, 31, 0⟩
def KILN_FIG_ERR_COUNT_fig_errors : Fld := ⟨0x040014, 4, 31, 0⟩
def KILN_FIG_ERR_kind : Fld := ⟨0x040018, 4, 3, 0⟩
def KILN_FIG_ERR_released : Fld := ⟨0x040018, 4, 4, 4⟩
def KILN_FIG_ERR_word_offset : Fld := ⟨0x040018, 4, 28, 5⟩
def KILN_FIG_ERR_1_block_seq : Fld := ⟨0x04001C, 4, 31, 0⟩
def KILN_FIG_ERR_2_stripe_id : Fld := ⟨0x040020, 4, 23, 0⟩
def KILN_FIG_ERR_3_row_first : Fld := ⟨0x040024, 4, 31, 0⟩
def KILN_FIG_ERR_4_row_last : Fld := ⟨0x040028, 4, 31, 0⟩
def KILN_KERN_U_coef : Fld := ⟨0x040040, 4, 12, 0⟩
def KILN_KERN_U_8_coef : Fld := ⟨0x040060, 4, 12, 0⟩
def KILN_KERN_U_9_coef : Fld := ⟨0x040064, 4, 12, 0⟩
def KILN_KERN_V_coef : Fld := ⟨0x0400A0, 4, 12, 0⟩
def KILN_KERN_V_8_coef : Fld := ⟨0x0400C0, 4, 12, 0⟩
def KILN_KERN_V_9_coef : Fld := ⟨0x0400C4, 4, 12, 0⟩
def KILN_CLASS_shift_en : Fld := ⟨0x040100, 4, 0, 0⟩
def KILN_CLASS_dens_contrib : Fld := ⟨0x040100, 4, 1, 1⟩
def KILN_CLASS_dens_apply : Fld := ⟨0x040100, 4, 2, 2⟩
def TASTE_CTRL_seed : Fld := ⟨0x050000, 4, 5, 0⟩
def TASTE_STATUS_suspect : Fld := ⟨0x050004, 4, 0, 0⟩
def TASTE_SAMPLE_COUNT_count : Fld := ⟨0x050008, 4, 31, 0⟩
def TASTE_MISMATCH_COUNT_count : Fld := ⟨0x05000C, 4, 31, 0⟩
def TASTE_LAST_MISMATCH_engine : Fld := ⟨0x050010, 4, 4, 0⟩
def TASTE_LAST_MISMATCH_tx : Fld := ⟨0x050010, 4, 16, 8⟩
def TASTE_LAST_MISMATCH_1_stripe_id : Fld := ⟨0x050014, 4, 23, 0⟩
def TASTE_LAST_MISMATCH_2_ty : Fld := ⟨0x050018, 4, 31, 0⟩
def TASTE_SEAM_MISMATCH_COUNT_count : Fld := ⟨0x05001C, 4, 31, 0⟩
def TASTE_DENS_MISMATCH_COUNT_count : Fld := ⟨0x050020, 4, 31, 0⟩
def TASTE_ENGINE_MISS_misses : Fld := ⟨0x050040, 4, 6, 0⟩
def MAP_GEOM_pass_log2 : Fld := ⟨0x060000, 4, 2, 0⟩
def MAP_GEOM_sx_log2 : Fld := ⟨0x060000, 4, 6, 4⟩
def MAP_GEOM_sy_log2 : Fld := ⟨0x060000, 4, 10, 8⟩
def MAP_WINDOW_window_ns : Fld := ⟨0x060004, 4, 7, 0⟩
def MAP_COMP_tol : Fld := ⟨0x060008, 4, 7, 0⟩
def MAP_COMP_comp_en : Fld := ⟨0x060008, 4, 8, 8⟩
def MAP_TABLE_VIEW_active : Fld := ⟨0x06000C, 4, 0, 0⟩
def MAP_CHECK_busy : Fld := ⟨0x060010, 4, 0, 0⟩
def MAP_CHECK_passed : Fld := ⟨0x060010, 4, 1, 1⟩
def MAP_CHECK_fail_kind : Fld := ⟨0x060010, 4, 5, 2⟩
def MAP_CHECK_fail_index : Fld := ⟨0x060010, 4, 24, 8⟩
def MAP_VIEW_SUMMARY_closed_beams : Fld := ⟨0x060014, 4, 17, 0⟩
def MAP_VIEW_SUMMARY_open_beams : Fld := ⟨0x060014, 4, 28, 18⟩
def MAP_BIND_stripe_id : Fld := ⟨0x060018, 4, 23, 0⟩
def MAP_BIND_exposing : Fld := ⟨0x060018, 4, 24, 24⟩
def MAP_UNCOMP_COUNT_pixels : Fld := ⟨0x06001C, 4, 31, 0⟩
def MAP_CAPPED_COUNT_codes : Fld := ⟨0x060020, 4, 31, 0⟩
def CASK_CTRL_enable : Fld := ⟨0x070000, 4, 0, 0⟩
def CASK_CTRL_effort : Fld := ⟨0x070000, 4, 3, 1⟩
def CASK_BASE_base_64k : Fld := ⟨0x070004, 4, 18, 0⟩
def CASK_SIZE_size_64k : Fld := ⟨0x070008, 4, 18, 0⟩
def CASK_STATUS_storing : Fld := ⟨0x07000C, 4, 0, 0⟩
def CASK_STATUS_playing : Fld := ⟨0x07000C, 4, 1, 1⟩
def CASK_STATUS_store_entry : Fld := ⟨0x07000C, 4, 7, 2⟩
def CASK_STATUS_play_entry : Fld := ⟨0x07000C, 4, 13, 8⟩
def CASK_STATUS_entries_used : Fld := ⟨0x07000C, 4, 20, 14⟩
def CASK_SPACE_granules_free : Fld := ⟨0x070010, 4, 22, 0⟩
def CASK_CMD_entry : Fld := ⟨0x070014, 4, 5, 0⟩
def CASK_CMD_op : Fld := ⟨0x070014, 4, 9, 8⟩
def CASK_PLAY_stripe_id : Fld := ⟨0x070020, 4, 23, 0⟩
def CASK_PLAY_entry : Fld := ⟨0x070020, 4, 29, 24⟩
def CASK_PLAY_armed : Fld := ⟨0x070020, 4, 31, 31⟩
def CASK_STORE_FAIL_COUNT_count : Fld := ⟨0x070030, 4, 31, 0⟩
def CASK_PLAY_ERR_COUNT_count : Fld := ⟨0x070034, 4, 31, 0⟩
def CASK_VERIFY_MISMATCH_COUNT_count : Fld := ⟨0x070038, 4, 31, 0⟩
def CASK_READ_ERR_COUNT_count : Fld := ⟨0x07003C, 4, 31, 0⟩
def CASK_LAST_FAIL_reason : Fld := ⟨0x070040, 4, 3, 0⟩
def CASK_LAST_FAIL_entry : Fld := ⟨0x070040, 4, 9, 4⟩
def CASK_LAST_FAIL_chunk : Fld := ⟨0x070040, 4, 31, 10⟩
def CASK_LAST_FAIL_1_stripe_id : Fld := ⟨0x070044, 4, 23, 0⟩
def CASK_LAST_FAIL_2_job_id : Fld := ⟨0x070048, 4, 31, 0⟩
def SLOT_SCAN_axis : Fld := ⟨0x080000, 4, 0, 0⟩
def SLOT_SCAN_sense : Fld := ⟨0x080000, 4, 1, 1⟩
def SLOT_PITCH_pitch : Fld := ⟨0x080004, 4, 12, 0⟩
def SLOT_RATE_LIMIT_limit_khz : Fld := ⟨0x080008, 4, 11, 0⟩
def SLOT_IDLE_idle_khz : Fld := ⟨0x08000C, 4, 11, 0⟩
def SLOT_TRACK_corr_shift : Fld := ⟨0x080010, 4, 3, 0⟩
def SLOT_TRACK_vel_span_m1 : Fld := ⟨0x080010, 4, 9, 4⟩
def SLOT_TRACK_coast_ns : Fld := ⟨0x080010, 4, 31, 16⟩
def SLOT_LIMITS_jump_limit : Fld := ⟨0x080014, 4, 15, 0⟩
def SLOT_LIMITS_rev_thresh : Fld := ⟨0x080014, 4, 31, 16⟩
def SLOT_SPEED_CFG_hyst : Fld := ⟨0x080018, 4, 7, 0⟩
def SLOT_SPEED_CFG_still_timeout_us : Fld := ⟨0x080018, 4, 23, 8⟩
def SLOT_POS_CTRL_en : Fld := ⟨0x08001C, 4, 2, 0⟩
def SLOT_POS_CTRL_rearm : Fld := ⟨0x08001C, 4, 6, 4⟩
def SLOT_POS_CTRL_pos_lat_ns : Fld := ⟨0x08001C, 4, 27, 16⟩
def SLOT_POS_STATE_state : Fld := ⟨0x080020, 4, 2, 0⟩
def SLOT_POS_STATE_lock : Fld := ⟨0x080020, 4, 3, 3⟩
def SLOT_POS_STATE_status : Fld := ⟨0x080020, 4, 7, 4⟩
def SLOT_POS_STATE_seq : Fld := ⟨0x080020, 4, 11, 8⟩
def SLOT_POS_STATE_speed_state : Fld := ⟨0x080020, 4, 13, 12⟩
def SLOT_POS_STATE_provisional : Fld := ⟨0x080020, 4, 14, 14⟩
def SLOT_POS_ERR_coding : Fld := ⟨0x08002C, 4, 7, 0⟩
def SLOT_POS_ERR_crc : Fld := ⟨0x08002C, 4, 15, 8⟩
def SLOT_POS_ERR_gaps : Fld := ⟨0x08002C, 4, 23, 16⟩
def SLOT_POS_ERR_weak : Fld := ⟨0x08002C, 4, 31, 24⟩
def SLOT_POS_pos_low : Fld := ⟨0x080040, 16, 31, 0⟩
def SLOT_POS_1_pos_high : Fld := ⟨0x080044, 16, 15, 0⟩
def SLOT_POS_2_stamp_low : Fld := ⟨0x080048, 16, 31, 0⟩
def SLOT_POS_3_stamp_high : Fld := ⟨0x08004C, 16, 15, 0⟩
def SLOT_SPEED_speed : Fld := ⟨0x080070, 4, 31, 0⟩
def SLOT_MODE_mode : Fld := ⟨0x080080, 4, 1, 0⟩
def SLOT_MODE_stage_slow : Fld := ⟨0x080080, 4, 2, 2⟩
def SLOT_MODE_turn_open : Fld := ⟨0x080080, 4, 3, 3⟩
def SLOT_MODE_cal_open : Fld := ⟨0x080080, 4, 4, 4⟩
def SLOT_MODE_stripe_id : Fld := ⟨0x080080, 4, 31, 8⟩
def SLOT_NUMBER_low : Fld := ⟨0x080084, 4, 31, 0⟩
def SLOT_NUMBER_1_high : Fld := ⟨0x080088, 4, 15, 0⟩
def SLOT_TICK_low : Fld := ⟨0x08008C, 4, 31, 0⟩
def SLOT_TICK_1_high : Fld := ⟨0x080090, 4, 15, 0⟩
def SLOT_PHASE_frac : Fld := ⟨0x080094, 4, 31, 0⟩
def SLOT_PHASE_1_slot : Fld := ⟨0x080098, 4, 31, 0⟩
def SLOT_PHASE_INC_value : Fld := ⟨0x08009C, 4, 31, 0⟩
def SLOT_HWM_value : Fld := ⟨0x0800A0, 4, 31, 0⟩
def SLOT_S0_low : Fld := ⟨0x0800A4, 4, 31, 0⟩
def SLOT_S0_1_high : Fld := ⟨0x0800A8, 4, 15, 0⟩
def SLOT_N_value : Fld := ⟨0x0800AC, 4, 31, 0⟩
def SLOT_ARM_POS_start_low : Fld := ⟨0x0800C0, 4, 31, 0⟩
def SLOT_ARM_POS_1_start_high : Fld := ⟨0x0800C4, 4, 15, 0⟩
def SLOT_ARM_CTRL_stripe_id : Fld := ⟨0x0800C8, 4, 23, 0⟩
def SLOT_ARM_CTRL_arm : Fld := ⟨0x0800C8, 4, 30, 30⟩
def SLOT_ARM_CTRL_disarm : Fld := ⟨0x0800C8, 4, 31, 31⟩
def SLOT_OVS_COUNT_count : Fld := ⟨0x0800D0, 4, 31, 0⟩
def SLOT_REV_COUNT_count : Fld := ⟨0x0800D4, 4, 31, 0⟩
def SLOT_LATE_COUNT_count : Fld := ⟨0x0800D8, 4, 31, 0⟩
def SLOT_POS_FAULT_COUNT_count : Fld := ⟨0x0800DC, 4, 31, 0⟩
def SLOT_CMP_pos_low : Fld := ⟨0x080100, 16, 31, 0⟩
def SLOT_CMP_1_pos_high : Fld := ⟨0x080104, 16, 15, 0⟩
def SLOT_CMP_2_axis : Fld := ⟨0x080108, 16, 0, 0⟩
def SLOT_CMP_2_dir : Fld := ⟨0x080108, 16, 1, 1⟩
def SLOT_CMP_2_kind : Fld := ⟨0x080108, 16, 4, 2⟩
def SLOT_CMP_2_armed : Fld := ⟨0x080108, 16, 8, 8⟩
def SLOT_CMP_2_fired : Fld := ⟨0x080108, 16, 9, 9⟩
def SLOT_CMP_2_late : Fld := ⟨0x080108, 16, 10, 10⟩
def SLOT_CMP_3_fired_slot : Fld := ⟨0x08010C, 16, 31, 0⟩
def DEFL_CTRL_en : Fld := ⟨0x090000, 4, 0, 0⟩
def DEFL_CTRL_cross_sense : Fld := ⟨0x090000, 4, 1, 1⟩
def DEFL_SCALE_A_scale : Fld := ⟨0x090004, 4, 23, 0⟩
def DEFL_SCALE_C_scale : Fld := ⟨0x090008, 4, 23, 0⟩
def DEFL_OFFSET_A_offset : Fld := ⟨0x09000C, 4, 19, 0⟩
def DEFL_OFFSET_C_offset : Fld := ⟨0x090010, 4, 19, 0⟩
def DEFL_LEAD_lead_ticks : Fld := ⟨0x090014, 4, 9, 0⟩
def DEFL_YAW_K_k_ya : Fld := ⟨0x090018, 4, 15, 0⟩
def DEFL_YAW_K_k_yc : Fld := ⟨0x090018, 4, 31, 16⟩
def DEFL_CORR_LIMIT_corr_limit : Fld := ⟨0x09001C, 4, 19, 0⟩
def DEFL_CROSS_REF_ref_low : Fld := ⟨0x090020, 4, 31, 0⟩
def DEFL_CROSS_REF_1_ref_high : Fld := ⟨0x090024, 4, 15, 0⟩
def DEFL_YAW_REF_ref_low : Fld := ⟨0x090028, 4, 31, 0⟩
def DEFL_YAW_REF_1_ref_high : Fld := ⟨0x09002C, 4, 15, 0⟩
def DEFL_CHECK_busy : Fld := ⟨0x090030, 4, 0, 0⟩
def DEFL_CHECK_passed : Fld := ⟨0x090030, 4, 1, 1⟩
def DEFL_CHECK_fail_kind : Fld := ⟨0x090030, 4, 5, 2⟩
def DEFL_CHECK_settle_index : Fld := ⟨0x090030, 4, 14, 6⟩
def DEFL_STATUS_track : Fld := ⟨0x090034, 4, 0, 0⟩
def DEFL_STATUS_limit : Fld := ⟨0x090034, 4, 1, 1⟩
def DEFL_LAST_A_setpoint : Fld := ⟨0x090038, 4, 19, 0⟩
def DEFL_LAST_C_setpoint : Fld := ⟨0x09003C, 4, 19, 0⟩
def DEFL_LIMIT_COUNT_count : Fld := ⟨0x090040, 4, 31, 0⟩
def AXIS_CTRL_en : Fld := ⟨0x0A0000, 256, 0, 0⟩
def AXIS_CTRL_dir_inv : Fld := ⟨0x0A0000, 256, 1, 1⟩
def AXIS_CTRL_lim_pol : Fld := ⟨0x0A0000, 256, 2, 2⟩
def AXIS_CTRL_home_dir : Fld := ⟨0x0A0000, 256, 3, 3⟩
def AXIS_CMD_op : Fld := ⟨0x0A0004, 256, 2, 0⟩
def AXIS_TARGET_microsteps : Fld := ⟨0x0A0008, 256, 31, 0⟩
def AXIS_VMAX_value : Fld := ⟨0x0A000C, 256, 31, 0⟩
def AXIS_ACC_value : Fld := ⟨0x0A0010, 256, 31, 0⟩
def AXIS_DEC_value : Fld := ⟨0x0A0014, 256, 31, 0⟩
def AXIS_DEC_LIMIT_value : Fld := ⟨0x0A0018, 256, 31, 0⟩
def AXIS_HOME_V_value : Fld := ⟨0x0A001C, 256, 31, 0⟩
def AXIS_HOME_OFS_microsteps : Fld := ⟨0x0A0020, 256, 31, 0⟩
def AXIS_CURRENT_run_scale : Fld := ⟨0x0A0024, 256, 8, 0⟩
def AXIS_CURRENT_hold_scale : Fld := ⟨0x0A0024, 256, 17, 9⟩
def AXIS_CURRENT_still_ms : Fld := ⟨0x0A0024, 256, 31, 18⟩
def AXIS_INPUT_debounce_ms : Fld := ⟨0x0A0028, 256, 7, 0⟩
def AXIS_INPUT_chatter_max : Fld := ⟨0x0A0028, 256, 11, 8⟩
def AXIS_INPUT_chatter_ms : Fld := ⟨0x0A0028, 256, 19, 12⟩
def AXIS_INPUT_enc_hyst : Fld := ⟨0x0A0028, 256, 23, 20⟩
def AXIS_INPUT_enc_still_ms : Fld := ⟨0x0A0028, 256, 31, 24⟩
def AXIS_POS_microsteps : Fld := ⟨0x0A002C, 256, 31, 0⟩
def AXIS_STATUS_state : Fld := ⟨0x0A0030, 256, 2, 0⟩
def AXIS_STATUS_homed : Fld := ⟨0x0A0030, 256, 3, 3⟩
def AXIS_STATUS_at_hold : Fld := ⟨0x0A0030, 256, 4, 4⟩
def AXIS_STATUS_lim_fwd : Fld := ⟨0x0A0030, 256, 5, 5⟩
def AXIS_STATUS_lim_rev : Fld := ⟨0x0A0030, 256, 6, 6⟩
def AXIS_STATUS_dir : Fld := ⟨0x0A0030, 256, 7, 7⟩
def AXIS_STATUS_enc_provisional : Fld := ⟨0x0A0030, 256, 8, 8⟩
def AXIS_FAULT_limit_hit : Fld := ⟨0x0A0034, 256, 0, 0⟩
def AXIS_FAULT_wrong_side : Fld := ⟨0x0A0034, 256, 1, 1⟩
def AXIS_FAULT_chatter : Fld := ⟨0x0A0034, 256, 2, 2⟩
def AXIS_FAULT_no_index : Fld := ⟨0x0A0034, 256, 3, 3⟩
def AXIS_FAULT_enc_err : Fld := ⟨0x0A0034, 256, 4, 4⟩
def AXIS_FAULT_overshoot : Fld := ⟨0x0A0034, 256, 5, 5⟩
def AXIS_FAULT_refused : Fld := ⟨0x0A0034, 256, 6, 6⟩
def AXIS_ENC_value : Fld := ⟨0x0A0038, 256, 31, 0⟩
def AXIS_ENC_SPEED_value : Fld := ⟨0x0A003C, 256, 31, 0⟩
def AXIS_INDEX_microsteps : Fld := ⟨0x0A0040, 256, 31, 0⟩
def AXIS_ENC_ERR_count : Fld := ⟨0x0A0044, 256, 31, 0⟩
def BLNK_CTRL_en : Fld := ⟨0x0B0000, 4, 0, 0⟩
def BLNK_CTRL_spare_sleep : Fld := ⟨0x0B0000, 4, 1, 1⟩
def BLNK_CTRL_auto_retrain : Fld := ⟨0x0B0000, 4, 2, 2⟩
def BLNK_CTRL_echo_timeout_us : Fld := ⟨0x0B0000, 4, 15, 8⟩
def BLNK_CTRL_crc_retrain : Fld := ⟨0x0B0000, 4, 23, 16⟩
def BLNK_STATUS_epoch : Fld := ⟨0x0B0004, 4, 7, 0⟩
def BLNK_STATUS_bank_in_use : Fld := ⟨0x0B0004, 4, 8, 8⟩
def BLNK_STATUS_spare_bank_confirmed : Fld := ⟨0x0B0004, 4, 9, 9⟩
def BLNK_STATUS_loading : Fld := ⟨0x0B0004, 4, 10, 10⟩
def BLNK_STATUS_spare_tag : Fld := ⟨0x0B0004, 4, 18, 11⟩
def BLNK_STATUS_ho_lane : Fld := ⟨0x0B0004, 4, 24, 19⟩
def BLNK_STATUS_ho_phase : Fld := ⟨0x0B0004, 4, 27, 25⟩
def BLNK_HANDOVER_lane : Fld := ⟨0x0B0008, 4, 5, 0⟩
def BLNK_HANDOVER_op : Fld := ⟨0x0B0008, 4, 9, 8⟩
def BLNK_ECHO_BAD_COUNT_count : Fld := ⟨0x0B0010, 4, 31, 0⟩
def BLNK_ECHO_MISS_COUNT_count : Fld := ⟨0x0B0014, 4, 31, 0⟩
def BLNK_EPOCH_ERR_COUNT_count : Fld := ⟨0x0B0018, 4, 31, 0⟩
def BLNK_ABORT_COUNT_count : Fld := ⟨0x0B001C, 4, 31, 0⟩
def BLNK_MAP_lane : Fld := ⟨0x0B0100, 4, 6, 0⟩
def BLNK_MAP_state : Fld := ⟨0x0B0100, 4, 9, 7⟩
def BLNK_SPARE_state : Fld := ⟨0x0B0200, 4, 2, 0⟩
def BLNK_SPARE_lane : Fld := ⟨0x0B0200, 4, 8, 3⟩
def PHY_BL_state : Fld := ⟨0x0C0000, 4, 2, 0⟩
def PHY_BL_preset : Fld := ⟨0x0C0000, 4, 5, 3⟩
def PHY_BL_rx_block_lock : Fld := ⟨0x0C0000, 4, 6, 6⟩
def PHY_BL_rx_frozen : Fld := ⟨0x0C0000, 4, 7, 7⟩
def PHY_BL_eye_h : Fld := ⟨0x0C0000, 4, 15, 8⟩
def PHY_BL_eye_w : Fld := ⟨0x0C0000, 4, 21, 16⟩
def PHY_BL_PRBS_blocks : Fld := ⟨0x0C0200, 4, 15, 0⟩
def PHY_BL_PRBS_bits : Fld := ⟨0x0C0200, 4, 31, 16⟩
def PHY_TRAIN_CFG_eye_h_min : Fld := ⟨0x0C0400, 4, 7, 0⟩
def PHY_TRAIN_CFG_eye_w_min : Fld := ⟨0x0C0400, 4, 13, 8⟩
def PHY_TRAIN_CFG_measure_ms : Fld := ⟨0x0C0400, 4, 23, 14⟩
def PHY_TRAIN_CFG_adapt_ms : Fld := ⟨0x0C0400, 4, 27, 24⟩
def PHY_TRAIN_CFG_err_max : Fld := ⟨0x0C0400, 4, 31, 28⟩
def PHY_TRAIN_CMD_lane : Fld := ⟨0x0C0404, 4, 6, 0⟩
def PHY_TRAIN_CMD_start : Fld := ⟨0x0C0404, 4, 7, 7⟩
def PHY_TRAIN_STATUS_busy : Fld := ⟨0x0C0408, 4, 0, 0⟩
def PHY_TRAIN_STATUS_lane : Fld := ⟨0x0C0408, 4, 7, 1⟩
def PHY_TRAIN_STATUS_outcome : Fld := ⟨0x0C0408, 4, 9, 8⟩
def PHY_TRAIN_STATUS_preset : Fld := ⟨0x0C0408, 4, 12, 10⟩
def PHY_TRAIN_STATUS_rx_ok : Fld := ⟨0x0C0408, 4, 13, 13⟩
def PHY_TRAIN_STATUS_tx_ok : Fld := ⟨0x0C0408, 4, 21, 14⟩
def PHY_DFE_CFG_trans_min : Fld := ⟨0x0C040C, 4, 9, 0⟩
def PHY_GR_CTRL_lane_en : Fld := ⟨0x0C0800, 4, 15, 0⟩
def PHY_GR_CTRL_tx_preset : Fld := ⟨0x0C0800, 4, 18, 16⟩
def PHY_GR_CTRL_resync : Fld := ⟨0x0C0800, 4, 19, 19⟩
def PHY_GR_CTRL_auto_retrain : Fld := ⟨0x0C0800, 4, 20, 20⟩
def PHY_GR_STATUS_set_id : Fld := ⟨0x0C0804, 4, 7, 0⟩
def PHY_GR_STATUS_aligned : Fld := ⟨0x0C0804, 4, 8, 8⟩
def PHY_GR_STATUS_return_lane : Fld := ⟨0x0C0804, 4, 12, 9⟩
def PHY_GR_STATUS_lane_mask : Fld := ⟨0x0C0804, 4, 31, 16⟩
def PHY_GR_state : Fld := ⟨0x0C0810, 4, 2, 0⟩
def PHY_GR_preset : Fld := ⟨0x0C0810, 4, 5, 3⟩
def PHY_GR_rx_block_lock : Fld := ⟨0x0C0810, 4, 6, 6⟩
def PHY_GR_rx_frozen : Fld := ⟨0x0C0810, 4, 7, 7⟩
def PHY_GR_eye_h : Fld := ⟨0x0C0810, 4, 15, 8⟩
def PHY_GR_eye_w : Fld := ⟨0x0C0810, 4, 21, 16⟩
def PHY_GR_PRBS_blocks : Fld := ⟨0x0C0850, 4, 15, 0⟩
def PHY_GR_PRBS_bits : Fld := ⟨0x0C0850, 4, 31, 16⟩
def PHY_GR_TRAIN_CMD_lane : Fld := ⟨0x0C0890, 4, 3, 0⟩
def PHY_GR_TRAIN_CMD_start : Fld := ⟨0x0C0890, 4, 4, 4⟩
def PHY_GR_FRAME_ERR_bad_ctrl : Fld := ⟨0x0C0894, 4, 7, 0⟩
def PHY_GR_FRAME_ERR_stray : Fld := ⟨0x0C0894, 4, 15, 8⟩
def PHY_GR_FRAME_ERR_cut : Fld := ⟨0x0C0894, 4, 23, 16⟩
def PHY_GR_FRAME_ERR_deskew : Fld := ⟨0x0C0894, 4, 31, 24⟩
def CTRL_PORT_STATUS_link : Fld := ⟨0x0D0000, 4, 0, 0⟩
def CTRL_PORT_STATUS_via_other : Fld := ⟨0x0D0000, 4, 1, 1⟩
def CTRL_MAC_mac_low : Fld := ⟨0x0D0008, 4, 31, 0⟩
def CTRL_MAC_1_mac_high : Fld := ⟨0x0D000C, 4, 15, 0⟩
def CTRL_HOST_MAC_mac_low : Fld := ⟨0x0D0010, 4, 31, 0⟩
def CTRL_HOST_MAC_1_mac_high : Fld := ⟨0x0D0014, 4, 15, 0⟩
def CTRL_RX_DISCARD_COUNT_count : Fld := ⟨0x0D0018, 4, 31, 0⟩
def CTRL_REQ_ERR_COUNT_count : Fld := ⟨0x0D001C, 4, 31, 0⟩
def CTRL_MSG_CFG_retry_us : Fld := ⟨0x0D0020, 4, 15, 0⟩
def CTRL_MSG_CFG_sched_en : Fld := ⟨0x0D0020, 4, 16, 16⟩
def CTRL_MSG_STATUS_queued : Fld := ⟨0x0D0024, 4, 6, 0⟩
def CTRL_MSG_STATUS_outstanding : Fld := ⟨0x0D0024, 4, 7, 7⟩
def CTRL_MSG_STATUS_lost : Fld := ⟨0x0D0024, 4, 15, 8⟩
def CTRL_MSG_STATUS_seq : Fld := ⟨0x0D0024, 4, 31, 16⟩
def CTRL_SCHED_CYCLE_ns : Fld := ⟨0x0D0028, 4, 31, 0⟩
def CTRL_SCHED_PHASE_ns : Fld := ⟨0x0D002C, 4, 31, 0⟩
def CTRL_SCHED_OPEN_ns : Fld := ⟨0x0D0030, 4, 31, 0⟩
def CTRL_TIME_frac_or_ns : Fld := ⟨0x0D0100, 4, 31, 0⟩
def CTRL_TIME_1_ns_low_or_s_low : Fld := ⟨0x0D0104, 4, 31, 0⟩
def CTRL_TIME_2_ns_high_or_s_high : Fld := ⟨0x0D0108, 4, 31, 0⟩
def CTRL_TIME_INC_frac : Fld := ⟨0x0D010C, 4, 31, 0⟩
def CTRL_TIME_INC_1_ns : Fld := ⟨0x0D0110, 4, 7, 0⟩
def CTRL_TIME_STEP_frac : Fld := ⟨0x0D0114, 4, 31, 0⟩
def CTRL_TIME_STEP_1_ns_low : Fld := ⟨0x0D0118, 4, 31, 0⟩
def CTRL_TIME_STEP_2_ns_high : Fld := ⟨0x0D011C, 4, 31, 0⟩
def CTRL_TS_LAT_rx_ns : Fld := ⟨0x0D0120, 4, 15, 0⟩
def CTRL_TS_LAT_tx_ns : Fld := ⟨0x0D0120, 4, 31, 16⟩
def CTRL_PTP_CFG_domain : Fld := ⟨0x0D0140, 4, 7, 0⟩
def CTRL_PTP_CFG_port : Fld := ⟨0x0D0140, 4, 8, 8⟩
def CTRL_PTP_CFG_port_auto : Fld := ⟨0x0D0140, 4, 9, 9⟩
def CTRL_PTP_CFG_step_ns : Fld := ⟨0x0D0140, 4, 19, 10⟩
def CTRL_PTP_CFG_holdover_ms : Fld := ⟨0x0D0140, 4, 31, 20⟩
def CTRL_PTP_STATUS_state : Fld := ⟨0x0D0144, 4, 2, 0⟩
def CTRL_PTP_STATUS_port : Fld := ⟨0x0D0144, 4, 3, 3⟩
def CTRL_PTP_OFFSET_value : Fld := ⟨0x0D0148, 4, 31, 0⟩
def CTRL_PTP_MPD_value : Fld := ⟨0x0D014C, 4, 31, 0⟩
def CTRL_PTP_STEP_COUNT_value : Fld := ⟨0x0D0150, 4, 31, 0⟩
def DRAM_CTRL_sr_en : Fld := ⟨0x0E0000, 4, 0, 0⟩
def DRAM_CTRL_sr_idle_us : Fld := ⟨0x0E0000, 4, 19, 4⟩
def DRAM_CTRL_tracking_en : Fld := ⟨0x0E0000, 4, 20, 20⟩
def DRAM_STATUS_ch_state : Fld := ⟨0x0E0004, 4, 7, 0⟩
def DRAM_STATUS_refresh_mult : Fld := ⟨0x0E0004, 4, 15, 8⟩
def DRAM_STATUS_panic : Fld := ⟨0x0E0004, 4, 16, 16⟩
def DRAM_STATUS_fill_busy : Fld := ⟨0x0E0004, 4, 17, 17⟩
def DRAM_PANIC_panic_on : Fld := ⟨0x0E0008, 4, 15, 0⟩
def DRAM_PANIC_panic_off : Fld := ⟨0x0E0008, 4, 31, 16⟩
def DRAM_PANIC_COUNT_count : Fld := ⟨0x0E000C, 4, 31, 0⟩
def DRAM_BUDGET_budget : Fld := ⟨0x0E0010, 4, 14, 0⟩
def DRAM_BUDGET_2_budget : Fld := ⟨0x0E0018, 4, 14, 0⟩
def DRAM_BUDGET_3_budget : Fld := ⟨0x0E001C, 4, 14, 0⟩
def DRAM_BUDGET_4_budget : Fld := ⟨0x0E0020, 4, 14, 0⟩
def DRAM_BUDGET_6_budget : Fld := ⟨0x0E0028, 4, 14, 0⟩
def DRAM_BUDGET_SUM_sum : Fld := ⟨0x0E002C, 4, 17, 0⟩
def DRAM_BUDGET_SUM_oversubscribed : Fld := ⟨0x0E002C, 4, 18, 18⟩
def DRAM_CLIENT_used_last : Fld := ⟨0x0E0030, 4, 14, 0⟩
def DRAM_CLIENT_stalls : Fld := ⟨0x0E0030, 4, 31, 16⟩
def DRAM_SYS_TXN_count : Fld := ⟨0x0E004C, 4, 31, 0⟩
def DRAM_FILL_BASE_base_64k : Fld := ⟨0x0E0050, 4, 18, 0⟩
def DRAM_FILL_SIZE_size_64k : Fld := ⟨0x0E0054, 4, 18, 0⟩
def DRAM_FILL_CTRL_op : Fld := ⟨0x0E0058, 4, 1, 0⟩
def DRAM_FILL_CTRL_start : Fld := ⟨0x0E0058, 4, 2, 2⟩
def DRAM_FILL_CTRL_busy : Fld := ⟨0x0E0058, 4, 3, 3⟩
def DRAM_TRAIN_CTRL_channel : Fld := ⟨0x0E0100, 4, 1, 0⟩
def DRAM_TRAIN_CTRL_op : Fld := ⟨0x0E0100, 4, 3, 2⟩
def DRAM_TRAIN_CTRL_pattern : Fld := ⟨0x0E0100, 4, 6, 4⟩
def DRAM_TRAIN_CTRL_start : Fld := ⟨0x0E0100, 4, 7, 7⟩
def DRAM_TRAIN_CTRL_busy : Fld := ⟨0x0E0100, 4, 8, 8⟩
def DRAM_TRAIN_ADDR_lines : Fld := ⟨0x0E0104, 4, 14, 0⟩
def DRAM_TRAIN_LEN_lines : Fld := ⟨0x0E0108, 4, 14, 0⟩
def DRAM_TRAIN_PAT_pat_low : Fld := ⟨0x0E010C, 4, 31, 0⟩
def DRAM_TRAIN_PAT_1_pat_high : Fld := ⟨0x0E0110, 4, 31, 0⟩
def DRAM_TRAIN_RESULT_lane_err_low : Fld := ⟨0x0E0114, 4, 31, 0⟩
def DRAM_TRAIN_RESULT_1_lane_err_high : Fld := ⟨0x0E0118, 4, 31, 0⟩
def DRAM_TRAIN_RESULT_2_lane_err_chk : Fld := ⟨0x0E011C, 4, 7, 0⟩
def DRAM_TRAIN_RESULT_3_errors : Fld := ⟨0x0E0120, 4, 31, 0⟩
def DRAM_DLY_rd_dly : Fld := ⟨0x0E0200, 4, 6, 0⟩
def DRAM_DLY_wr_dly : Fld := ⟨0x0E0200, 4, 14, 8⟩
def DRAM_DLY_vref : Fld := ⟨0x0E0200, 4, 21, 16⟩
def ECC_CTRL_scrub_en : Fld := ⟨0x0F0000, 4, 0, 0⟩
def ECC_CTRL_retire_en : Fld := ⟨0x0F0000, 4, 1, 1⟩
def ECC_CTRL_sram_scrub_en : Fld := ⟨0x0F0000, 4, 2, 2⟩
def ECC_CE_COUNT_count : Fld := ⟨0x0F0004, 4, 31, 0⟩
def ECC_UE_COUNT_count : Fld := ⟨0x0F0008, 4, 31, 0⟩
def ECC_POISON_COUNT_count : Fld := ⟨0x0F000C, 4, 31, 0⟩
def ECC_CHKBIT_COUNT_count : Fld := ⟨0x0F0010, 4, 31, 0⟩
def ECC_CE_EVICT_COUNT_count : Fld := ⟨0x0F0014, 4, 31, 0⟩
def ECC_UE_LAST_region : Fld := ⟨0x0F0018, 4, 3, 0⟩
def ECC_UE_LAST_channel : Fld := ⟨0x0F0018, 4, 5, 4⟩
def ECC_UE_LAST_client : Fld := ⟨0x0F0018, 4, 8, 6⟩
def ECC_UE_LAST_poison : Fld := ⟨0x0F0018, 4, 9, 9⟩
def ECC_UE_LAST_1_addr_low : Fld := ⟨0x0F001C, 4, 31, 0⟩
def ECC_UE_LAST_2_addr_high : Fld := ⟨0x0F0020, 4, 2, 0⟩
def ECC_SCRUB_STATUS_lap_count : Fld := ⟨0x0F0030, 4, 15, 0⟩
def ECC_SCRUB_STATUS_poison_lines : Fld := ⟨0x0F0030, 4, 31, 16⟩
def ECC_SCRUB_LAP_time : Fld := ⟨0x0F0034, 4, 31, 0⟩
def ECC_SCRUB_CFG_lap_max_s : Fld := ⟨0x0F0038, 4, 15, 0⟩
def ECC_SRAM_LAP_time : Fld := ⟨0x0F003C, 4, 31, 0⟩
def ECC_POOL_free : Fld := ⟨0x0F0040, 4, 8, 0⟩
def ECC_RETIRE_CMD_page : Fld := ⟨0x0F0050, 4, 22, 0⟩
def ECC_RETIRE_CMD_go : Fld := ⟨0x0F0050, 4, 31, 31⟩
def ECC_INJECT_addr_low : Fld := ⟨0x0F0060, 4, 31, 0⟩
def ECC_INJECT_1_addr_high : Fld := ⟨0x0F0064, 4, 2, 0⟩
def ECC_INJECT_2_bit_a : Fld := ⟨0x0F0068, 4, 6, 0⟩
def ECC_INJECT_2_bit_b : Fld := ⟨0x0F0068, 4, 14, 8⟩
def ECC_INJECT_2_two : Fld := ⟨0x0F0068, 4, 16, 16⟩
def ECC_INJECT_2_arm : Fld := ⟨0x0F0068, 4, 31, 31⟩
def ILK_CTRL_reopen : Fld := ⟨0x100000, 4, 0, 0⟩
def ILK_CTRL_force_close : Fld := ⟨0x100000, 4, 1, 1⟩
def ILK_CFG_drop_ns : Fld := ⟨0x100004, 4, 5, 0⟩
def ILK_CFG_auto_reopen : Fld := ⟨0x100004, 4, 6, 6⟩
def ILK_CFG_restore_ms : Fld := ⟨0x100004, 4, 23, 8⟩
def ILK_MASK_bits : Fld := ⟨0x100008, 4, 7, 0⟩
def ILK_POL_bits : Fld := ⟨0x10000C, 4, 7, 0⟩
def ILK_STATUS_raw : Fld := ⟨0x100010, 4, 7, 0⟩
def ILK_STATUS_good : Fld := ⟨0x100010, 4, 15, 8⟩
def ILK_STATUS_gate_open : Fld := ⟨0x100010, 4, 16, 16⟩
def ILK_STATUS_blank_all : Fld := ⟨0x100010, 4, 17, 17⟩
def ILK_STATUS_remote : Fld := ⟨0x100010, 4, 18, 18⟩
def ILK_STATUS_ready : Fld := ⟨0x100010, 4, 19, 19⟩
def ILK_FIRST_source : Fld := ⟨0x100014, 4, 3, 0⟩
def ILK_FIRST_module_id : Fld := ⟨0x100014, 4, 6, 4⟩
def ILK_FIRST_valid : Fld := ⟨0x100014, 4, 7, 7⟩
def ILK_FIRST_1_slot_low : Fld := ⟨0x100018, 4, 31, 0⟩
def ILK_FIRST_2_time : Fld := ⟨0x10001C, 4, 31, 0⟩
def ILK_DROP_COUNT_LO_count0 : Fld := ⟨0x100020, 4, 7, 0⟩
def ILK_DROP_COUNT_LO_count1 : Fld := ⟨0x100020, 4, 15, 8⟩
def ILK_DROP_COUNT_LO_count2 : Fld := ⟨0x100020, 4, 23, 16⟩
def ILK_DROP_COUNT_LO_count3 : Fld := ⟨0x100020, 4, 31, 24⟩
def ILK_DROP_COUNT_HI_count4 : Fld := ⟨0x100024, 4, 7, 0⟩
def ILK_DROP_COUNT_HI_count5 : Fld := ⟨0x100024, 4, 15, 8⟩
def ILK_DROP_COUNT_HI_count6 : Fld := ⟨0x100024, 4, 23, 16⟩
def ILK_DROP_COUNT_HI_count7 : Fld := ⟨0x100024, 4, 31, 24⟩
def ILK_GATE_COUNT_count : Fld := ⟨0x100028, 4, 31, 0⟩
def EVT_CTRL_preempt_bits : Fld := ⟨0x110000, 4, 2, 0⟩
def EVT_CTRL_timeout_us : Fld := ⟨0x110000, 4, 31, 16⟩
def EVT_SET_pending : Fld := ⟨0x110100, 4, 31, 0⟩
def EVT_CLR_pending : Fld := ⟨0x110120, 4, 31, 0⟩
def EVT_EN_enable : Fld := ⟨0x110140, 4, 31, 0⟩
def EVT_COUNT_counts : Fld := ⟨0x110200, 4, 31, 0⟩
def EVT_CFG_priority : Fld := ⟨0x110400, 4, 3, 0⟩
def EVT_CFG_target : Fld := ⟨0x110400, 4, 6, 4⟩
def EVT_CFG_wake_en : Fld := ⟨0x110400, 4, 7, 7⟩
def EVT_CFG_fault : Fld := ⟨0x110400, 4, 8, 8⟩
def EVT_CFG_sw : Fld := ⟨0x110400, 4, 9, 9⟩
def EVT_CORE_CTRL_mode : Fld := ⟨0x110800, 64, 0, 0⟩
def EVT_CORE_CTRL_mode_pending : Fld := ⟨0x110800, 64, 1, 1⟩
def EVT_CORE_CTRL_vector_base : Fld := ⟨0x110800, 64, 31, 16⟩
def EVT_ACK_id : Fld := ⟨0x110804, 64, 9, 0⟩
def EVT_ACK_count : Fld := ⟨0x110804, 64, 17, 10⟩
def EVT_EOI_id : Fld := ⟨0x110808, 64, 9, 0⟩
def EVT_SCAN_id : Fld := ⟨0x11080C, 64, 9, 0⟩
def EVT_SCAN_count : Fld := ⟨0x11080C, 64, 17, 10⟩
def EVT_SLEEP_req : Fld := ⟨0x110810, 64, 0, 0⟩
def EVT_SLEEP_state : Fld := ⟨0x110810, 64, 2, 1⟩
def EVT_STACK_depth : Fld := ⟨0x110814, 64, 4, 0⟩
def EVT_STACK_top_id : Fld := ⟨0x110814, 64, 14, 5⟩
def EVT_STACK_top_group : Fld := ⟨0x110814, 64, 18, 15⟩
def EVT_FAULT_core : Fld := ⟨0x110900, 4, 0, 0⟩
def EVT_FAULT_id_written : Fld := ⟨0x110900, 4, 10, 1⟩
def EVT_FAULT_top_id : Fld := ⟨0x110900, 4, 20, 11⟩
def EVT_FAULT_1_count : Fld := ⟨0x110904, 4, 31, 0⟩
def EVT_HOST_STATUS_last_fallback : Fld := ⟨0x110910, 4, 7, 0⟩
def EVT_HOST_STATUS_waiting : Fld := ⟨0x110910, 4, 15, 8⟩
def EVT_HOST_STATUS_fallbacks : Fld := ⟨0x110910, 4, 31, 16⟩
def CFG_STATUS_stage : Fld := ⟨0x010000, 4, 2, 0⟩
def CFG_STATUS_image : Fld := ⟨0x010000, 4, 3, 3⟩
def CFG_STATUS_fallback : Fld := ⟨0x010000, 4, 4, 4⟩
def CFG_STATUS_ready : Fld := ⟨0x010000, 4, 5, 5⟩
def CFG_STATUS_meas_busy : Fld := ⟨0x010000, 4, 6, 6⟩
def CFG_STATUS_rec_skipped : Fld := ⟨0x010000, 4, 15, 7⟩
def CFG_STATUS_boot_count : Fld := ⟨0x010000, 4, 31, 16⟩
def CFG_BOOT_SEL_next : Fld := ⟨0x010004, 4, 1, 0⟩
def CFG_BOOT_OK_ok : Fld := ⟨0x010008, 4, 0, 0⟩
def CFG_RESET_module : Fld := ⟨0x01000C, 4, 0, 0⟩
def CFG_SERIAL_serial_low : Fld := ⟨0x010010, 4, 31, 0⟩
def CFG_SERIAL_1_serial_high : Fld := ⟨0x010014, 4, 31, 0⟩
def CFG_IMAGE_A_image_seq : Fld := ⟨0x010020, 4, 31, 0⟩
def CFG_IMAGE_A_1_valid : Fld := ⟨0x010024, 4, 0, 0⟩
def CFG_IMAGE_A_1_why : Fld := ⟨0x010024, 4, 4, 1⟩
def CFG_IMAGE_B_image_seq : Fld := ⟨0x010028, 4, 31, 0⟩
def CFG_IMAGE_B_1_valid : Fld := ⟨0x01002C, 4, 0, 0⟩
def CFG_IMAGE_B_1_why : Fld := ⟨0x01002C, 4, 4, 1⟩
def CFG_SWAP_CTRL_arm : Fld := ⟨0x010100, 4, 0, 0⟩
def CFG_SWAP_CTRL_disarm : Fld := ⟨0x010100, 4, 1, 1⟩
def CFG_SWAP_CTRL_mode : Fld := ⟨0x010100, 4, 2, 2⟩
def CFG_SWAP_SLOT_low : Fld := ⟨0x010104, 4, 31, 0⟩
def CFG_SWAP_SLOT_1_high : Fld := ⟨0x010108, 4, 15, 0⟩
def CFG_SWAP_STATUS_state : Fld := ⟨0x01010C, 4, 1, 0⟩
def CFG_SWAP_STATUS_outcome : Fld := ⟨0x01010C, 4, 4, 2⟩
def CFG_SWAP_STATUS_reasons : Fld := ⟨0x01010C, 4, 11, 5⟩
def CFG_SWAP_STATUS_swap_count : Fld := ⟨0x01010C, 4, 31, 16⟩
def CFG_SWAP_LAST_low : Fld := ⟨0x010110, 4, 31, 0⟩
def CFG_SWAP_LAST_1_high : Fld := ⟨0x010114, 4, 15, 0⟩
def CFG_MEAS_bytes : Fld := ⟨0x010200, 4, 31, 0⟩
def CFG_MEAS_1_bytes : Fld := ⟨0x010204, 4, 31, 0⟩
def CFG_LOCK_STATUS_state : Fld := ⟨0x010300, 4, 1, 0⟩
def CFG_LOCK_STATUS_fail_count : Fld := ⟨0x010300, 4, 5, 2⟩
def CFG_LOCK_STATUS_challenge : Fld := ⟨0x010300, 4, 6, 6⟩
def CFG_LOCK_STATUS_busy : Fld := ⟨0x010300, 4, 7, 7⟩
def CFG_LOCK_STATUS_open_left_s : Fld := ⟨0x010300, 4, 24, 8⟩
def CFG_MAINT_CMD_op : Fld := ⟨0x010304, 4, 1, 0⟩
def CFG_MAINT_DUR_duration_s : Fld := ⟨0x010308, 4, 16, 0⟩
def CFG_MAINT_CHAL_bytes : Fld := ⟨0x010320, 4, 31, 0⟩
def CFG_MAINT_CHAL_1_bytes : Fld := ⟨0x010324, 4, 31, 0⟩
def CFG_MAINT_RESP_bytes : Fld := ⟨0x010340, 4, 31, 0⟩
def CFG_MC_CTRL_kick : Fld := ⟨0x010400, 4, 0, 0⟩
def CFG_MC_CTRL_restart : Fld := ⟨0x010400, 4, 1, 1⟩
def CFG_MC_CTRL_auto_restart : Fld := ⟨0x010400, 4, 2, 2⟩
def CFG_MC_CTRL_state : Fld := ⟨0x010400, 4, 4, 3⟩
def CFG_MC_CTRL_cause : Fld := ⟨0x010400, 4, 6, 5⟩
def CFG_MC_CTRL_wd_ms : Fld := ⟨0x010400, 4, 31, 16⟩
def CFG_FLASH_CMD_op : Fld := ⟨0x010500, 4, 1, 0⟩
def CFG_FLASH_CMD_device : Fld := ⟨0x010500, 4, 2, 2⟩
def CFG_FLASH_ADDR_addr : Fld := ⟨0x010504, 4, 25, 0⟩
def CFG_FLASH_STATUS_busy : Fld := ⟨0x010508, 4, 0, 0⟩
def CFG_FLASH_STATUS_error : Fld := ⟨0x010508, 4, 1, 1⟩
def CFG_JLOG_STATUS_valid_count : Fld := ⟨0x010600, 4, 8, 0⟩
def CFG_JLOG_STATUS_wr_idx : Fld := ⟨0x010600, 4, 16, 9⟩
def CFG_JLOG_STATUS_lost : Fld := ⟨0x010600, 4, 31, 17⟩
def CFG_JLOG_RD_IDX_rd_idx : Fld := ⟨0x010604, 4, 7, 0⟩
def CFG_JLOG_RD_IDX_full_lap : Fld := ⟨0x010604, 4, 8, 8⟩
def CFG_FLASH_BUF_bytes : Fld := ⟨0x010800, 4, 31, 0⟩
def CHK_CTRL_algo : Fld := ⟨0x120000, 64, 1, 0⟩
def CHK_CTRL_start : Fld := ⟨0x120000, 64, 2, 2⟩
def CHK_CTRL_acquire : Fld := ⟨0x120000, 64, 3, 3⟩
def CHK_CTRL_release : Fld := ⟨0x120000, 64, 4, 4⟩
def CHK_CTRL_owner : Fld := ⟨0x120000, 64, 6, 5⟩
def CHK_CTRL_busy : Fld := ⟨0x120000, 64, 7, 7⟩
def CHK_CTRL_error : Fld := ⟨0x120000, 64, 8, 8⟩
def CHK_DATA_data : Fld := ⟨0x120004, 64, 31, 0⟩
def CHK_DATA_B_byte : Fld := ⟨0x120008, 64, 7, 0⟩
def CHK_RESULT_result : Fld := ⟨0x12000C, 64, 31, 0⟩
def CHK_RANGE_addr_low : Fld := ⟨0x120010, 64, 31, 0⟩
def CHK_RANGE_1_addr_high : Fld := ⟨0x120014, 64, 2, 0⟩
def CHK_RANGE_2_length : Fld := ⟨0x120018, 64, 30, 0⟩
def CHK_RANGE_2_go : Fld := ⟨0x120018, 64, 31, 31⟩
def HERD_STATUS_state : Fld := ⟨0x130000, 4, 2, 0⟩
def HERD_STATUS_own_id : Fld := ⟨0x130000, 4, 5, 3⟩
def HERD_STATUS_buck_id : Fld := ⟨0x130000, 4, 8, 6⟩
def HERD_STATUS_link_a : Fld := ⟨0x130000, 4, 9, 9⟩
def HERD_STATUS_link_b : Fld := ⟨0x130000, 4, 10, 10⟩
def HERD_STATUS_arm_reason : Fld := ⟨0x130000, 4, 14, 11⟩
def HERD_CFG_expected_mask : Fld := ⟨0x130004, 4, 7, 0⟩
def HERD_CFG_buck_ok : Fld := ⟨0x130004, 4, 15, 8⟩
def HERD_CFG_failover_en : Fld := ⟨0x130004, 4, 16, 16⟩
def HERD_CFG_lat_ns : Fld := ⟨0x130004, 4, 26, 17⟩
def HERD_MEMBER_unit : Fld := ⟨0x130020, 4, 31, 0⟩
def HERD_DELAY_short_ns : Fld := ⟨0x130040, 4, 9, 0⟩
def HERD_DELAY_long_ns : Fld := ⟨0x130040, 4, 19, 10⟩
def HERD_LINK_ERR_a : Fld := ⟨0x130060, 4, 15, 0⟩
def HERD_LINK_ERR_b : Fld := ⟨0x130060, 4, 31, 16⟩
def HERD_LOST_COUNT_count : Fld := ⟨0x130064, 4, 31, 0⟩
def HERD_MEAS_bytes : Fld := ⟨0x130100, 4, 31, 0⟩
def HERD_MEAS_1_bytes : Fld := ⟨0x130104, 4, 31, 0⟩
def CAL_CTRL_en : Fld := ⟨0x140000, 4, 0, 0⟩
def CAL_CTRL_apply : Fld := ⟨0x140000, 4, 1, 1⟩
def CAL_CTRL_capture_en : Fld := ⟨0x140000, 4, 2, 2⟩
def CAL_CTRL_chain_go : Fld := ⟨0x140000, 4, 3, 3⟩
def CAL_CTRL_step_go : Fld := ⟨0x140000, 4, 4, 4⟩
def CAL_CTRL_abort : Fld := ⟨0x140000, 4, 5, 5⟩
def CAL_STATUS_state : Fld := ⟨0x140004, 4, 2, 0⟩
def CAL_STATUS_step_done : Fld := ⟨0x140004, 4, 3, 3⟩
def CAL_STATUS_beam_next : Fld := ⟨0x140004, 4, 9, 4⟩
def CAL_STATUS_last_discard : Fld := ⟨0x140004, 4, 12, 10⟩
def CAL_STATUS_held : Fld := ⟨0x140004, 4, 13, 13⟩
def CAL_STATUS_cap_lost : Fld := ⟨0x140004, 4, 31, 16⟩
def CAL_ADC_range : Fld := ⟨0x140008, 4, 1, 0⟩
def CAL_BURST_rate_khz : Fld := ⟨0x14000C, 4, 11, 0⟩
def CAL_BURST_code_lo : Fld := ⟨0x14000C, 4, 17, 12⟩
def CAL_BURST_code_hi : Fld := ⟨0x14000C, 4, 23, 18⟩
def CAL_BURST_n_log2 : Fld := ⟨0x14000C, 4, 27, 24⟩
def CAL_STEP_cell : Fld := ⟨0x140010, 4, 10, 0⟩
def CAL_STEP_die : Fld := ⟨0x140010, 4, 11, 11⟩
def CAL_STEP_module_id : Fld := ⟨0x140010, 4, 14, 12⟩
def CAL_STEP_MASK_mask_low : Fld := ⟨0x140014, 4, 31, 0⟩
def CAL_STEP_MASK_1_mask_high : Fld := ⟨0x140018, 4, 31, 0⟩
def CAL_TARGET_i_ref_fa : Fld := ⟨0x140020, 4, 31, 0⟩
def CAL_GAIN_REF_gain_ref : Fld := ⟨0x140024, 4, 7, 0⟩
def CAL_REF_FA_ref_fa : Fld := ⟨0x140028, 4, 31, 0⟩
def CAL_REF_ID_ref_id : Fld := ⟨0x14002C, 4, 31, 0⟩
def CAL_LIMITS_chain_tol_ppm : Fld := ⟨0x140030, 4, 15, 0⟩
def CAL_LIMITS_chain_max_h : Fld := ⟨0x140030, 4, 23, 16⟩
def CAL_LIMITS_resid_max : Fld := ⟨0x140030, 4, 31, 24⟩
def CAL_DEAD_FA_dead_fa : Fld := ⟨0x140034, 4, 31, 0⟩
def CAL_BG_REF_bg_ref : Fld := ⟨0x140038, 4, 31, 0⟩
def CAL_CHAIN_k_chain : Fld := ⟨0x140040, 4, 31, 0⟩
def CAL_CHAIN_STATUS_chain_seq : Fld := ⟨0x140044, 4, 15, 0⟩
def CAL_CHAIN_STATUS_age_h : Fld := ⟨0x140044, 4, 23, 16⟩
def CAL_CHAIN_STATUS_pass : Fld := ⟨0x140044, 4, 24, 24⟩
def CAL_CHAIN_STATUS_clip : Fld := ⟨0x140044, 4, 25, 25⟩
def CAL_DISCARD_COUNT_count : Fld := ⟨0x140048, 4, 31, 0⟩
def CAL_CELL_RESULT_q_bg : Fld := ⟨0x140050, 4, 31, 0⟩
def CAL_CELL_RESULT_1_open_dose : Fld := ⟨0x140054, 4, 15, 0⟩
def CAL_CAP_BASE_base_64k : Fld := ⟨0x140058, 4, 18, 0⟩
def CAL_CAP_SIZE_size_64k : Fld := ⟨0x14005C, 4, 18, 0⟩
def CAL_LANE_CTRL_en : Fld := ⟨0x140100, 4, 0, 0⟩
def CAL_LANE_CTRL_grist_en : Fld := ⟨0x140100, 4, 1, 1⟩
def CAL_LANE_CTRL_period_h : Fld := ⟨0x140100, 4, 15, 8⟩
def CAL_LANE_MARGIN_h_margin : Fld := ⟨0x140104, 4, 7, 0⟩
def CAL_LANE_MARGIN_w_margin : Fld := ⟨0x140104, 4, 13, 8⟩
def CAL_LANE_STATUS_lane_next : Fld := ⟨0x140108, 4, 6, 0⟩
def CAL_LANE_STATUS_busy : Fld := ⟨0x140108, 4, 7, 7⟩
def CAL_LANE_STATUS_outcome : Fld := ⟨0x140108, 4, 9, 8⟩
def CAL_LANE_eye_h : Fld := ⟨0x140200, 4, 7, 0⟩
def CAL_LANE_eye_w : Fld := ⟨0x140200, 4, 13, 8⟩
def CAL_LANE_margin_low : Fld := ⟨0x140200, 4, 14, 14⟩
def CAL_LANE_age_h : Fld := ⟨0x140200, 4, 31, 16⟩
def CAL_RESULT_gain_new : Fld := ⟨0x141000, 16, 7, 0⟩
def CAL_RESULT_prime_new : Fld := ⟨0x141000, 16, 10, 8⟩
def CAL_RESULT_status : Fld := ⟨0x141000, 16, 14, 11⟩
def CAL_RESULT_applied : Fld := ⟨0x141000, 16, 15, 15⟩
def CAL_RESULT_chain_seq : Fld := ⟨0x141000, 16, 31, 16⟩
def CAL_RESULT_1_i_fa : Fld := ⟨0x141004, 16, 31, 0⟩
def CAL_RESULT_2_loss_ps : Fld := ⟨0x141008, 16, 31, 0⟩
def CAL_RESULT_3_resid_ppm : Fld := ⟨0x14100C, 16, 31, 0⟩
def PWR_STATUS_supply_good : Fld := ⟨0x150000, 4, 0, 0⟩
def PWR_STATUS_vin_warn : Fld := ⟨0x150000, 4, 1, 1⟩
def PWR_STATUS_therm_warn : Fld := ⟨0x150000, 4, 2, 2⟩
def PWR_STATUS_power_warn : Fld := ⟨0x150000, 4, 3, 3⟩
def PWR_STATUS_rail_margin_low : Fld := ⟨0x150000, 4, 4, 4⟩
def PWR_STATUS_sensor_fault : Fld := ⟨0x150000, 4, 5, 5⟩
def PWR_VIN_vin_dv : Fld := ⟨0x150004, 4, 15, 0⟩
def PWR_VIN_iin_ma : Fld := ⟨0x150004, 4, 31, 16⟩
def PWR_POWER_power_dw : Fld := ⟨0x150008, 4, 15, 0⟩
def PWR_POWER_peak_dw : Fld := ⟨0x150008, 4, 31, 16⟩
def PWR_TEMP_DIE_junction_max : Fld := ⟨0x15000C, 4, 10, 0⟩
def PWR_TEMP_DIE_hot_sensor : Fld := ⟨0x15000C, 4, 15, 11⟩
def PWR_TEMP_DIE_junction_peak : Fld := ⟨0x15000C, 4, 26, 16⟩
def PWR_TEMP_BASE_base : Fld := ⟨0x150010, 4, 10, 0⟩
def PWR_TEMP_BASE_dram_max : Fld := ⟨0x150010, 4, 26, 16⟩
def PWR_THERM_CFG_warn_junction : Fld := ⟨0x150014, 4, 7, 0⟩
def PWR_THERM_CFG_warn_power_w : Fld := ⟨0x150014, 4, 25, 16⟩
def PWR_LAST_RESET_why : Fld := ⟨0x150018, 4, 3, 0⟩
def PWR_LAST_RESET_vin_min_dv : Fld := ⟨0x150018, 4, 31, 16⟩
def PWR_LAST_RESET_1_slot_low : Fld := ⟨0x15001C, 4, 31, 0⟩
def PWR_FAULT_COUNT_supply : Fld := ⟨0x150020, 4, 15, 0⟩
def PWR_FAULT_COUNT_thermal : Fld := ⟨0x150020, 4, 31, 16⟩

end F

/-- The heading that holds offset `off`, if any. -/
def findReg (off : Nat) : Option RegSpec :=
  regTable.find? fun r => r.base ≤ off && off < r.base + r.stride * r.count && (off - r.base) % r.stride == 0

/-- The word made of the reset values of the fields chosen by `p`. -/
def RegSpec.resetBy (r : RegSpec) (p : Acc → Bool) : Word :=
  r.fields.foldl (fun w f => if p f.acc then putBits w f.hi f.lo f.reset else w) 0

/-- Sources of fault class (R319 and the source tables of the chapters that own ranges 200 to 247). -/
def faultSources : List Nat :=
  [1, 3, 5, 6, 35, 36, 65, 69, 71, 77, 111, 114, 132, 166, 201, 208, 211, 213, 214, 217,
   225, 227, 229, 230, 231, 235, 241, 243, 247, 248]

/-- The allotted sources of a die (R319); every other number below 256 is reserved. -/
def sourceUsed (n : Nat) : Bool :=
  n ≤ 7 || (32 ≤ n && n ≤ 36) || (64 ≤ n && n ≤ 79) || (96 ≤ n && n ≤ 120) || (128 ≤ n && n ≤ 133) ||
  (160 ≤ n && n ≤ 167) || (192 ≤ n && n ≤ 196) || (200 ≤ n && n ≤ 219) || (224 ≤ n && n ≤ 255)

/-- Reset value of EVT_CFG_n: priority 4 or 8, target 4, wake_en 1 for fault class. Reserved sources read zero. -/
def evtCfgReset (n : Nat) : Word :=
  if !sourceUsed n then 0 else if faultSources.contains n then 0xC4 else 0x48

/-- What a block-window offset holds at reset: the stored fields' reset values, and at +0x8000 those of the RWS
fields' active copies (R18). Offsets that name no register hold zero (R16). -/
def resetWord (off : Nat) : Word :=
  if 0x110400 ≤ off && off < 0x110800 then evtCfgReset ((off - 0x110400) / 4)
  else match findReg off with
  | some r => r.resetBy (fun a => a != .live && a != .wo)
  | none =>
    if off % 0x10000 < 0x8000 then 0
    else match findReg (off - 0x8000) with
    | some r => r.resetBy (· == .rws)
    | none => 0

/-- The bits of a register that carry one of the access codes chosen by `p`. -/
def RegSpec.mask (r : RegSpec) (p : Acc → Bool) : Word :=
  r.fields.foldl (fun w f => if p f.acc then w ||| fieldMask f.hi f.lo else w) 0

end Sys2Proof.Machine
end

