-- ==== Sys2Proof/Machine/State.lean ====
section
/-! DEFINITION. The machine's state, as plain data, and the state after reset (R361). -/

namespace Sys2Proof.Machine

/-- The variants (R6). -/
inductive Variant where
  | k262 | k131
  deriving DecidableEq, Repr

/-- Local time (R270): a count of 2^-32 ns from the PTP epoch. -/
abbrev LocalTime := Nat

/-- Where on a lane's line a frame begins: the number of the transmitter's wake, and blocks since then (R221, R223); and the
transmit preset under which it leaves (R243, R253). -/
structure LinePos where
  wake : Nat
  block : Nat
  preset : Nat
  deriving DecidableEq, Repr

/-- What leaves the module at its connectors, in the order it left. The spec fixes these as the module's outputs;
keeping their history in the state is the model's own (DESIGN CHOICE, log entry 3). -/
inductive Output where
  /-- The word that a DRAM read returned to its client (R288, R300): die, client, address and data. -/
  | dramData (d : DieId) (client addr data : Nat)
  /-- A frame sent on a control port: die of the port, 802.1Q tag, destination MAC, PDU bytes. -/
  | frame (port : DieId) (tag : Option Nat) (dst : Nat) (bytes : List Nat)
  /-- An IEEE 1588 message sent on a control port. -/
  | ptp (port : DieId) (bytes : List Nat)
  /-- The word a register read returned to a master. -/
  | readData (m : Master) (v : Word)
  /-- A return or LANE message on a GR_TX lane of a die, six words. -/
  | grist (d : DieId) (lane : Nat) (words : List Nat) (pos : LinePos)
  /-- A TRAIN frame on a GR_TX lane: its header. -/
  | grTrain (d : DieId) (lane : Nat) (header : List Nat) (pos : LinePos)
  /-- A frame on a local blanker lane of a die (R225, R226): its header, and the payload positions whose code or prime is
  not 0, with their values. Its bytes and its blocks on the line follow from these (`Output.lineBlocks`). -/
  | lane (d : DieId) (lane : Nat) (header : List Nat) (payload : List (Nat × Nat)) (pos : LinePos)
  /-- A deflection sample: axis, sequence number, set-point word. -/
  | sample (axis : Nat) (seq : Nat) (word : Nat)
  /-- A STEP pulse of an auxiliary axis. -/
  | step (axis : Nat)
  /-- A new level of an auxiliary axis' DIR or EN_N pin. -/
  | dir (axis : Nat) (level : Bool)
  | enN (axis : Nat) (level : Bool)
  /-- A PH word of an auxiliary axis. -/
  | phase (axis : Nat) (bytes : List Nat)
  /-- A sync message on a sync link. -/
  | sync (linkB : Bool) (origin seq hops : Nat) (msg : SyncMsg)
  deriving DecidableEq, Repr

/-- Which beams a span names (R44, set_kind). -/
inductive BeamSet where
  | all | field | cell | beam | lane | columns | rows | pixel
  deriving DecidableEq, Repr

/-- The `set_kind` code of a beam set (R44). -/
def BeamSet.code : BeamSet → Nat
  | .all => 0 | .field => 1 | .cell => 2 | .beam => 3 | .lane => 4 | .columns => 5 | .rows => 6 | .pixel => 7

/-- One span reported to a die's log writer (R42, R44), before it is written. `slotLast` bounds the slots it covers
(used for R43 only; it is not part of an entry). -/
structure Span where
  job : Nat
  stripe : Nat
  cause : Nat
  vFirst : Nat
  vLast : Nat
  set : BeamSet
  die : DieId
  moduleId : Nat
  setIndex : Nat
  setSpan : Nat
  uFirst : Nat
  uLast : Nat
  slot : Nat
  slotLast : Nat
  passMask : Nat
  /-- Its stripe has ended since it was reported: its entry is closed (R45; not part of an entry). -/
  ended : Bool := false
  deriving DecidableEq, Repr

/-- One entry of the Unwritten Span Log (R44). -/
structure SpanEntry where
  span : Span
  isOpen : Bool
  deriving DecidableEq, Repr

/-- A log's capture buffer (R44): the index whose word 0 was read last, and the words captured. -/
structure Capture where
  idx : Nat
  words : List Word
  deriving DecidableEq, Repr

/-- The Unwritten Span Log of a die and its writer (R42 to R47). -/
structure Evl where
  /-- Entries by index, 0 to 1,023; an index not listed holds zeros. Those that cannot be read are poison (R293, R300). -/
  entries : List (Nat × SpanEntry)
  bad : List Nat
  rd : Nat
  count : Nat
  overflowed : Bool
  capture : Option Capture
  /-- Spans reported and not yet written (R42). -/
  queue : List Span
  /-- Whole-die spans reported for the current stripe (R43). -/
  whole : List Span
  deriving DecidableEq, Repr

/-- State of the Evune link (R28). -/
inductive LinkState where
  | down | training | up
  deriving DecidableEq, Repr

/-- The Evune link (R27 to R29, R434), a module unit. -/
structure Evune where
  link : LinkState
  /-- Lanes in use from die W to die E, one bit each. -/
  maskWE : Nat
  /-- Lanes in use from die E to die W. -/
  maskEW : Nat
  /-- Measured one-way latency of class 0, in ns. -/
  latency : Nat
  /-- Tick of the last retraining attempt or of the loss. -/
  since : Nat
  deriving DecidableEq, Repr

/-- A target's candidate (R323, R329). -/
structure Cand where
  id : Nat
  prio : Nat
  count : Nat
  wake : Bool
  deriving DecidableEq, Repr

/-- One entry of a vector-mode stack (R325). -/
structure StackEntry where
  id : Nat
  group : Nat
  deriving DecidableEq, Repr

/-- Sleep state of a core (R333, R335). -/
inductive Sleep where
  | awake | asleep | woken
  deriving DecidableEq, Repr

/-- One management core as the interrupt controller sees it (R324 to R335). -/
structure EvtCore where
  /-- Delivery mode in effect: true is scan (R324). -/
  scan : Bool
  /-- Active entries, newest first (R325). -/
  stack : List StackEntry
  sleep : Sleep
  /-- The remote candidate last received from the other die (R329). -/
  remote : Option Cand
  /-- Tick at which the core last became unavailable (R334). -/
  unavailSince : Nat
  /-- A sleep request of this tick is to be judged at its end (R335). -/
  sleepAsked : Bool
  deriving DecidableEq, Repr

/-- The interrupt controller of a die (R319 to R336). A source is pending exactly when its count is not 0. -/
structure Evt where
  /-- Event count by source; an unlisted source has 0. -/
  counts : List (Nat × Nat)
  /-- Sources whose sw flag is set (value 1). -/
  sw : List (Nat × Nat)
  /-- Tick at which a pending source became pending (R323). -/
  rose : List (Nat × Nat)
  /-- Tick of the last change of a source's routing (R330, R334). -/
  routed : List (Nat × Nat)
  core0 : EvtCore
  core1 : EvtCore
  /-- Taken messages on their way to the other die: source and count acknowledged (R329). -/
  taken : List (Nat × Nat)
  /-- Occurrences in this tick, by source (R320, R336). -/
  fresh : List (Nat × Nat)
  /-- Sources with a hardware occurrence in this tick (value 1; R336). -/
  hard : List (Nat × Nat)
  deriving DecidableEq, Repr

/-- One entry of the host message queue (R269). -/
structure MsgEntry where
  kind : Nat
  source : Nat
  count : Nat
  time : LocalTime
  deriving DecidableEq, Repr

/-- A MSG awaiting its acknowledgement (R269). -/
structure OutMsg where
  seq : Nat
  lost : Bool
  entries : List MsgEntry
  sentAt : Nat
  /-- Its retry has fallen due in this tick (R269, R276). -/
  again : Bool
  deriving DecidableEq, Repr

/-- A frame ready to leave a control port (R264, R274). -/
structure PortFrame where
  tag : Option Nat
  dst : Nat
  bytes : List Nat
  deriving DecidableEq, Repr

/-- The last request of one source MAC address and its reply (R268); `reply = none` while it is still forwarded. -/
structure Replay where
  mac : Nat
  seq : Nat
  reply : Option PortFrame
  deriving DecidableEq, Repr

/-- A request forwarded to the other die (R267). -/
structure Fwd where
  src : Nat
  tag : Option Nat
  pdu : List Nat
  sentAt : Nat
  /-- Carried out there, its report lost. -/
  lost : Bool
  deriving DecidableEq, Repr

/-- A control port and its message channel (R264 to R269, R274). -/
structure Port where
  link : Bool
  queue : List MsgEntry
  outstanding : Option OutMsg
  /-- `seq` of the last MSG sent. -/
  seq : Nat
  /-- An entry was lost since the last MSG (flags bit 1 of the next). -/
  lostFlag : Bool
  replay : List Replay
  held : List PortFrame
  fwd : List Fwd
  /-- Tick at which the frames launched so far have left the port. -/
  lineFree : Nat
  /-- A schedule window opens in this tick: it is judged at the tick's end, on the stepped time (R276). -/
  openDue : Bool
  deriving DecidableEq, Repr

/-- State of the ordinary clock (CTRL_PTP_STATUS). -/
inductive PtpState where
  | freeRun | locking | locked | holdStep | holdSync
  deriving DecidableEq, Repr

/-- A master heard of (R273): its last Announce, and the ticks of the last ones, newest first. -/
structure Foreign where
  ann : Announce
  heard : List Nat
  deriving DecidableEq, Repr

/-- The ordinary clock (R272, R273, R275), a module unit. -/
structure Ptp where
  state : PtpState
  port : DieId
  /-- Filtered mean path delay in 1/16 ns; `none` before the first measurement. -/
  mpd16 : Option Int
  /-- Latest path-delay measurement. -/
  lastMpd : Int
  /-- Direction of the last outlier, when the last measurement was one. -/
  outlier : Option Bool
  /-- Path-delay measurements discarded. -/
  discards : Nat
  offset : Int
  /-- Receive stamp of the last Sync, in ns, while its origin time is awaited. -/
  syncRx : Option Int
  /-- Receive-minus-origin of the last Sync, in ns. -/
  t2mt1 : Option Int
  /-- Send stamp of the last Delay_Req, in ns. -/
  reqTx : Option Int
  /-- Tick at which the holdover after a step began or was restarted. -/
  holdSince : Nat
  /-- A path-delay step arrived during a holdover caused by Sync loss (R276). -/
  stepInHold : Bool
  /-- The clock has moved to this port in a holdover: it ends at the next offset measurement (R273). -/
  moved : Bool
  /-- Tick of the last Sync message. -/
  lastSync : Nat
  /-- Interval of the Sync messages, in ticks, from their logMessageInterval. -/
  syncInterval : Nat
  /-- The path delay that the last step led to, until the filter is reseeded: further steps are judged from it. -/
  stepRef : Option Int
  /-- The masters heard of, and the one the clock follows (R273). -/
  masters : List Foreign
  parent : Option Nat
  /-- Sequence numbers of the last Sync received and the last Delay_Req sent. -/
  syncSeq : Nat
  reqSeq : Nat
  deriving DecidableEq, Repr

/-- Training sequencer of a Grist lane (R263). -/
structure GrTrain where
  lane : Nat
  preset : Nat
  /-- Tick of the TRAIN frame of the present preset. -/
  at_ : Nat
  /-- eye_h, eye_w and number of the best preset passed so far. -/
  best : Option (Nat × Nat × Nat)
  /-- Scheduled by Calibration Under Live Exposure (R399). -/
  recal : Bool
  deriving DecidableEq, Repr

/-- One lane receiver's PHY state, for blanker and Grist lanes (R224, R245, R250). -/
structure Phy where
  failed : Bool
  preset : Nat
  blockLock : Bool
  descLock : Bool
  frozen : Bool
  eyeH : Nat
  eyeW : Nat
  /-- Tick at which the settling blocks after the last freeze end (R245). -/
  settled : Nat
  /-- Valid sync headers in a row while not in block lock, and slips of the boundary, modulo 33 (R224). -/
  run : Nat
  slip : Nat
  /-- Which of the last 64 sync headers were invalid, the latest in bit 0 (R224). -/
  syncs : Nat
  /-- Blocks of a BL_RX message still to come. -/
  inFrame : Nat
  /-- The descrambler's register once it is loaded, idle blocks that have descrambled to zero since, and which of the last
  16 idle blocks did not, in lock (R224). -/
  desc : Option Nat
  zeros : Nat
  idles : Nat
  /-- The transmitter's wakes, and the tick of the last (R223, R244). -/
  wakes : Nat
  wokeAt : Nat
  /-- The lane's last training was passed, and no other has begun since (R251). -/
  passed : Bool
  deriving DecidableEq, Repr

/-- The Grist lanes of a die (R252 to R263). -/
structure GrLanes where
  lanes : List (Nat × Phy)
  setId : Nat
  mask : Nat
  aligned : Bool
  /-- Round count of the last ALIGN round. -/
  alignCount : Option Nat
  /-- Tick of the last ALIGN round. -/
  alignAt : Nat
  returnAwake : Bool
  /-- Tick at which the return lane woke; its first message leaves 2 µs later (R259). -/
  wokeAt : Nat
  /-- Next message after a wake must be a CREDIT (R259). -/
  creditFirst : Bool
  /-- Tick of the last LANE message. -/
  laneMsgAt : Nat
  /-- Reason of the last set change. -/
  reason : Nat
  training : List GrTrain
  /-- TRAIN frames to send: lane, aux byte, tick (R244, R263). -/
  trainOut : List (Nat × Nat × Nat)
  /-- A lane of the set has lost lock, and the set is to change (R260). -/
  setDue : Bool
  /-- Data words of the block in progress, oldest first (R257). -/
  rx : Option (List Nat)
  /-- The receive area lacked the granules of the block in progress, or no descriptor was free, when its header arrived (R65). -/
  rxShort : Bool
  /-- ALIGN rounds of this tick, judged at its end (R276). -/
  alignDue : List (List AlignBlock)
  deriving DecidableEq, Repr

/-- State of a FIGURES block (R78 to R80, R85). -/
inductive BlockState where
  /-- Accepted, waiting for the verify decoder. -/
  | waiting
  | verifying
  /-- Verified, waiting for the feed decoder. -/
  | verified
  | feeding
  /-- Fed, or treated as fed (R80). -/
  | fed
  /-- Its last outcome was a NACK; rows it covers have this cause (R85). -/
  | nacked (cause : Nat)
  deriving DecidableEq, Repr

/-- A FIGURES block of a held stripe whose header was accepted (R60, R67). `held` is true while it uses a descriptor
and granules; its payload is kept with it (log entry 5). -/
structure Block where
  seq : Nat
  vFirst : Nat
  vLast : Nat
  resend : Bool
  compLen : Nat
  origLen : Nat
  origCrc : Nat
  payload : List Nat
  state : BlockState
  held : Bool
  /-- Acceptance order, for the verify queue (R78). -/
  order : Nat
  /-- An unchecked resend of a block last NACKed leaves the NACK as the last outcome until it is judged (R85). -/
  lastNack : Option Nat
  deriving DecidableEq, Repr

/-- A job on a die (R56, R58), with what its job record will say (R360). -/
structure Job where
  id : Nat
  closing : Bool
  /-- Local time of the JOB_OPEN acceptance, and M then. -/
  openedAt : LocalTime
  openMeas : List Nat
  /-- Changes of M, stripes started and not begun, and span entries written while the job was open on the die. -/
  changes : Nat
  started : Nat
  notBegun : Nat
  spans : Nat
  overflowed : Bool
  maint : Bool
  deriving DecidableEq, Repr

/-- A mark that clears the trust of rows (R36), stripe-relative and inclusive. -/
structure Mark where
  lo : Nat
  hi : Nat
  cause : Nat
  /-- The mark leaves the rows' figures unknown, so R111 spreads it. -/
  unknown : Bool
  deriving DecidableEq, Repr

/-- A Tun row (R35, R36, R116). A row not listed is neither rasterized nor released. -/
structure Row where
  /-- Gray levels over the die's raster range, once rasterized or filled; an empty list is all zero. -/
  gray : Option (List Nat)
  /-- Taster comparisons of tiles that cover the row and are still to complete. -/
  tasting : List Nat
  /-- The seam margin has arrived and been judged, or the row needs none. -/
  seamOk : Bool
  seamUnchecked : Bool
  released : Bool
  /-- Cause found after the row was released. -/
  late : Option Nat
  marginSent : Bool
  /-- Tun words (32 columns each) found bad, with their cause (R299). -/
  bad : List (Nat × Nat)
  /-- On a K262, once rasterized or filled: the gray levels of the eight margin columns, which are held apart from the Tun
  row (R116), and those of the die's own eight columns nearest the seam, for the margin message (R124). -/
  edge : Option (List Nat × List Nat)
  deriving DecidableEq, Repr

/-- A figure's shape in doubled-free coordinates q (R93). -/
inductive Shape where
  | rect (u0 v0 u1 v1 : Int)
  | trapH (v0 v1 uL0 uR0 uL1 uR1 : Int)
  | trapV (u0 u1 vB0 vT0 vB1 vT1 : Int)
  | trapD (a0 a1 bL0 bR0 bL1 bR1 : Int)
  deriving DecidableEq, Repr

/-- A figure held by the Kiln: a base shape, repeated nu by nv times (R94, R114). -/
structure Fig where
  cls : Nat
  shape : Shape
  nu : Nat
  nv : Nat
  du : Int
  dv : Int
  isRepeat : Bool
  rowFirst : Nat
  rowLast : Nat
  deriving DecidableEq, Repr

/-- The configuration a stripe is bound to by R117: register words and table entries that differ from reset. -/
structure Binding where
  densEn : Bool
  tile : Nat
  sxLog2 : Nat
  words : List (Nat × Word)
  tables : List (Nat × Word)
  /-- Measurement word 0 in force (R165, meas_tag). -/
  meas : Nat
  deriving DecidableEq, Repr

/-- A stripe's play (R157 to R161). -/
structure Play where
  entry : Nat
  bound : Bool
  failed : Bool
  /-- Chunks read. -/
  chunks : List Nat
  deriving DecidableEq, Repr

/-- A held stripe (R57). -/
structure Stripe where
  job : Nat
  id : Nat
  vFirst : Nat
  vLast : Nat
  blocks : List Block
  /-- block_seq of the accepted STRIPE_CLOSE. -/
  closeSeq : Option Nat
  /-- The lowest block_seq not yet fed. -/
  nextFeed : Nat
  binding : Option Binding
  figs : List Fig
  /-- Figures of the block being fed are discarded from here on (R97, R159). -/
  discarding : Bool
  marks : List Mark
  rows : List (Nat × Row)
  /-- Runs of rows, first and last, already reported to the log writer; those of seam columns 2^40 above. -/
  reported : List (Nat × Nat)
  started : Bool
  ended : Bool
  /-- The other die has reported that it holds the stripe (R124). -/
  otherHolds : Bool
  play : Option Play
  /-- The directory entry of the stripe's store, while it lasts (R148). -/
  store : Option Nat
  /-- rot of R120, once the die has begun rasterizing the stripe. -/
  rot : Option Nat
  /-- Sampled raster tiles begun and not compared yet: column, row, and the engine that rasterizes the tile (R113). -/
  tiles : List (Nat × Nat × Nat)
  deriving DecidableEq, Repr

/-- A return or LANE message that waits (R75, R260): its first five words, and the v_first of the FIGURES block that a NACK
names, from which its timing is taken when it leaves. -/
structure ReturnMsg where
  words : List Nat
  first : Option Nat
  deriving DecidableEq, Repr

/-- Grist reception of a die (R55 to R76). -/
structure Grist where
  jobs : List Job
  stripes : List Stripe
  granted : Nat
  descGranted : Nat
  /-- Counters as last sent in a CREDIT. -/
  sentGranted : Nat
  sentDesc : Nat
  creditAt : Nat
  creditDirty : Bool
  restart : Bool
  /-- Identity of the last block whose header was accepted: job, stripe, block_seq. -/
  last : Option (Nat × Nat × Nat)
  order : Nat
  /-- Return messages waiting for the return lane. -/
  returnQ : List ReturnMsg
  /-- Stripes that are no longer held, with those of their blocks that are still to be verified or are being decoded
  (R72, R78). -/
  gone : List Stripe
  deriving DecidableEq, Repr

/-- The decoders of a die (R77 to R80): the block each works on, as (job, stripe, block_seq). -/
structure Mash where
  verify : Option (Nat × Nat × Nat)
  feed : Option (Nat × Nat × Nat)
  /-- Word offset of the next record the feed decoder delivers. -/
  feedPos : Nat
  /-- Lines of the block that the feed decoder has consumed (R284). -/
  feedTaken : Nat
  deriving DecidableEq, Repr

/-- A margin message of a row (R124): gray levels of the sender's own eight columns nearest the seam, or a flag. -/
structure Margin where
  job : Nat
  stripe : Nat
  row : Nat
  /-- `none` is the untrusted flag. -/
  gray : Option (List Nat)
  deriving DecidableEq, Repr

/-- A sampled raster tile waiting for its Taster comparison (R120, R121). -/
structure Sample where
  job : Nat
  stripe : Nat
  tx : Nat
  ty : Nat
  deriving DecidableEq, Repr

/-- Kiln and Taster of a die (R113 to R125). -/
structure Kiln where
  /-- Stripes that the die has begun rasterizing since reset (R120). -/
  begun : Nat
  /-- Each engine's last 64 sampled tiles, newest first: true is a mismatch (R122). -/
  hist : List (Nat × List Bool)
  /-- The last 256 sampled tiles, newest first: the engine of a mismatch (R123). -/
  recent : List (Option Nat)
  suspect : Bool
  /-- Engines retired, and not enabled again since (R122); KILN_ENGINE_RETIRED only records that they were. -/
  retired : List Nat
  /-- Margin messages on their way to the other die. -/
  marginOut : List Margin
  /-- Margin messages received for rows that this die has not rasterized yet. -/
  marginIn : List Margin
  /-- Seam-mismatch messages on their way to the other die: job, stripe, row. -/
  mismatchOut : List (Nat × Nat × Nat)
  /-- STRIPE_OPEN reports on their way to the other die: job, stripe. -/
  openOut : List (Nat × Nat)
  /-- Reports received for stripes that this die does not hold yet. -/
  heard : List (Nat × Nat)
  deriving DecidableEq, Repr

/-- A stripe's view on a die (R137), with what the scheduler and Grist bind at S0 beside it. -/
structure View where
  stripe : Nat
  job : Nat
  vFirst : Nat
  rows : Nat
  s0 : Nat
  slots : Nat
  passLog2 : Nat
  sxLog2 : Nat
  syLog2 : Nat
  window : Nat
  tol : Nat
  compEn : Bool
  lead : Nat
  bank : Nat
  /-- Table entries of the active copies that differ from reset. -/
  tables : List (Nat × Word)
  /-- Unit words (active copies) that differ from reset. -/
  units : List (Nat × Word)
  /-- Herd enable received in the swap commit (R34, R377). -/
  herdEnable : Bool
  failedLanes : List Nat
  exposing : Bool
  closed : Nat
  openBeams : Nat
  /-- Unit words of units disabled by a swap within the stripe (R142): unit offset and first slot. -/
  disabledAt : List (Nat × Nat)
  /-- Lanes that failed within the stripe (R143): logical lane and first slot. -/
  failedAt : List (Nat × Nat)
  deriving DecidableEq, Repr

/-- Shadow checks of a die: a running check and the last outcome (R138, R197). -/
structure Check where
  busy : Bool
  passed : Bool
  kind : Nat
  index : Nat
  deriving DecidableEq, Repr

/-- State of a directory entry as stored; an entry that is ready reads as playing while a played stripe bound to it is
held (R165). -/
inductive EntryState where
  | free | storing | ready | freeing
  /-- Ready, and freed by the host in this clock: it is freed in the next (R162). -/
  | ending
  deriving DecidableEq, Repr

/-- A chunk's record in DRAM, without the zeros that fill it up (R151): its 16-byte head and its stream. -/
structure Chunk where
  head : List Nat
  stream : List Nat
  deriving DecidableEq, Repr

/-- A chunk record on its way to DRAM and back (R153): the entry, the record, and whether it is being read back. -/
structure CaskWrite where
  entry : Nat
  chunk : Chunk
  reading : Bool
  deriving DecidableEq, Repr

/-- A directory entry of the Cask (R148, R165). -/
structure CaskEntry where
  state : EntryState
  effort : Nat
  sxLog2 : Nat
  plays : Nat
  job : Nat
  stripe : Nat
  rows : Nat
  granules : Nat
  units : Nat
  meas : Nat
  holeRows : Nat
  chunks : List Chunk
  /-- Rows the compressor has taken (R150), and those of them not yet committed, oldest first: `none` is a hole. -/
  taken : Nat
  staged : List (Option (List Nat))
  /-- Tick in which the host freed it (R163). -/
  askedAt : Nat
  deriving DecidableEq, Repr

/-- The Cask of a die. -/
structure Cask where
  /-- Entries that are not free, by number. -/
  entries : List (Nat × CaskEntry)
  freeGranules : Nat
  storeEntry : Nat
  playEntry : Nat
  capture : Option Capture
  /-- Entries being stored, oldest first. -/
  storing : List Nat
  /-- Granules freed in a tick: the tick and their number (R156). -/
  freedAt : Nat
  freed : Nat
  /-- Tick of the last arming of each play descriptor (R157). -/
  armedAt : List (Nat × Nat)
  /-- Entries being stored whose free the host has written in this clock (R163). -/
  asked : List Nat
  /-- The record being committed (R153). -/
  writing : Option CaskWrite
  /-- The chunk being read for a play: stripe, chunk, and its lines (R160). -/
  fetching : Option (Nat × Nat × Nat)
  /-- Entries whose directory word is poison (R293, R300). -/
  badDir : List Nat
  deriving DecidableEq, Repr

/-- Channel states (R170). -/
inductive ChanState where
  | off | noLock | valid | lost | invalid
  deriving DecidableEq, Repr

/-- Speed states (R173): `moving true` is direction +1. -/
inductive Speed where
  | still
  | moving (fwd : Bool)
  deriving DecidableEq, Repr

/-- What the extrapolation of R174 uses: a word's position, its effective time and v_s, in force after a tick. -/
structure Extrap where
  pos : Nat
  t : Nat
  v : Int
  since : Nat
  deriving DecidableEq, Repr

/-- One speed-tracking channel: of a position channel, or of an auxiliary encoder (R173, R216). -/
structure SpeedTrack where
  speed : Speed
  /-- ref of still, or e of moving. -/
  ref : Nat
  /-- Consecutive words beyond the band, and their direction. -/
  beyond : Nat
  beyondFwd : Bool
  /-- Reports made since the last entry to moving. -/
  reports : Nat
  /-- The longest run of latest words that stay within ±band of one value, newest first: position and time. -/
  rest : List (Nat × Nat)
  deriving DecidableEq, Repr

/-- A position channel (R166 to R173). -/
structure Chan where
  state : ChanState
  lock : Bool
  rearmed : Bool
  prevSeq : Option Nat
  refSeen : Bool
  status : Nat
  seq : Nat
  /-- Last accepted word and its stamp. -/
  pos : Nat
  stamp : Nat
  /-- Accepted words since the span began, newest first: position and effective time (R172). -/
  words : List (Nat × Nat)
  cur : Extrap
  old : Extrap
  track : SpeedTrack
  provisional : Bool
  /-- Tick of the last change of state, and the state at the start of that tick (R190). -/
  changedAt : Option Nat
  was : ChanState
  /-- Tick of the last change of the speed state, and the speed state at the start of that tick (R190). -/
  trackedAt : Option Nat
  speedWas : Speed
  /-- The receiver's last 64 symbols, newest first, with true for a coding error, and the tick of the last K28.1 or K28.5
  (R166). -/
  errors : List Bool
  commaAt : Nat
  deriving DecidableEq, Repr

/-- A compare unit's state beside its registers (R184): the tick of arming, whether it has been behind since, and the
ticks in which it was last disarmed and last fired. -/
structure Cmp where
  armedAt : Nat
  behind : Bool
  offAt : Option Nat
  firedAt : Option Nat
  deriving DecidableEq, Repr

/-- The position channels PX, PY and PYAW of die W (R166). -/
structure Chans where
  px : Chan
  py : Chan
  pyaw : Chan
  deriving DecidableEq, Repr

/-- Scheduler modes (R178). -/
inductive Mode where
  | idle | armed | exposing
  deriving DecidableEq, Repr

/-- What the scheduler does at the end of a tick (R190): fire the next stripe slot, start the stripe, or end it at its last
boundary. -/
inductive SchedDue where
  | slot | start | finish
  deriving DecidableEq, Repr

/-- The slot scheduler (R174 to R187), a module unit on die W. -/
structure Sched where
  mode : Mode
  stripe : Nat
  /-- Number of the last slot fired, and its tick. -/
  slot : Nat
  slotAt : Nat
  /-- Number of the last slot decided and its tick: ahead of the slot fired by lat_ns on the buck of a herd (R367). -/
  decided : Nat
  decidedAt : Nat
  /-- Tick at which the present idle period began. -/
  idleAt : Nat
  s0 : Nat
  n : Nat
  delta : Nat
  phi : Int
  inc : Int
  hwm : Nat
  start : Nat
  axis : Nat
  sense : Nat
  armedAt : Nat
  /-- The start compare has been behind since arming (R184). -/
  behind : Bool
  /-- An arming that R118 turns into a stripe not begun, with its cause. -/
  doomed : Option Nat
  limitKhz : Nat
  slow : Bool
  /-- Tick of the last condition that keeps STAGE_SLOW asserted. -/
  slowAt : Nat
  /-- Largest forward displacement of an accepted scan word since S0 (R180). -/
  dmax : Option Int
  turnOpen : Bool
  calOpen : Bool
  /-- Tick in which the calibration window was last closed, and whether the last stripe slot fell in one (R394). -/
  calClosedAt : Option Nat
  calRun : Bool
  /-- Tick of the last opening of a turnaround window. -/
  turnAt : Option Nat
  cmps : List (Nat × Cmp)
  /-- The stripe is to end early in this tick, with this cause (R187, R313, R40). -/
  ending : Option Nat
  /-- A boundary or the start compare of this tick: what else happens in the tick is taken with it at its end (R190). -/
  due : Option SchedDue
  /-- Tick in which a stripe last ended at its boundary, and its stripe_id (R315). -/
  endedAt : Option Nat
  endedId : Nat
  /-- The frames of stripe slot 0 are still to be launched (R230), and the rows that were missing when they were built,
  for dies W and E. -/
  armData : Bool
  missingW : List Nat
  missingE : List Nat
  /-- Module, die, beam and code of the calibration burst slot fired last, if it was one (R392). -/
  burst : Option (Nat × DieId × Nat × Nat)
  deriving DecidableEq, Repr

/-- What the generator binds at S0 (R192): active register words and active table entries that differ from reset. -/
structure DeflView where
  words : List (Nat × Word)
  tables : List (Nat × Word)
  deriving DecidableEq, Repr

/-- The tracking deflection generator (R192 to R201), on die W. -/
structure Defl where
  /-- Number of the last sample tick, 20 core ticks each (R194). -/
  samples : Nat
  /-- `seq` of the next sample. -/
  seq : Nat
  check : Check
  /-- What was bound at S0, until the stripe ends (R192). -/
  bound : Option DeflView
  deriving DecidableEq, Repr

/-- What an auxiliary axis is doing. In homing, `fwd` is the direction of the search and `back` says that it is the
reversed one of R213. -/
inductive Motion where
  | rest
  | move
  /-- A stop command brakes to rest (AXIS_CMD op 2). -/
  | stopping
  | faulted
  | search (fwd back : Bool)
  /-- Braking at dec_lim after the expected limit, before the reversed search (R213 step 3). -/
  | turning (fwd : Bool)
  /-- Braking to rest after the index (R213 step 2). -/
  | latched
  /-- Moving to the home position. -/
  | toHome
  deriving DecidableEq, Repr

/-- A limit input of an axis (R209, R210): pin level, since when, filtered activity, and ticks of its recent edges. -/
structure LimitIn where
  raw : Bool
  since : Nat
  active : Bool
  edges : List Nat
  deriving DecidableEq, Repr

/-- What the limit and index events of a profile tick have done, for a chatter fault of the same tick (R217): the tick, the bit
of AXIS_FAULT_n that one has set, whether that bit was set before, and AXIS_INDEX_n before the tick. -/
structure AxisNote where
  profile : Nat
  bit : Option Nat
  wasSet : Bool
  index : Nat
  deriving DecidableEq, Repr

/-- An auxiliary axis (R202 to R217). -/
structure Axis where
  /-- Position and velocity in 2^-32 microsteps (R203). -/
  x : Int
  v : Int
  motion : Motion
  /-- Step ticks and profile ticks done since reset. -/
  steps : Nat
  profiles : Nat
  /-- Microsteps issued: a pulse held back by a change of DIR leaves it behind floor(x) (R203). -/
  out : Int
  /-- DIR as last driven, in terms of x: true is increasing; and the level of the pin (R203). -/
  dir : Bool
  dirPin : Bool
  /-- `braking_begun` and `over` of R206, and that `over` has been set in this move (R207). -/
  braking : Bool
  overrun : Bool
  overSeen : Bool
  homed : Bool
  /-- The holding current is in force, and the profile tick in which it last came into force (R208, R217). -/
  atHold : Bool
  heldAt : Nat
  /-- Tick from which still_ms counts: of the last STEP pulse, the last motion begun, or reset (R208). -/
  stepAt : Nat
  /-- Profile tick count before which a motion does not begin (R208). -/
  startAt : Nat
  homeTarget : Int
  limFwd : LimitIn
  limRev : LimitIn
  note : AxisNote
  /-- Encoder count, 32 bits. -/
  enc : Nat
  encA : Bool
  encB : Bool
  /-- Encoder counts at the last estimates, newest first, with their ticks; and the speed states (R216). -/
  encWords : List (Nat × Nat)
  encTrack : SpeedTrack
  encProvisional : Bool
  encSpeed : Int
  estimates : Nat
  deriving DecidableEq, Repr

/-- Where a logical lane is carried (BLNK_MAP_n). -/
inductive MapState where
  | home | handover | spareTemp | sparePerm | inPlace | failed
  deriving DecidableEq, Repr

/-- A logical lane's place. -/
structure LaneMap where
  lane : Nat
  state : MapState
  /-- Slots from which an in-place training blanks the lane are logged until this lane resumes (R248). -/
  resumeAfter : Nat
  deriving DecidableEq, Repr

/-- Handover phases (R240). -/
inductive HoPhase where
  | wake | mirror | switch | release
  deriving DecidableEq, Repr

/-- A handover in a spare group (R240, R241). -/
structure Handover where
  lam : Nat
  fromLane : Nat
  toLane : Nat
  phase : HoPhase
  /-- Tick of the phase's start. -/
  at_ : Nat
  /-- First slot of the phase, and echo groups judged unconfirmed in it. -/
  slot : Nat
  groups : Nat
  /-- The mirror phase has been confirmed and the switch waits for the next group. -/
  ready : Bool
  /-- The handover was started to retrain lane A; true is a scheduled recalibration. -/
  train : Option Bool
  /-- The switch phase failed and the lane goes back to A. -/
  back : Bool
  /-- Lane A has only crossed the bad-frame count, so that it waits for a spare rather than train in place (R248). -/
  soft : Bool
  deriving DecidableEq, Repr

/-- One parameter bank as last loaded (R232, R233). -/
structure Bank where
  loaded : Bool
  tag : Nat
  window : Nat
  /-- Trim and remap entries that differ from reset, as loaded. -/
  tables : List (Nat × Word)
  /-- Segments sent, 0 to 8; segment s goes out on every lane together. -/
  nextSeg : Nat
  /-- The slot that follows the last segment: echoes of groups that ended before it say nothing about the load. -/
  sentSlot : Nat
  /-- Logical lanes whose echo reported the bank complete with the tag. -/
  confirmed : List Nat
  /-- An echo has reported the bank lost (R233), or a stripe started without it (R235). -/
  lost : Bool
  deriving DecidableEq, Repr

/-- A fired slot as the lanes carried it, kept until its echo deadline (R238). -/
structure SlotRec where
  slot : Nat
  /-- Stripe slot k, for a stripe slot. -/
  k : Option Nat
  /-- Logical lanes that are to send GO, or have sent it. -/
  go : List Nat
  /-- Lanes of the slot: logical lane, local lane, mirror. -/
  carriers : List (Nat × Nat × Bool)
  /-- Tick in which the slot fired, and whether its trigger has left. -/
  firedAt : Nat
  sent : Bool
  /-- Epoch in force at the slot. -/
  epoch : Nat
  bank : Nat
  deriving DecidableEq, Repr

/-- A good echo (R237): the local lane it arrived on and what it reports. -/
structure Echo where
  lane : Nat
  lam : Nat
  mirror : Bool
  epoch : Nat
  good : Nat
  bad : Nat
  deriving DecidableEq, Repr

/-- An echo group under judgement (R237, R238). -/
structure EchoGroup where
  base : Nat
  slots : List SlotRec
  /-- Good echoes of the group. -/
  echoes : List Echo
  /-- Tick at which the trigger of the group's last slot was launched. -/
  launched : Option Nat
  deriving DecidableEq, Repr

/-- Training of a blanker lane (R247 to R250). -/
structure LaneTrain where
  lane : Nat
  preset : Nat
  /-- Tick of the TRAIN frame of the present preset, and whether it has left: a lane that slept sends idle first (R244). -/
  at_ : Nat
  sent : Bool
  txOk : Nat
  rxOk : Bool
  best : Option (Nat × Nat × Nat)
  /-- The logical lane of a training in place, and its state before (R248, R250). -/
  inPlace : Option Nat
  was : MapState
  /-- A retry of a failed lane by command. -/
  retry : Bool
  /-- Tick at which the sequence began, and the preset that the lane had (R400). -/
  begun : Nat
  had : Nat
  /-- Scheduled by Calibration Under Live Exposure (R399). -/
  recal : Bool
  deriving DecidableEq, Repr

/-- Blanker lanes of a die (R219 to R251). -/
structure Blnk where
  epoch : Nat
  /-- Logical lanes not on their home lane in state home. -/
  map : List (Nat × LaneMap)
  hos : List Handover
  bankInUse : Nat
  /-- The bank that the next stripe names; the other is the spare bank (R233, R234). -/
  named : Nat
  bank0 : Bank
  bank1 : Bank
  nextTag : Nat
  groups : List EchoGroup
  phys : List (Nat × Phy)
  training : List LaneTrain
  /-- Lanes waiting for their group's spare before retraining; true is a scheduled recalibration. -/
  waiting : List (Nat × Bool)
  /-- Totals of bad frames in the last 16 echo groups, per local lane: first slot of the group and total, newest first
  (R247). -/
  badHist : List (Nat × List (Nat × Nat))
  /-- Consecutive missing echoes per local lane. -/
  missed : List (Nat × Nat)
  /-- PHY_TRAIN_STATUS of the last training: lane, outcome, preset, rx_ok, tx_ok. -/
  lastTrain : Nat × Nat × Nat × Bool × Nat
  /-- Logical lanes still without a confirmed bank since S0 (R235). -/
  bankWait : List Nat
  /-- Lanes failed by a verdict that acts from the next slot fired (R250). -/
  verdicts : List Nat
  /-- Rows of the stripe reported so far, as the last one plus 1, of each lane and cause whose slots are blanked (key 256 × lane + cause). -/
  cov : List (Nat × Nat)
  /-- Slot of the DATA frames launched last, and the tick at which their launch ends. -/
  dataSlot : Option Nat
  dataEnd : Nat
  /-- Tick of the last triggers, and the tick until which a PARAM segment takes the lanes (R230, R231). -/
  trigAt : Nat
  paramEnd : Nat
  /-- On die W, the slot whose DATA frames left the seam columns blank because the link was down (R29). -/
  seamDark : Option Nat
  /-- The slot whose DATA frames left units dark because a swap was to disable them at it, and those units (R142). -/
  swapDark : Option (Nat × List Nat)
  deriving DecidableEq, Repr

/-- A stored DRAM word (R287): its 64 data bits and the syndrome its 72 stored bits give, so that the check byte need
not be known. Clean words have syndrome 0; the poison word is (P, 0xFF). -/
structure DWord where
  data : Nat
  syn : Nat
  deriving DecidableEq, Repr

/-- An entry of the correctable-error log (R294, R305). -/
structure EccEntry where
  region : Nat
  channel : Nat
  /-- 1 tracking, 2 retired, 3 stuck. -/
  state : Nat
  bit : Nat
  checkBit : Bool
  recurrence : Nat
  syndrome : Nat
  corrections : Nat
  /-- DRAM byte address of the word, or SRAM word index. -/
  addr : Nat
  firstTime : LocalTime
  lastTime : LocalTime
  lastSlot : Nat
  /-- Ticks of the entry's taking and of its last correction. -/
  taken : Nat
  lastAt : Nat
  deriving DecidableEq, Repr

/-- A fill of DRAM_FILL_CTRL under way (R291), with its word. -/
structure Fill where
  word : DWord
  base64k : Nat
  size64k : Nat
  deriving DecidableEq, Repr

/-- A training operation under way (R286). -/
structure TrainOp where
  channel : Nat
  op : Nat
  pattern : Nat
  line : Nat
  lines : Nat
  pat : Nat
  deriving DecidableEq, Repr

/-- A page whose retirement copy is running (R297). -/
structure PageCopy where
  channel : Nat
  page : Nat
  spare : Nat
  /-- Tick at which it began. -/
  at_ : Nat
  deriving DecidableEq, Repr

/-- A read of a client that waits to be served (R48, R280): the core that reads, for management; the word's address; bits that
have changed in the stored word and whether the write-back of its last correction is pending, as the read will find; and how
many younger requests have been served before it. -/
structure DramReq where
  client : Nat
  core : Option Nat
  addr : Nat
  flips : List Nat
  early : Bool
  passed : Nat
  deriving DecidableEq, Repr

/-- What an SRAM word holds beside its contents (R289, R293): poison in their place, and stored bits that have changed. -/
structure SramState where
  poison : Bool
  flips : List Nat
  deriving DecidableEq, Repr

/-- The DRAM controller and error logs of a die (R277 to R306), but for the words stored. -/
structure DramCtl where
  /-- Channels that have completed a training operation since reset, one bit each. -/
  trained : Nat
  /-- The channels are in service (after the boot fill), and those in self-refresh. -/
  active : Bool
  asleep : Nat
  /-- Refresh multiplier code by channel: 0 is 1×, 1 is 2×, 2 is 4×. -/
  mult : List (Nat × Nat)
  /-- Tick of the last request by channel. -/
  lastReq : List (Nat × Nat)
  /-- Refresh intervals postponed, by 16 × channel + bank. -/
  postponed : List (Nat × Nat)
  /-- Open row plus 1, by 16 × channel + bank (R280). A bank not listed is closed, or holds an open value that accesses to
  addresses which the spec does not show have left (`rowSeed`). -/
  openRows : List (Nat × Nat)
  rowSeed : Option Nat
  rateUpdates : Nat
  /-- Fills under way, oldest first. The boot fill is not listed. -/
  fills : List Fill
  train : Option TrainOp
  panic : Bool
  periods : Nat
  /-- Budgets in force in this period, transactions used, and clients that stalled (R48, R52). -/
  budgets : List Nat
  used : List (Nat × Nat)
  stalled : Nat
  /-- Reads that wait, oldest first (R280). -/
  queue : List DramReq
  /-- Lines that a class of requests waits for (R48, R50). -/
  owed : List (Nat × Nat)
  /-- Transactions of this tick by channel (R281). -/
  flown : List (Nat × Nat)
  /-- Tick in which a client was last served (R52). -/
  lastAt : List (Nat × Nat)
  /-- Level of the Tun-fill buffer, and lines of the block being fed, or of the chunk being played, that it has not asked for
  yet (R284). -/
  level : Nat
  fetchLeft : Nat
  playLeft : Nat
  /-- The correctable-error log: index and entry; an index not listed is empty. -/
  log : List (Nat × EccEntry)
  logCapture : Option Capture
  /-- Words corrected in this tick: region and address (R303). -/
  fixedNow : List (Nat × Nat)
  /-- SRAM words whose check does not hold, or that hold poison (R289, R293): 16 × word index + region. -/
  sram : List (Nat × SramState)
  /-- Retirement table (R306): 256 × channel + spare index, and the page it replaces. -/
  retired : List (Nat × Nat)
  /-- Pages with a copy running, oldest first. -/
  copies : List PageCopy
  /-- Next line of the scrubber, tick at which its lap began, scrub-slow raised in this lap, poison lines so far. -/
  scrubLine : Nat
  lapAt : Nat
  lapSlow : Bool
  lapPoison : Nat
  sramLapAt : Nat
  /-- Areas (base and size in 64 KiB) that Grist reception or the Cask has used since they were last filled: where a
  word lies there is not specified, so their contents are open; and the words in them that another client has written since the
  last such use, by number. -/
  opened : List (Nat × Nat)
  written : List Nat
  deriving DecidableEq, Repr

/-- The interlock inputs and the gate of a die (R307 to R316). -/
structure Ilk where
  /-- Raw level of each input, one bit each. -/
  raw : Nat
  /-- Filtered goodness of each input. -/
  good : Nat
  gateOpen : Bool
  /-- A source 10 closing that is not released: force_close or reset (R316). -/
  forced : Bool
  /-- A gate-closed report is on its way to the other die. -/
  report : Bool
  /-- The first two conditions of R316 held when last judged (for automatic requests). -/
  wasReady : Bool
  /-- A reopen request is pending, to be judged at the end of the tick; true is a written one (R316, R318). -/
  request : Option Bool
  /-- Tick in which the gate last closed, while it is closed. -/
  closedAt : Option Nat
  /-- Tick of the last force_close write (R318). -/
  forcedAt : Option Nat
  /-- Tick in which a write of ILK_POL last changed an input's raw goodness, by input (R308). -/
  polAt : List (Nat × Nat)
  deriving DecidableEq, Repr

/-- State of a management core (CFG_MC_CTRL). -/
inductive McState where
  | running | stopped | reloading
  deriving DecidableEq, Repr

/-- A management core and its watchdog (R356). -/
structure Mc where
  state : McState
  /-- Last stop: 0 none, 1 machine check, 2 watchdog, 3 command. -/
  cause : Nat
  kickAt : Nat
  since : Nat
  /-- Its instruction memory and its data memory as its image sections were loaded, from byte 0 on; zeros follow (R290, R339). -/
  code : List Nat
  data : List Nat
  deriving DecidableEq, Repr

/-- The job log of a die (R359, R360): records by index, each 32 words. -/
structure JobLog where
  records : List (Nat × List Word)
  rd : Nat
  count : Nat
  /-- Records stored since boot, and the last chain value, 32 bytes (R360). -/
  seq : Nat
  chain : List Nat
  /-- Records lost since the last stored record, while an episode of a full log lasts. -/
  lost : Nat
  capture : Option Capture
  deriving DecidableEq, Repr

/-- A check unit (R350, R351). -/
structure ChkUnit where
  /-- 0 free, 1 local core 0, 2 local core 1, 3 control port. -/
  owner : Nat
  /-- Algorithm of the computation running, and its register before the final XOR. -/
  algo : Nat
  reg : Nat
  busy : Bool
  error : Bool
  /-- DRAM range under way: die address and bytes. -/
  addr : Nat
  len : Nat
  deriving DecidableEq, Repr

/-- The four check units of a die (R350). -/
structure ChkUnits where
  u0 : ChkUnit
  u1 : ChkUnit
  u2 : ChkUnit
  u3 : ChkUnit
  deriving DecidableEq, Repr

/-- A die's hidden copy of its shadowed set, made by preparation (R346). -/
structure PendingCopy where
  regs : List (Nat × Word)
  tables : List (Nat × Word)
  /-- Shadow words that arrived as poison: table addresses. -/
  poison : List Nat
  deriving DecidableEq, Repr

/-- An armed swap (R346). -/
structure Swap where
  /-- Mode 1 acts at a slot number. -/
  slot : Option Nat
  armedAt : Nat
  /-- The initial swap of boot (R344). -/
  initial : Bool
  /-- Ready reports latched, for dies W and E. -/
  readyW : Bool
  readyE : Bool
  /-- Herd members that have reported ready. -/
  members : List Nat
  /-- A shadow write (3) or a disarm write (4) of this tick ends the swap at the tick's end, unless the swap point comes in
  the tick (R348, R349); and the checks that failed before the first such write. -/
  ending : Option Nat
  checks : List Nat
  /-- Its swap point comes in this tick: it is judged at the tick's end (R346, R349). -/
  due : Bool
  deriving DecidableEq, Repr

/-- Boot stage (CFG_STATUS): the codes are 0 to 6 in this order. `held` is before reset release. -/
inductive Stage where
  | held | image | dram | configuration | lanes | ready | recovery
  deriving DecidableEq, Repr

/-- Maintenance state (R353). -/
inductive Maint where
  | boot | locked | opened | lockout
  deriving DecidableEq, Repr

/-- An image as judged at boot (CFG_IMAGE_A, CFG_IMAGE_B). -/
structure ImageInfo where
  seq : Nat
  valid : Bool
  why : Nat
  deriving DecidableEq, Repr

/-- A flash operation under way (R337, R372). -/
structure FlashOp where
  op : Nat
  device : Nat
  addr : Nat
  buffer : List Word
  deriving DecidableEq, Repr

/-- A signature verify under way (R354): challenge, duration and the response words. -/
structure Verify where
  challenge : List Nat
  duration : Nat
  resp : List Word
  deriving DecidableEq, Repr

/-- Configuration, start-up and access control, module-wide (chapter 13). -/
structure Cfg where
  stage : Stage
  imageB : Bool
  fallback : Bool
  recSkipped : Nat
  imageA : ImageInfo
  imageBInfo : ImageInfo
  /-- Image that the next boot must use (R342): false is A. -/
  forceImage : Option Bool
  /-- Missed boot deadlines in a row (R342). -/
  missed : Nat
  /-- Tick of reset release. -/
  releasedAt : Nat
  /-- SHA-256 of the running image and of the active configuration, and M in force (R357). -/
  dImg : List Nat
  meas : List Nat
  measBusy : Bool
  /-- The public key of the running image (R338). -/
  keyX : Nat
  keyY : Nat
  swap : Option Swap
  maint : Maint
  failCount : Nat
  challenge : List Nat
  /-- The challenge is unused (CFG_LOCK_STATUS.challenge). -/
  challengeFresh : Bool
  verify : Option Verify
  /-- Tick at which open access ends. -/
  openUntil : Nat
  /-- Maintenance was opened since the module reset (state word bit 0). -/
  maintOpened : Bool
  flashOp : Option FlashOp
  flashError : Bool
  /-- Swaps of this module done under the herd, and the herd enable of the last commit (R377). -/
  herdEnable : Bool
  deriving DecidableEq, Repr

/-- What survives a module reset: the flash devices (bytes by address, an unlisted byte is erased), the boot counter, and the
extents that a reset cut short in being programmed or erased (R429): device, first byte, bytes. -/
structure NonVolatile where
  flash0 : List (Nat × Nat)
  flash1 : List (Nat × Nat)
  bootCount : Nat
  torn : List (Nat × Nat × Nat)
  deriving DecidableEq, Repr

/-- Herd states (R370), coded 0 to 5 in this order. -/
inductive HerdRole where
  | standalone | joining | member | buck | lost | refused
  deriving DecidableEq, Repr

/-- The herd settings section in use (R368). -/
structure HerdSettings where
  expected : Nat
  buckOk : Nat
  failover : Bool
  lat : Nat
  formMs : Nat
  groupMac : Nat
  /-- CRC-32C of the section (R366, R370). -/
  crc : Nat
  deriving DecidableEq, Repr

/-- Another module of the herd, as this one knows it. -/
structure Peer where
  id : Nat
  /-- Admitted: in state member (on the buck), and since which tick. -/
  admitted : Bool
  admittedAt : Nat
  /-- Declared lost, or refused, since it was last admitted. -/
  gone : Bool
  refused : Bool
  /-- Tick of its last loss. -/
  goneAt : Nat
  /-- A TIME message has been sent since it was heard of, so that its local time is aligned (R370). -/
  aligned : Bool
  heardAt : Nat
  /-- From its latest HELLO: part_code, herd state and settings CRC. -/
  part : Nat
  state : Nat
  crc : Nat
  /-- From its latest STATUS. -/
  status : Option PeerStatus
  /-- Its M, 32 bytes (MEAS). -/
  meas : List Nat
  short : Nat
  long : Nat
  deriving DecidableEq, Repr

/-- A decision of the buck on its way to act (R367): the tick in which it acts, and what it decides: a slot, or the commit
of a swap with the herd unit enable. -/
structure Decision where
  at_ : Nat
  slot : Option SlotMsg
  commit : Option Bool
  deriving DecidableEq, Repr

/-- Herd operation of the module (chapter 14). -/
structure Herd where
  role : HerdRole
  /-- HERD_ADDR read at reset release. -/
  addr : Nat
  buckId : Nat
  settings : Option HerdSettings
  /-- Tick at which boot completed, for form_timeout_ms; and at which the module entered lost. -/
  bootAt : Nat
  lostAt : Nat
  linkA : Bool
  linkB : Bool
  seq : Nat
  peers : List Peer
  /-- Origin and sequence number of messages acted on, newest first (R366). -/
  seen : List (Nat × Nat)
  armReason : Nat
  formed : Bool
  decisions : List Decision
  hellos : Nat
  statuses : Nat
  times : Nat
  /-- HERD_MEAS, and whether it is to be recomputed (R363). -/
  meas : List Nat
  measDirty : Bool
  /-- M last sent in a MEAS message. -/
  measSent : List Nat
  /-- Last slot whose triggers this module launched (STATUS). -/
  launched : Nat
  /-- CTRL_PTP_STATUS.state of the buck, as a member reads it (R373). -/
  buckPtp : Nat
  /-- The receivers of SYNC_A and SYNC_B (R365). -/
  rxA : Phy
  rxB : Phy
  /-- Sequence number of the last HELLO sent, by which a copy of it that comes round the ring is known (R371). -/
  helloSeq : Option Nat
  /-- Local time has been aligned to a buck's by a TIME message (R370, R373). -/
  aligned : Bool
  /-- What the buck's messages have told: the slot fired last, its scheduler mode, and that a swap is armed (R373, R384). -/
  buckSlot : Option Nat
  buckMode : Nat
  buckSwap : Bool
  /-- A lost module has taken part in an election since the loss (R383). -/
  elected : Bool
  /-- On the buck: the herd word of each die is failed (R31, R34). -/
  failedW : Bool
  failedE : Bool
  deriving DecidableEq, Repr

/-- What the calibration engine is doing (R389, R395). The gap and span phases are parts of a burst (R392, R393). -/
inductive CalPhase where
  | idle
  /-- A step waits for a calibration window. -/
  | waiting
  | zero
  /-- The settling gap before a burst, the burst's slots, and the 5 µs after its last slot. -/
  | gap | slots | span
  | chainZero | chainRef
  deriving DecidableEq, Repr

/-- Which burst of a step runs: the background, or a beam position at code_lo or code_hi. -/
inductive BurstKind where
  | background
  | beam (pos : Nat) (hi : Bool)
  deriving DecidableEq, Repr

/-- A step under way (R395): its cell, and the selected positions still to be measured, ascending. -/
structure CalStep where
  die : DieId
  cell : Nat
  moduleId : Nat
  left : List Nat
  qBg : Int
  qLo : Int
  deriving DecidableEq, Repr

/-- A result to be written into a beam's shadow trim entry (R397): its position, die and beam, the values, and whether the result
registers still show it. -/
structure HeldResult where
  pos : Nat
  die : DieId
  beam : Nat
  gain : Nat
  prime : Nat
  shown : Bool
  deriving DecidableEq, Repr

/-- Dose calibration, on die W (R387 to R398, R402). -/
structure Cal where
  phase : CalPhase
  phaseAt : Nat
  chainWanted : Bool
  step : Option CalStep
  burst : BurstKind
  /-- The range in effect, and the measurement under way: samples summed, their number, a clipped sample. -/
  range : Nat
  sum : Int
  count : Nat
  clipped : Bool
  z : Int
  /-- Slots of the burst fired, and faults met in it: gate, echo (R393). -/
  fired : Nat
  slotAt : Nat
  gateHit : Bool
  echoHit : Bool
  /-- GO slots whose echo is still awaited, with their burst (2 × position, plus 1 at code_hi; 128 for the background); and
  those that an echo has found unconfirmed. -/
  goSlots : List (Nat × Nat)
  badEcho : List Nat
  /-- Slots of the burst under way, and a window in which a burst was discarded. -/
  n : Nat
  spent : Bool
  samples : Nat
  kChain : Nat
  chainSeq : Nat
  /-- Tick of the last pass. -/
  passAt : Option Nat
  pass : Bool
  clip : Bool
  /-- Results to be written (R397). -/
  held : List HeldResult
  lastDiscard : Nat
  /-- Samples in the capture buffer, oldest first, and the ring's write position in bytes. -/
  capture : List Nat
  capPos : Nat
  deriving DecidableEq, Repr

/-- Lane recalibration of a die (R399 to R401). -/
structure LaneCal where
  next : Nat
  busy : Bool
  outcome : Nat
  /-- Tick at which the previous recalibration ended. -/
  endedAt : Nat
  /-- The turn of lane `next` has fallen, and when. -/
  due : Bool
  dueAt : Nat
  /-- The lane has yielded: it starts again at the opening of a turnaround window (R400). -/
  yielded : Bool
  /-- A retraining of the lane by R247 counts as its recalibration (R403). -/
  counts : Bool
  /-- Tick of the last training by local lane. -/
  trainedAt : List (Nat × Nat)
  deriving DecidableEq, Repr

/-- The supply and thermal monitor (R418 to R430). -/
structure Pwr where
  /-- Supply good holds (R418). -/
  good : Bool
  /-- A supply fault or trip awaiting its reset: tick of detection and PWR_LAST_RESET.why. -/
  fault : Option (Nat × Nat)
  /-- A thermal trip holds the module in reset until the base has been cool for 10 s (R423). -/
  hot : Bool
  /-- Tick since which the base has been below 115 °C. -/
  coolSince : Option Nat
  vinWarn : Bool
  powerWarn : Bool
  railLow : Bool
  /-- Last reading of each sensor in 0.5 °C: 0 to 31 the junctions of die W, 32 to 63 of die E, 64 the base, 65 the
  hottest DRAM device. -/
  temps : List (Nat × Int)
  /-- The reference of die W or E is absent, or its PLL has no lock: reset is not released (R344). -/
  noClockW : Bool
  noClockE : Bool
  /-- The junction warnings of dies W and E, and the base warning, that have been raised and still hold (R422). -/
  warnW : Bool
  warnE : Bool
  warnBase : Bool
  /-- The conditions detected since the fault that awaits its reset, by PWR_LAST_RESET.why. -/
  seen : List Nat
  deriving DecidableEq, Repr

/-- Unit bits that hardware has set in the present tick: span_pending and fault of cells, fields and the half's own (R19). -/
structure UnitBits where
  cellPend : BitVec 2048
  cellFault : BitVec 2048
  fieldPend : BitVec 32
  fieldFault : BitVec 32
  topPend : BitVec 3
  topFault : BitVec 3
  deriving DecidableEq, Repr

/-- The state of one die. `regs` holds every stored register word of the block windows that differs from its reset
value (active copies at offset + 0x8000, R18), `tables` every table entry that differs (active copies at
address + 0x100_0000), `caps` the upper words captured by R20. -/
structure Die where
  regs : List (Nat × Word)
  tables : List (Nat × Word)
  caps : List (Nat × Word)
  evl : Evl
  evt : Evt
  mc0 : Mc
  mc1 : Mc
  port : Port
  gr : GrLanes
  grist : Grist
  mash : Mash
  kiln : Kiln
  view : Option View
  /-- Views bound before it, newest first, that fired slots whose echo is still judged belong to (R238). -/
  pastViews : List View
  mapCheck : Check
  cask : Cask
  blnk : Blnk
  /-- Active table entries found unreadable, with their cause, until a swap rewrites them (R299): shadow address. -/
  badTables : List (Nat × Nat)
  /-- The stripe's span of a bad entry has been reported: (address) for the view bound. -/
  badLogged : List Nat
  dram : DramCtl
  ilk : Ilk
  jlog : JobLog
  chk : ChkUnits
  pendingCopy : Option PendingCopy
  laneCal : LaneCal
  /-- Units whose span_pending and fault bits are set: cells, fields, and the half's own (R31). -/
  cellPend : BitVec 2048
  cellFault : BitVec 2048
  fieldPend : BitVec 32
  fieldFault : BitVec 32
  topPend : BitVec 3
  topFault : BitVec 3
  /-- What hardware has set or counted in the present tick (R19): unit bits; and by field (64 × offset + low bit) what has
  been added to a count, the peak reached, or 1 for a W1C bit. -/
  unitsNow : UnitBits
  setNow : List (Nat × Nat)
  /-- Clock fault (R39), and the tick at which it was detected. -/
  clockFault : Bool
  /-- All lanes forced to all-zero payloads until a stripe start (R29, R39): the cause, or 0. -/
  hold : Nat
  deriving DecidableEq, Repr

/-- Both dies. -/
structure Dies where
  w : Die
  e : Die
  deriving DecidableEq, Repr

/-- The module but for its DRAM contents and the queue of commands. `now` counts core ticks since reset. -/
structure Chip where
  variant : Variant
  now : Nat
  time : LocalTime
  /-- The increment of local time in force, in 2^-32 ns per tick (R270). -/
  inc : Nat
  evune : Evune
  ptp : Ptp
  chans : Chans
  sched : Sched
  defl : Defl
  axis0 : Axis
  axis1 : Axis
  cfg : Cfg
  nv : NonVolatile
  /-- Module id in effect: 0 when the module stands alone (R369). -/
  ownId : Nat
  /-- Herd members that hold their gate closed by a source of their own (R316). -/
  memberGates : List Nat
  herd : Herd
  cal : Cal
  pwr : Pwr
  w : Die
  e : Die
  /-- Both dies as they stood at the start of the present tick, for the rules that judge them there (R19, R85, R157). -/
  start : Dies
  out : List Output
  /-- Uses of open values so far (Config.freeValue); the model's own field. -/
  free : Nat
  deriving DecidableEq, Repr

/-- The machine: the queue of commands, the module, and the DRAM of each die as a sparse map from word index (die
address / 8) to stored word, in canonical form: indices rising, and no entry equal to the poison word, which is what a
word never written holds (R287, R291). -/
structure State where
  pending : List Instr
  chip : Chip
  dramW : List (Nat × DWord)
  dramE : List (Nat × DWord)
  deriving DecidableEq, Repr

/-- Why a step faults. The module has no fault that stops it, so nothing raises this one. -/
inductive Fault where
  /-- Raised by no command: kept so that the type is inhabited. Safe. -/
  | stopped
  deriving DecidableEq, Repr

/-- Why a step is refused. -/
inductive Refusal where
  /-- Raised by an arm of `exec` whose command has no meaning yet. Safe: the machine stops. -/
  | notModelled (mnemonic : String)
  deriving DecidableEq, Repr

/-- The outcome of a command. -/
abbrev Res := Host.Outcome State Fault Refusal

/-! ### The state after a module reset (R361) -/

/-- A lane's PHY after reset: transmit preset 4 (PHY_BL_n), no lock. -/
def Phy.fresh : Phy :=
  { failed := false, preset := 4, blockLock := false, descLock := false, frozen := false, eyeH := 0, eyeW := 0
    settled := 0, run := 0, slip := 0, syncs := 0, inFrame := 0, desc := none, zeros := 0, idles := 0, wakes := 0
    wokeAt := 0, passed := false }

def Evl.reset : Evl := ⟨[], [], 0, 0, false, none, [], []⟩
def Evune.reset : Evune := ⟨.down, 0, 0, 0, 0⟩
def EvtCore.reset : EvtCore := ⟨false, [], .awake, none, 0, false⟩
def Evt.reset : Evt := ⟨[], [], [], [], .reset, .reset, [], [], []⟩
def Port.reset : Port := ⟨false, [], none, 0, false, [], [], [], 0, false⟩
def Ptp.reset : Ptp := ⟨.freeRun, .w, none, 0, none, 0, 0, none, none, none, 0, false, false, 0, 0, none, [], none, 0, 0⟩
def GrLanes.reset : GrLanes := ⟨[], 0, 0, false, none, 0, true, 0, true, 0, 0, [], [], false, none, false, []⟩
def Grist.reset : Grist := ⟨[], [], 0, 0, 0, 0, 0, false, true, none, 0, [], []⟩
def Mash.reset : Mash := ⟨none, none, 0, 0⟩
def Kiln.reset : Kiln := ⟨0, [], [], false, [], [], [], [], [], []⟩
def Check.passed0 : Check := ⟨false, true, 0, 0⟩
def Cask.reset : Cask := ⟨[], 0, 0, 0, none, [], 0, 0, [], [], none, none, []⟩
def Bank.reset : Bank := ⟨false, 0, 0, [], 0, 0, [], false⟩
def Blnk.reset : Blnk :=
  { epoch := 0, map := [], hos := [], bankInUse := 0, named := 0, bank0 := .reset, bank1 := .reset, nextTag := 1,
    groups := [], phys := [], training := [], waiting := [], badHist := [], missed := [],
    lastTrain := (0, 0, 0, false, 0), bankWait := [], verdicts := [], cov := [], dataSlot := none, dataEnd := 0, trigAt := 0, paramEnd := 0, seamDark := none, swapDark := none }
def Ilk.reset : Ilk := ⟨0, 0, false, true, false, false, none, none, none, []⟩
def Mc.reset : Mc := ⟨.running, 0, 0, 0, [], []⟩
def JobLog.reset : JobLog := ⟨[], 0, 0, 0, [], 0, none⟩
def ChkUnit.reset : ChkUnit := ⟨0, 0, 0, false, false, 0, 0⟩
def DramCtl.reset : DramCtl :=
  { trained := 0, active := false, asleep := 0, mult := [], lastReq := [], postponed := [], openRows := [],
    rowSeed := none, rateUpdates := 0, fills := [], train := none, panic := false, periods := 0,
    budgets := [5120, 5120, 256, 128, 1536, 1536, 256], used := [], stalled := 0, queue := [], owed := [], flown := [], lastAt := [],
    level := 0, fetchLeft := 0, playLeft := 0, log := [], logCapture := none, fixedNow := [], sram := [],
    retired := [], copies := [], scrubLine := 0, lapAt := 0, lapSlow := false, lapPoison := 0, sramLapAt := 0, opened := [],
    written := [] }
def LaneCal.reset : LaneCal := ⟨0, false, 0, 0, false, 0, false, false, []⟩
def Extrap.reset : Extrap := ⟨0, 0, 0, 0⟩
def SpeedTrack.reset : SpeedTrack := ⟨.still, 0, 0, false, 0, []⟩
/-- A position channel after reset: R361 has the channels in no lock, as R170 does while SLOT_POS_CTRL.en is 0b111. -/
def Chan.reset : Chan :=
  { state := .noLock, lock := false, rearmed := false, prevSeq := none, refSeen := false, status := 0, seq := 0, pos := 0,
    stamp := 0, words := [], cur := .reset, old := .reset, track := .reset, provisional := false, changedAt := none,
    was := .noLock, trackedAt := none, speedWas := .still, errors := [], commaAt := 0 }
def Sched.reset : Sched :=
  { mode := .idle, stripe := 0, slot := 0, slotAt := 0, decided := 0, decidedAt := 0, idleAt := 0, s0 := 0, n := 0,
    delta := 0, phi := 0, inc := 0, hwm := 0, start := 0, axis := 0, sense := 0, armedAt := 0, behind := false,
    doomed := none, limitKhz := 0, slow := false, slowAt := 0, dmax := none, turnOpen := false, calOpen := false,
    calClosedAt := none, calRun := false, turnAt := none, cmps := [], ending := none, due := none, endedAt := none, endedId := 0, armData := false, burst := none,
    missingW := [], missingE := [] }
def Defl.reset : Defl := ⟨0, 0, .passed0, none⟩
def LimitIn.reset : LimitIn := ⟨false, 0, false, []⟩
def Axis.reset : Axis :=
  { x := 0, v := 0, motion := .rest, steps := 0, profiles := 0, out := 0, dir := false, dirPin := false,
    braking := false, overrun := false, overSeen := false, homed := false, atHold := false, heldAt := 0, stepAt := 0,
    startAt := 0, homeTarget := 0, limFwd := .reset, limRev := .reset, note := ⟨0, none, false, 0⟩, enc := 0, encA := false, encB := false, encWords := [], encTrack := .reset, encProvisional := false,
    encSpeed := 0, estimates := 0 }
def ImageInfo.reset : ImageInfo := ⟨0, false, 0⟩
def Cfg.reset : Cfg :=
  { stage := .held, imageB := false, fallback := false, recSkipped := 0, imageA := .reset, imageBInfo := .reset,
    forceImage := none, missed := 0, releasedAt := 0, dImg := [], meas := [], measBusy := false, keyX := 0, keyY := 0,
    swap := none, maint := .boot, failCount := 0, challenge := [], challengeFresh := false, verify := none, openUntil := 0,
    maintOpened := false, flashOp := none, flashError := false, herdEnable := true }
def NonVolatile.reset : NonVolatile := ⟨[], [], 0, []⟩
def Herd.reset : Herd :=
  { role := .standalone, addr := 7, buckId := 0, settings := none, bootAt := 0, lostAt := 0, linkA := false,
    linkB := false, seq := 0, peers := [], seen := [], armReason := 0, formed := false, decisions := [], hellos := 0,
    statuses := 0, times := 0, meas := [], measDirty := false, measSent := [], launched := 0,
    buckPtp := 0, rxA := .fresh, rxB := .fresh, helloSeq := none, aligned := false, buckSlot := none, buckMode := 0,
    buckSwap := false, elected := false, failedW := false, failedE := false }
def Cal.reset : Cal :=
  { phase := .idle, phaseAt := 0, chainWanted := false, step := none, burst := .background, range := 1, sum := 0,
    count := 0, clipped := false, z := 0, fired := 0, slotAt := 0, gateHit := false, echoHit := false, goSlots := [], badEcho := [], n := 0, spent := false,
    samples := 0, kChain := 65536, chainSeq := 0, passAt := none, pass := false, clip := false,
    held := [], lastDiscard := 0, capture := [], capPos := 0 }
def Pwr.reset : Pwr :=
  { good := true, fault := none, hot := false, coolSince := none, vinWarn := false, powerWarn := false, railLow := false, temps := []
    noClockW := false, noClockE := false, warnW := false, warnE := false, warnBase := false, seen := [] }

def UnitBits.none : UnitBits := ⟨0, 0, 0, 0, 0, 0⟩

/-- A die after a module reset: every register at its reset value, every block as R361 says. -/
def Die.reset : Die :=
  { regs := [], tables := [], caps := [], evl := .reset, evt := .reset, mc0 := .reset, mc1 := .reset, port := .reset,
    gr := .reset, grist := .reset, mash := .reset, kiln := .reset, view := none, pastViews := [], mapCheck := .passed0, cask := .reset,
    blnk := .reset, badTables := [], badLogged := [], dram := .reset, ilk := .reset, jlog := .reset,
    chk := ⟨.reset, .reset, .reset, .reset⟩, pendingCopy := none, laneCal := .reset, cellPend := 0, cellFault := 0,
    fieldPend := 0, fieldFault := 0, topPend := 0, topFault := 0, unitsNow := .none, setNow := [], clockFault := false, hold := 0 }

/-- The module after a module reset. -/
def Chip.reset (variant : Variant) : Chip :=
  { variant := variant, now := 0, time := 0, inc := 2 ^ 32, evune := .reset, ptp := .reset, chans := ⟨.reset, .reset, .reset⟩,
    sched := .reset, defl := .reset, axis0 := .reset, axis1 := .reset, cfg := .reset, nv := .reset, ownId := 0,
    memberGates := [], herd := .reset, cal := .reset, pwr := .reset, w := .reset, e := .reset, start := ⟨.reset, .reset⟩,
    out := [], free := 0 }

/-- The machine right after reset, a K262, with no command waiting and nothing written to its DRAM. -/
def State.reset : State := { pending := [], chip := .reset .k262, dramW := [], dramE := [] }

end Sys2Proof.Machine
end

