-- ==== Sys2Proof/Machine/Ops.lean ====
section
/-! DEFINITION. Named operations over the state: sparse maps in canonical form, the registers of a die, free values. -/

namespace Sys2Proof.Machine

/-! ### Sparse maps: a list of (key, value) pairs, keys strictly rising, no value equal to the default -/

/-- The value at a key; a key not listed holds the default. -/
def smGet {α : Type} (dflt : α) (k : Nat) : List (Nat × α) → α
  | [] => dflt
  | (k', v) :: l => if k' = k then v else smGet dflt k l

/-- Insert or replace a pair, keeping keys rising. -/
def smInsert {α : Type} (k : Nat) (v : α) : List (Nat × α) → List (Nat × α)
  | [] => [(k, v)]
  | (k', v') :: l =>
    if k < k' then (k, v) :: (k', v') :: l
    else if k = k' then (k, v) :: l
    else (k', v') :: smInsert k v l

/-- Remove a key. -/
def smErase {α : Type} (k : Nat) : List (Nat × α) → List (Nat × α)
  | [] => []
  | (k', v') :: l => if k' = k then smErase k l else (k', v') :: smErase k l

/-- Write a value: the default is removed, any other value is listed. -/
def smSet {α : Type} [DecidableEq α] (dflt : α) (k : Nat) (v : α) (l : List (Nat × α)) : List (Nat × α) :=
  if v = dflt then smErase k l else smInsert k v l

/-- The canonical form of a sparse map: keys strictly rising, no value equal to its key's default. -/
def smWf {α : Type} [DecidableEq α] (dflt : Nat → α) : List (Nat × α) → Bool
  | [] => true
  | [(k, v)] => v ≠ dflt k
  | (k, v) :: (k', v') :: l => v ≠ dflt k && k < k' && smWf dflt ((k', v') :: l)

/-! ### Dies -/

/-- The state of a die. -/
def Chip.die (c : Chip) : DieId → Die
  | .w => c.w
  | .e => c.e

/-- Change one die. -/
def Chip.onDie (c : Chip) (d : DieId) (f : Die → Die) : Chip :=
  match d with
  | .w => { c with w := f c.w }
  | .e => { c with e := f c.e }

/-- A K262 has both dies (R2, R6). -/
def Chip.two (c : Chip) : Bool := c.variant == .k262

/-- A die is populated (R2). -/
def Chip.hasSilicon (c : Chip) (d : DieId) : Bool := d == .w || c.two

/-- A die is populated, and not held in reset as die E is in recovery mode (R343). -/
def Chip.hasDie (c : Chip) (d : DieId) : Bool := d == .w || (c.two && c.cfg.stage != .recovery)

/-- The dies that are populated and out of reset (R2, R343). -/
def Chip.dies (c : Chip) : List DieId := if c.hasDie .e then [.w, .e] else [.w]

/-! ### Registers -/

/-- The stored word at a block-window offset: the last value held, or the reset value. -/
def Die.reg (x : Die) (off : Nat) : Word := smGet (resetWord off) off x.regs

/-- Store a word. -/
def Die.setReg (x : Die) (off : Nat) (w : Word) : Die := { x with regs := smSet (resetWord off) off w x.regs }

/-- A stored register field (of an RWS field: the shadow copy). -/
def Die.fld (x : Die) (f : Fld) : Nat := bits (x.reg f.off) f.hi f.lo

/-- The active copy of an RWS field (R18). -/
def Die.act (x : Die) (f : Fld) : Nat := bits (x.reg (f.off + 0x8000)) f.hi f.lo

/-- Store a field. -/
def Die.put (x : Die) (f : Fld) (v : Nat) : Die := x.setReg f.off (putBits (x.reg f.off) f.hi f.lo v)

/-- Store the active copy of a field. -/
def Die.putAct (x : Die) (f : Fld) (v : Nat) : Die :=
  x.setReg (f.off + 0x8000) (putBits (x.reg (f.off + 0x8000)) f.hi f.lo v)

/-- Number of a field, for what hardware does to it in a tick. -/
def Fld.key (f : Fld) : Nat := 64 * f.off + f.lo

/-- What hardware has added to a field in this tick (R19). -/
def Die.added (x : Die) (f : Fld) : Nat := smGet 0 f.key x.setNow

/-- Note what hardware does to a field in this tick (R19). -/
def Die.noteNow (x : Die) (f : Fld) (n : Nat) : Die := { x with setNow := smSet 0 f.key n x.setNow }

/-- Add to a count, which stops at its field's largest value. -/
def Die.bumpBy (x : Die) (f : Fld) (n : Nat) : Die :=
  (x.put f (satAdd (2 ^ (f.hi + 1 - f.lo) - 1) (x.fld f) n)).noteNow f (x.added f + n)

/-- Add 1 to a saturating count. -/
def Die.bump (x : Die) (f : Fld) : Die := x.bumpBy f 1

/-- Hardware puts a value into an RC field: it is the field's new count in this tick. -/
def Die.putRc (x : Die) (f : Fld) (v : Nat) : Die := (x.put f v).noteNow f v

/-- Hardware sets a W1C bit: a write of this tick does not clear it (R19). -/
def Die.setBit (x : Die) (f : Fld) : Die := (x.put f 1).noteNow f 1

/-- A field of a die's register. -/
def Chip.fld (c : Chip) (d : DieId) (f : Fld) : Nat := (c.die d).fld f

/-- The active copy of a die's field. -/
def Chip.act (c : Chip) (d : DieId) (f : Fld) : Nat := (c.die d).act f

/-- A one-bit field as a Boolean. -/
def Chip.flag (c : Chip) (d : DieId) (f : Fld) : Bool := c.fld d f == 1

/-- Store a field of a die's register. -/
def Chip.put (c : Chip) (d : DieId) (f : Fld) (v : Nat) : Chip := c.onDie d (·.put f v)

/-- Count in a die's register. -/
def Chip.bump (c : Chip) (d : DieId) (f : Fld) : Chip := c.onDie d (·.bump f)

/-- Hardware sets a W1C bit of a die's register. -/
def Chip.setBit (c : Chip) (d : DieId) (f : Fld) : Chip := c.onDie d (·.setBit f)

/-- A die as it stood at the start of the present tick. -/
def Chip.startDie (c : Chip) : DieId → Die
  | .w => c.start.w
  | .e => c.start.e

/-- Change a die's record of the tick's start. -/
def Chip.onStart (c : Chip) (d : DieId) (f : Die → Die) : Chip :=
  match d with
  | .w => { c with start := { c.start with w := f c.start.w } }
  | .e => { c with start := { c.start with e := f c.start.e } }

/-- The module as it stood at the start of the present tick, the common state aside. -/
def Chip.atStart (c : Chip) : Chip := { c with w := c.start.w, e := c.start.e }

/-- A tick begins: the dies as they stand are its start, and hardware has set nothing in it yet. -/
def Chip.markStart (c : Chip) : Chip :=
  let fresh (x : Die) : Die :=
    { x with unitsNow := .none, setNow := [], evt := { x.evt with fresh := [], hard := [] } }
  { c with w := fresh c.w, e := fresh c.e, start := ⟨fresh c.w, fresh c.e⟩ }

/-- Store several fields. -/
def Chip.puts (c : Chip) (d : DieId) (l : List (Fld × Nat)) : Chip := l.foldl (fun c p => c.put d p.1 p.2) c

/-! ### Free values and outputs -/

/-- A fresh open value and the state that has used it. -/
def Chip.fresh (c : Chip) : Nat × Chip := (Config.freeValue c.free, { c with free := c.free + 1 })

/-- A fresh open value below a bound. -/
def Chip.freshBelow (c : Chip) (n : Nat) : Nat × Chip := (Config.freeValue c.free % n, { c with free := c.free + 1 })

/-- Something leaves the module. -/
def Chip.emit (c : Chip) (o : Output) : Chip := { c with out := c.out ++ [o] }

/-- A fold over a list of actions on the chip. -/
def Chip.forEach {α : Type} (c : Chip) (l : List α) (f : Chip → α → Chip) : Chip := l.foldl f c

/-- An action taken only under a condition. -/
def Chip.whenB (c : Chip) (b : Bool) (f : Chip → Chip) : Chip := if b then f c else c

/-- The module is out of reset. While it is held in reset no command but those of the supply acts (R361). -/
def Chip.running (c : Chip) : Bool := c.cfg.stage != .held

/-- A command that changes the chip and nothing else of the state answers the next state. -/
def State.nextChip (s : State) (f : Chip → Chip) : Res :=
  .next (if s.chip.running then { s with chip := f s.chip } else s)

/-- A command of the supply, the monitor or the reference: it acts on the chip whether or not the module is held in reset. -/
def State.nextSupply (s : State) (f : Chip → Chip) : Res := .next { s with chip := f s.chip }

/-- A register command outside the SYS and CFG blocks: none of those registers is reachable in recovery mode (R343). -/
def State.nextBus (s : State) (f : Chip → Chip) : Res :=
  s.nextChip fun c => if c.cfg.stage == .recovery then c else f c

/-- Ticks since an earlier tick. -/
def Chip.sinceTick (c : Chip) (t : Nat) : Nat := c.now - t

/-- Ticks of 1 ns in a microsecond, a millisecond and a second (R37). -/
def usTicks : Nat := 1000
def msTicks : Nat := 1000000
def sTicks : Nat := 1000000000

/-- Local time in force on the module, wrapped to the variant's format (R270). -/
def Chip.timeModulus (c : Chip) : Nat := if c.two then 2 ^ 96 else 2 ^ 48 * 1000000000 * 2 ^ 32

/-- Whole nanoseconds of local time. -/
def Chip.timeNs (c : Chip) : Nat := c.time / 2 ^ 32

/-- The three words of CTRL_TIME for a local time, low word first: the K262 and K131 formats of R270. -/
def Chip.timeWords (c : Chip) (t : LocalTime) : List Nat :=
  if c.two then [t % 2 ^ 32, t / 2 ^ 32 % 2 ^ 32, t / 2 ^ 64 % 2 ^ 32]
  else
    let ns := t / 2 ^ 32
    [ns % 1000000000, ns / 1000000000 % 2 ^ 32, ns / 1000000000 / 2 ^ 32 % 2 ^ 16]

/-- SLOT_TICK and every 48-bit stamp: the tick count modulo 2^48. -/
def Chip.tick48 (c : Chip) : Nat := c.now % m48

end Sys2Proof.Machine
end

