-- ==== Sys2Proof/Machine/Evt.lean ====
section
/-! DEFINITION. Events and interrupts (chapter 12, R319 to R336): occurrences, candidates, delivery to the cores and
to the host message queue. -/

namespace Sys2Proof.Machine

/-! ### Cores -/

/-- The interrupt controller's view of local core `k` (0 or 1). -/
def Evt.core (x : Evt) (k : Nat) : EvtCore := if k % 2 = 0 then x.core0 else x.core1

/-- Change one core's view. -/
def Evt.onCore (x : Evt) (k : Nat) (f : EvtCore → EvtCore) : Evt :=
  if k % 2 = 0 then { x with core0 := f x.core0 } else { x with core1 := f x.core1 }

/-- The management core `k` of a die. -/
def Die.mc (x : Die) (k : Nat) : Mc := if k % 2 = 0 then x.mc0 else x.mc1

/-- Change one management core. -/
def Die.onMc (x : Die) (k : Nat) (f : Mc → Mc) : Die :=
  if k % 2 = 0 then { x with mc0 := f x.mc0 } else { x with mc1 := f x.mc1 }

/-- Change a die's interrupt controller. -/
def Chip.onEvt (c : Chip) (d : DieId) (f : Evt → Evt) : Chip := c.onDie d fun x => { x with evt := f x.evt }

/-- The die that holds core `t` of 0 to 3 (MC0 and MC1 on W, MC2 and MC3 on E). -/
def targetDie (t : Nat) : DieId := if t < 2 then .w else .e

/-- The Evune link carries traffic (R28). -/
def Chip.evuneUp (c : Chip) : Bool := c.two && c.evune.link == .up

/-- Another die is reached: the die itself, or the other one while the link is up. -/
def Chip.reaches (c : Chip) (a b : DieId) : Bool := a == b || c.evuneUp

/-- A core cannot take interrupts: it sleeps, is reloading, or is stopped (R334). -/
def Chip.coreDown (c : Chip) (d : DieId) (k : Nat) : Bool :=
  ((c.die d).evt.core k).sleep == .asleep || ((c.die d).mc k).state != .running

/-! ### Sources -/

/-- The register word of a source's EVT_CFG. -/
def Die.evtCfg (x : Die) (n : Nat) : Word := x.reg (0x110400 + 4 * n)

/-- Priority of a source (R322). -/
def Die.evtPrio (x : Die) (n : Nat) : Nat := bits (x.evtCfg n) 3 0

/-- Target of a source: 0 to 3 are MC0 to MC3, 4 is the host, and 5 to 7 act as 4 (R329). -/
def Die.evtTarget (x : Die) (n : Nat) : Nat := min 4 (bits (x.evtCfg n) 6 4)

/-- wake_en of a source. -/
def Die.evtWake (x : Die) (n : Nat) : Bool := bit (x.evtCfg n) 7

/-- A source is enabled (EVT_EN_k). -/
def Die.evtEnabled (x : Die) (n : Nat) : Bool := bit (x.reg (0x110140 + 4 * (n / 32))) (n % 32)

/-- Event count of a source (R320). -/
def Die.evtCount (x : Die) (n : Nat) : Nat := smGet 0 n x.evt.counts

/-- A source is pending (R320). -/
def Die.evtPending (x : Die) (n : Nat) : Bool := x.evtCount n != 0

/-- Fault class (R319). -/
def isFault (n : Nat) : Bool := faultSources.contains n

/-- preempt_bits in force: 5 to 7 act as 4 (R322). -/
def Die.preemptBits (x : Die) : Nat := min 4 (x.fld F.EVT_CTRL_preempt_bits)

/-- The group of a priority: its upper preempt_bits bits (R322). -/
def Die.group (x : Die) (prio : Nat) : Nat := prio / 2 ^ (4 - x.preemptBits)

/-- The module-wide id of a source (R319). -/
def sourceId (d : DieId) (n : Nat) : Nat := (if d = .w then 0 else 256) + n

/-! ### The host message queue (R269) -/

/-- Queue an entry, or lose it to a full queue (R269). -/
def Chip.queueMsg (c : Chip) (d : DieId) (kind source count : Nat) : Chip :=
  if (c.die d).port.queue.length < 64 then
    c.onDie d fun x => { x with port := { x.port with queue := x.port.queue ++ [⟨kind, source, count, c.time⟩] } }
  else
    (c.bump d F.CTRL_MSG_STATUS_lost).onDie d fun x => { x with port := { x.port with lostFlag := true } }

/-- The kind of a host entry (R331). -/
def msgKind (n : Nat) : Nat := if n = 0 then 3 else if isFault n then 2 else 1

/-! ### Occurrences -/

/-- An occurrence by its count and pending bit only (R320). -/
def Chip.occur (c : Chip) (d : DieId) (n : Nat) : Chip :=
  let was := (c.die d).evtCount n
  c.onEvt d fun v => { v with
    counts := smSet 0 n (satAdd 255 was 1) v.counts
    fresh := smInsert n (satAdd 255 (smGet 0 n v.fresh) 1) v.fresh
    rose := if was = 0 then smInsert n c.now v.rose else v.rose }

/-- A hardware occurrence of a source: counted, sw cleared, and a fault copy queued when a fault-class source's count
goes from 0 to 1, unless it is enabled and routed to the host (R320, R321, R332). That is judged on the count at the start of
the tick (R336): it is the source's first hardware occurrence of the tick. -/
def Chip.raise (c : Chip) (d : DieId) (n : Nat) : Chip :=
  if !c.hasDie d || !sourceUsed n then c
  else
    let x := c.die d
    let c1 := (c.occur d n).onEvt d fun v => { v with sw := smErase n v.sw, hard := smInsert n 1 v.hard }
    if isFault n && (c.startDie d).evtCount n == 0 && smGet 0 n x.evt.hard == 0 && !(x.evtEnabled n && x.evtTarget n == 4)
    then c1.queueMsg d 2 n 1 else c1

/-- A hardware occurrence on both dies. -/
def Chip.raiseBoth (c : Chip) (n : Nat) : Chip := (c.raise .w n).raise .e n

/-- Event count of a source without the occurrences of this tick. -/
def Chip.evtBefore (c : Chip) (d : DieId) (n : Nat) : Nat :=
  if (c.die d).evtCount n = 255 then (c.startDie d).evtCount n else (c.die d).evtCount n - smGet 0 n (c.die d).evt.fresh

/-- Several hardware occurrences of a source in one tick. -/
def Chip.raiseTimes (c : Chip) (d : DieId) (n k : Nat) : Chip :=
  (List.range (min k 255)).foldl (fun c _ => c.raise d n) c

/-- The counts of a controller with a source's count set to what is left of it, `k`, and the occurrences of this tick,
which no clear of this tick takes away (R19, R320). -/
def Evt.leave (v : Evt) (n k now : Nat) : Evt :=
  let f := smGet 0 n v.fresh
  { v with
    counts := smSet 0 n (satAdd 255 k f) v.counts
    rose := if k ≠ 0 then v.rose else if f = 0 then smErase n v.rose else smInsert n now v.rose }

/-- Clear a source's pending bit and count, but for the occurrences of this tick; `andSw` also clears its sw flag, but for
a flag set in this tick. -/
def Chip.clearSource (c : Chip) (d : DieId) (n : Nat) (andSw : Bool) : Chip :=
  c.onEvt d fun v => { v.leave n 0 c.now with
    sw := if andSw && smGet 0 n v.fresh = 0 then smErase n v.sw else v.sw }

/-! ### Candidates (R323) -/

/-- The more urgent of two candidates: lower priority value, then lower id. -/
def Cand.better (a b : Cand) : Cand :=
  if b.prio < a.prio || (b.prio == a.prio && b.id < a.id) then b else a

/-- The more urgent of two candidates, either of which may be absent. -/
def betterCand : Option Cand → Option Cand → Option Cand
  | none, b => b
  | a, none => a
  | some a, some b => some (a.better b)

/-- The candidate formed by source `n` of die `d`. -/
def Chip.candOf (c : Chip) (d : DieId) (n : Nat) : Cand :=
  let x := c.die d
  ⟨sourceId d n, x.evtPrio n, x.evtCount n, x.evtWake n⟩

/-- The most urgent source of die `d` that satisfies `p`. -/
def Chip.bestSource (c : Chip) (d : DieId) (p : Nat → Bool) : Option Cand :=
  (c.die d).evt.counts.foldl (fun b q => if p q.1 then betterCand b (some (c.candOf d q.1)) else b) none

/-- A source pending and enabled, raised in an earlier clock (R323; `endOfClock` judges the end of the clock, R335). -/
def Chip.offered (c : Chip) (d : DieId) (endOfClock : Bool) (n : Nat) : Bool :=
  (c.die d).evtPending n && (c.die d).evtEnabled n && (endOfClock || smGet 0 n (c.die d).evt.rose < c.now)

/-- Die `d`'s own candidate for core `t` of 0 to 3. -/
def Chip.localCand (c : Chip) (d : DieId) (t : Nat) (endOfClock : Bool) : Option Cand :=
  let stack := ((c.die (targetDie t)).evt.core t).stack
  c.bestSource d fun n =>
    c.offered d endOfClock n && (c.die d).evtTarget n == t && !(stack.any (·.id == sourceId d n))

/-- The core number (0 to 3) of local core `k` of die `d`. -/
def coreNo (d : DieId) (k : Nat) : Nat := (if d = .w then 0 else 2) + k % 2

/-- The candidate of a core: its die's own, or the remote candidate on the same terms (R323, R329). -/
def Chip.coreCand (c : Chip) (d : DieId) (k : Nat) (endOfClock : Bool) : Option Cand :=
  let core := (c.die d).evt.core k
  let remote := core.remote.filter fun r => !(core.stack.any (·.id == r.id))
  betterCand (c.localCand d (coreNo d k) endOfClock) (if c.evuneUp then remote else none)

/-- A candidate would be delivered by the core's mode (R325, R328). -/
def Die.delivers (x : Die) (k : Nat) (v : Cand) : Bool :=
  (x.evt.core k).scan ||
  match (x.evt.core k).stack with
  | [] => true
  | top :: _ => x.group v.prio < top.group

/-- The core's interrupt request is asserted (R325, R328). -/
def Chip.requests (c : Chip) (d : DieId) (k : Nat) : Bool :=
  ((c.coreCand d k false).map ((c.die d).delivers k)).getD false

/-- A mode written earlier takes effect once the stack is empty (R324). -/
def Die.settleMode (x : Die) (k : Nat) : Die :=
  if (x.evt.core k).stack.isEmpty then
    { x with evt := x.evt.onCore k fun v => { v with scan := x.fld (F.EVT_CORE_CTRL_mode.at k) == 1 } }
  else x

/-! ### What the registers do -/

/-- Write of EVT_SET_k (R321): each 1 is an occurrence and sets sw, unless hardware raises the source in the same tick
(R336); bits of reserved sources are ignored. -/
def Chip.writeEvtSet (c : Chip) (d : DieId) (k : Nat) (v : Word) : Chip :=
  c.forEach ((onesOf 32 v.toNat).map (32 * k + ·)) fun c n =>
    if sourceUsed n then
      (c.occur d n).onEvt d fun e => if smGet 0 n e.hard = 0 then { e with sw := smInsert n 1 e.sw } else e
    else c

/-- Write of EVT_CLR_k (R321). -/
def Chip.writeEvtClr (c : Chip) (d : DieId) (k : Nat) (v : Word) : Chip :=
  c.forEach ((onesOf 32 v.toNat).map (32 * k + ·)) fun c n => c.clearSource d n true

/-- The word EVT_ACK_c and EVT_SCAN_c return for a candidate. -/
def candWord : Option Cand → Word
  | none => 0x3FF
  | some v => word (v.id + v.count % 256 * 1024)

/-- The candidate that a read of this tick finds: judged on the state at the start of the tick (R336), but for what the
core itself has put on its stack since. -/
def Chip.ackCand (c : Chip) (d : DieId) (k : Nat) : Option Cand :=
  (c.atStart.onEvt d fun e => e.onCore k fun f => { f with stack := ((c.die d).evt.core k).stack }).coreCand d k false

/-- Read of EVT_ACK_c (R325, R329): the candidate is pushed and cleared, or a taken message is sent for a remote id.
While the request is not asserted, and in scan mode, it returns 0x3FF and changes nothing. -/
def Chip.readEvtAck (c : Chip) (d : DieId) (k : Nat) : Word × Chip :=
  match c.ackCand d k with
  | none => (candWord none, c)
  | some v =>
    let x := c.die d
    if (x.evt.core k).scan || !c.atStart.requests d k || !x.delivers k v then (candWord none, c)
    else
      let push := c.onEvt d (·.onCore k fun e => { e with stack := ⟨v.id, x.group v.prio⟩ :: e.stack })
      let c' :=
        if v.id / 256 == (if d = .w then 0 else 1) then push.clearSource d (v.id % 256) false
        else push.onEvt d fun e =>
          { e.onCore k (fun f => { f with remote := none }) with taken := e.taken ++ [(v.id % 256, v.count)] }
      (candWord (some v), c')

/-- Read of EVT_SCAN_c (R328): no state changes. In vector mode too it reports the candidate. -/
def Chip.readEvtScan (c : Chip) (d : DieId) (k : Nat) : Word := candWord (c.ackCand d k)

/-- Write of EVT_EOI_c (R326, R327): pops the top entry, or records a completion out of order. Which entry is the top is
judged at the start of the tick (R336): one that an acknowledgement of this tick has put above it stays. -/
def Chip.writeEvtEoi (c : Chip) (d : DieId) (k id : Nat) : Chip :=
  let core := (c.startDie d).evt.core k
  if core.scan then c
  else
    let fault (top : Nat) : Chip :=
      ((c.puts d [(F.EVT_FAULT_core, k % 2), (F.EVT_FAULT_id_written, id), (F.EVT_FAULT_top_id, top)]).bump d
        F.EVT_FAULT_1_count).raise d 248
    match core.stack with
    | [] => fault 0x3FF
    | top :: _ =>
      if top.id == id then
        (c.onEvt d (·.onCore k fun e => { e with stack := e.stack.erase top })).onDie d (·.settleMode k)
      else fault top.id

/-- Write of EVT_CORE_CTRL_c (R324). -/
def Chip.writeCoreCtrl (c : Chip) (d : DieId) (k : Nat) (v : Word) : Chip :=
  ((c.put d (F.EVT_CORE_CTRL_mode.at k) (bits v 0 0)).put d (F.EVT_CORE_CTRL_vector_base.at k) (bits v 31 16)).onDie d
    (·.settleMode k)

/-- Write of EVT_CFG_n (R319, R330): ignored for a reserved source; a change of target restarts the fallback timer. -/
def Chip.writeEvtCfg (c : Chip) (d : DieId) (n : Nat) (v : Word) : Chip :=
  if !sourceUsed n then c
  else
    let x := c.die d
    let c' := c.onDie d (·.setReg (0x110400 + 4 * n) (v &&& 0xFF))
    if min 4 (bits v 6 4) == x.evtTarget n then c'
    else c'.onEvt d fun e => { e with routed := smInsert n c.now e.routed }

/-- A candidate of the core that R333 lets wake it. -/
def Chip.wakes (c : Chip) (d : DieId) (k : Nat) (endOfClock : Bool) : Bool :=
  match c.coreCand d k endOfClock with
  | none => false
  | some v => v.wake && (c.die d).delivers k v

/-- A sleep request (R333): a core that is asleep already has been unavailable since it fell asleep. -/
def Chip.sleepCore (c : Chip) (d : DieId) (k : Nat) : Chip :=
  if ((c.die d).mc k).state != .running then c
  else c.onEvt d (·.onCore k fun e => { e with
    sleep := .asleep, sleepAsked := true, unavailSince := if e.sleep == .asleep then e.unavailSince else c.now })

/-- A sleep request is judged on the end of its clock: a candidate that would wake the core abandons it (R335). -/
def Chip.judgeSleep (c : Chip) (d : DieId) (k : Nat) : Chip :=
  if ((c.die d).evt.core k).sleepAsked then
    c.onEvt d (·.onCore k fun e => { e with
      sleepAsked := false, sleep := if e.sleep == .asleep && c.wakes d k true then .woken else e.sleep })
  else c

/-- While the Evune link is down remote candidates are withdrawn, and taken messages are lost with it (R334). -/
def Chip.withdrawRemote (c : Chip) : Chip :=
  let off (e : EvtCore) : EvtCore := { e with remote := none }
  c.forEach c.dies fun c d => c.onEvt d fun e => { e with core0 := off e.core0, core1 := off e.core1, taken := [] }

/-! ### Fallback and the host target (R331, R334) -/

/-- The target core of a source is of an absent or unreachable die (R334). -/
def Chip.targetGone (c : Chip) (d : DieId) (n : Nat) : Bool :=
  let t := (c.die d).evtTarget n
  t < 4 && (!c.hasDie (targetDie t) || !c.reaches d (targetDie t))

/-- The fallback timer of a source has run out: pending and routed to an unavailable core for timeout_us (R334). -/
def Chip.fallbackDue (c : Chip) (d : DieId) (n : Nat) : Bool :=
  let x := c.die d
  let t := x.evtTarget n
  t < 4 && !c.targetGone d n && c.coreDown (targetDie t) t &&
    (let since := max (smGet 0 n x.evt.rose) (max (smGet 0 n x.evt.routed)
      ((c.die (targetDie t)).evt.core t).unavailSince)
     max 1 (x.fld F.EVT_CTRL_timeout_us) * usTicks ≤ c.now - since)

/-- R334 sends the source to the host; source 249 is never redirected. -/
def Chip.redirected (c : Chip) (d : DieId) (n : Nat) : Bool := n != 249 && (c.targetGone d n || c.fallbackDue d n)

/-- A source the host target may take: enabled, pending, and routed or redirected to the host. -/
def Chip.hostEligible (c : Chip) (d : DieId) (n : Nat) : Bool :=
  c.offered d false n && ((c.die d).evtTarget n == 4 || c.redirected d n)

/-- The host target takes the source in this tick: it was eligible at the tick's start and still waits (R336). -/
def Chip.hostTakes (c : Chip) (d : DieId) (n : Nat) : Bool := c.atStart.hostEligible d n && c.offered d false n

/-- Delivery of a source to the host queue (R331), counted by R334 when it was redirected. -/
def Chip.deliverHost (c : Chip) (d : DieId) (n : Nat) : Chip :=
  let x := c.startDie d
  let c1 := (c.queueMsg d (msgKind n) n (x.evtCount n)).clearSource d n false
  if x.evtTarget n == 4 then c1
  else ((c1.put d F.EVT_HOST_STATUS_last_fallback n).bump d F.EVT_HOST_STATUS_fallbacks).raise d 249

/-- Sources go to the host in the order of priority while the queue has room, until source `n` has gone (R331). -/
def Chip.deliverUpTo (c : Chip) (d : DieId) (n : Nat) : Nat → Chip
  | 0 => c
  | k + 1 =>
    if 64 ≤ (c.die d).port.queue.length then c
    else match c.bestSource d (c.hostTakes d) with
      | none => c
      | some v =>
        let c1 := c.deliverHost d (v.id % 256)
        if v.id % 256 = n then c1 else c1.deliverUpTo d n k

/-! ### Meanings -/

/-- EVT_SET (R320, R321). -/
def execEvtSet (_m : Master) (d : DieId) (k : Nat) (v : Word) (s : State) : Res :=
  s.nextBus fun c => if k < 8 && c.hasDie d then c.writeEvtSet d k v else c

/-- EVT_CLR (R321). -/
def execEvtClr (_m : Master) (d : DieId) (k : Nat) (v : Word) (s : State) : Res :=
  s.nextBus fun c => if k < 8 && c.hasDie d then c.writeEvtClr d k v else c

/-- EVT_ACK (R325). -/
def execEvtAck (m : Master) (d : DieId) (k : Nat) (s : State) : Res :=
  s.nextBus fun c => if k < 2 && c.hasDie d then
    let r := c.readEvtAck d k
    r.2.emit (.readData m r.1) else c

/-- EVT_EOI (R326, R327). -/
def execEvtEoi (_m : Master) (d : DieId) (k id : Nat) (s : State) : Res :=
  s.nextBus fun c => if k < 2 && c.hasDie d then c.writeEvtEoi d k (id % 1024) else c

/-- EVT_SCAN (R328). -/
def execEvtScan (m : Master) (d : DieId) (k : Nat) (s : State) : Res :=
  s.nextBus fun c => if k < 2 && c.hasDie d then c.emit (.readData m (c.readEvtScan d k)) else c

/-- CORE_SLEEP (R333, R335). -/
def execCoreSleep (d : DieId) (k : Nat) (s : State) : Res :=
  s.nextChip fun c => if k < 2 && c.hasDie d then c.sleepCore d k else c

/-- CORE_WAKE (R333): a sleeping core with a waking candidate wakes; both are judged at the start of the tick (R336). -/
def execCoreWake (d : DieId) (k : Nat) (s : State) : Res :=
  s.nextChip fun c =>
    if ((c.startDie d).evt.core k).sleep == .asleep && c.atStart.wakes d k false && c.hasDie d then
      c.onEvt d (·.onCore k fun e => { e with sleep := .awake })
    else c

/-- FALLBACK_TIMEOUT (R334, R336): the redirected source goes to the host while the queue has room, also when its
target wakes in the same tick; more urgent sources that wait for the host go first (R331). -/
def execFallbackTimeout (d : DieId) (n : Nat) (s : State) : Res :=
  s.nextChip fun c =>
    if c.hasDie d && c.hostTakes d n && c.atStart.redirected d n && (c.die d).port.queue.length < 64 then
      c.deliverUpTo d n 256
    else c

/-- REMOTE_CANDIDATE (R329): the remote candidate becomes the other die's candidate for the core, or is withdrawn. -/
def execRemoteCandidate (d : DieId) (k : Nat) (s : State) : Res :=
  s.nextChip fun c =>
    if c.two then
      c.onEvt d (·.onCore k fun e =>
        { e with remote := if c.evuneUp then c.localCand d.other (coreNo d k) false else none })
    else c

/-- TAKEN_MESSAGE (R329): the count acknowledged is subtracted on die `d`, the die of origin. -/
def execTakenMessage (d : DieId) (s : State) : Res :=
  s.nextChip fun c =>
    match (c.die d.other).evt.taken with
    | [] => c
    | (n, k) :: rest =>
      let c1 := c.onEvt d.other fun e => { e with taken := rest }
      if !c.evuneUp then c1 else c1.onEvt d fun e => e.leave n (c.evtBefore d n - k) c.now

/-- EVT_TARGET_WRITE (R330). -/
def execEvtTargetWrite (_m : Master) (d : DieId) (n : Nat) (v : Word) (s : State) : Res :=
  s.nextBus fun c => if n < 256 && c.hasDie d then c.writeEvtCfg d n v else c

/-- EVT_MODE_WRITE (R324). -/
def execEvtModeWrite (_m : Master) (d : DieId) (k : Nat) (v : Word) (s : State) : Res :=
  s.nextBus fun c => if k < 2 && c.hasDie d then c.writeCoreCtrl d k v else c

/-- HOST_QUEUE_DELIVERY (R331): the host target's candidate is queued while the queue has room. -/
def execHostQueueDelivery (d : DieId) (s : State) : Res :=
  s.nextChip fun c =>
    if c.hasDie d && (c.die d).port.queue.length < 64 then
      match c.bestSource d (c.hostTakes d) with
      | none => c
      | some v => c.deliverHost d (v.id % 256)
    else c

end Sys2Proof.Machine
end

