-- ==== Sys2Proof/Machine/Sha.lean ====
section
/-! DEFINITION. SHA-256 (FIPS 180-4) and ECDSA P-256 verification (FIPS 186-5), which the spec names for the measurement,
the job log and maintenance access (R338, R354, R357, R360) without printing them (log entry 20). -/

namespace Sys2Proof.Machine

/-- 32-bit words of a 256-bit number, the highest first. -/
def words256 (n : Nat) : List Nat := (List.range 8).map fun i => n / 2 ^ (32 * (7 - i)) % 2 ^ 32

/-- The round constants of SHA-256, eight to a number: the first 32 fractional bits of the cube roots of the primes up to
311 (`Tests/Slice0.lean` checks that they are). -/
def shaCubeRoots : List Nat :=
  [0x428a2f9871374491b5c0fbcfe9b5dba53956c25b59f111f1923f82a4ab1c5ed5,
   0xd807aa9812835b01243185be550c7dc372be5d7480deb1fe9bdc06a7c19bf174,
   0xe49b69c1efbe47860fc19dc6240ca1cc2de92c6f4a7484aa5cb0a9dc76f988da,
   0x983e5152a831c66db00327c8bf597fc7c6e00bf3d5a7914706ca635114292967,
   0x27b70a852e1b21384d2c6dfc53380d13650a7354766a0abb81c2c92e92722c85,
   0xa2bfe8a1a81a664bc24b8b70c76c51a3d192e819d6990624f40e3585106aa070,
   0x19a4c1161e376c082748774c34b0bcb5391c0cb34ed8aa4a5b9cca4f682e6ff3,
   0x748f82ee78a5636f84c878148cc7020890befffaa4506cebbef9a3f7c67178f2]

/-- The 64 round constants in their order. -/
def shaK : List Nat := shaCubeRoots.flatMap words256

/-- The initial hash value: the first 32 fractional bits of the square roots of the primes up to 19. -/
def shaInit : List Nat := words256 0x6a09e667bb67ae853c6ef372a54ff53a510e527f9b05688c1f83d9ab5be0cd19

/-- Rotation to the right of a 32-bit number. -/
def rotr (n x : Nat) : Nat := x / 2 ^ n + x % 2 ^ n * 2 ^ (32 - n)

/-- The functions of SHA-256 on 32-bit numbers. -/
def shaS0 (x : Nat) : Nat := Nat.xor (Nat.xor (rotr 2 x) (rotr 13 x)) (rotr 22 x)
def shaS1 (x : Nat) : Nat := Nat.xor (Nat.xor (rotr 6 x) (rotr 11 x)) (rotr 25 x)
def shaT0 (x : Nat) : Nat := Nat.xor (Nat.xor (rotr 7 x) (rotr 18 x)) (x / 2 ^ 3)
def shaT1 (x : Nat) : Nat := Nat.xor (Nat.xor (rotr 17 x) (rotr 19 x)) (x / 2 ^ 10)
def shaCh (x y z : Nat) : Nat := Nat.xor (Nat.land x y) (Nat.land (2 ^ 32 - 1 - x) z)
def shaMaj (x y z : Nat) : Nat := Nat.xor (Nat.xor (Nat.land x y) (Nat.land x z)) (Nat.land y z)

/-- The message schedule: 16 words extended to 16 + `n`, kept newest first. -/
def shaSchedule : Nat → List Nat → List Nat
  | 0, w => w
  | n + 1, w =>
    shaSchedule n
      (((shaT1 (w.getD 1 0) + w.getD 6 0 + shaT0 (w.getD 14 0) + w.getD 15 0) % 2 ^ 32) :: w)

/-- One round on the eight working words. -/
def shaRound (v : List Nat) (kw : Nat) : List Nat :=
  match v with
  | [a, b, c, d, e, f, g, h] =>
    let t1 := h + shaS1 e + shaCh e f g + kw
    let t2 := shaS0 a + shaMaj a b c
    [(t1 + t2) % 2 ^ 32, a, b, c, (d + t1) % 2 ^ 32, e, f, g]
  | _ => v

/-- One block of 64 bytes. -/
def shaBlock (h : List Nat) (bytes : List Nat) : List Nat :=
  let w := (List.range 16).map fun i => ofBe ((bytes.drop (4 * i)).take 4)
  let sched := (shaSchedule 48 w.reverse).reverse
  let v := (shaK.zip sched).foldl (fun v p => shaRound v (p.1 + p.2)) h
  (h.zip v).map fun p => (p.1 + p.2) % 2 ^ 32

/-- The padded message. -/
def shaPad (m : List Nat) : List Nat :=
  m ++ 0x80 :: (List.replicate ((119 - m.length % 64) % 64) 0 ++ beBytes 8 (8 * m.length))

/-- The blocks of a padded message. -/
def shaBlocks : Nat → List Nat → List Nat → List Nat
  | 0, h, _ => h
  | n + 1, h, m => shaBlocks n (shaBlock h (m.take 64)) (m.drop 64)

/-- SHA-256 of a list of bytes: 32 bytes. -/
def sha256 (m : List Nat) : List Nat :=
  let p := shaPad m
  (shaBlocks (p.length / 64) shaInit p).flatMap (beBytes 4)

/-! ### P-256 -/

def p256P : Nat := 0xFFFFFFFF00000001000000000000000000000000FFFFFFFFFFFFFFFFFFFFFFFF
def p256N : Nat := 0xFFFFFFFF00000000FFFFFFFFFFFFFFFFBCE6FAADA7179E84F3B9CAC2FC632551
def p256B : Nat := 0x5AC635D8AA3A93E7B3EBBD55769886BC651D06B0CC53B0F63BCE3C3E27D2604B
def p256Gx : Nat := 0x6B17D1F2E12C4247F8BCE6E563A440F277037D812DEB33A0F4A13945D898C296
def p256Gy : Nat := 0x4FE342E2FE1A7F9B8EE7EB4A7C0F9E162BCE33576B315ECECBB6406837BF51F5

/-- `b ^ e mod m` for an exponent of `bits` bits. -/
def powMod (m : Nat) : Nat → Nat → Nat → Nat
  | 0, _, _ => 1 % m
  | n + 1, b, e =>
    let r := powMod m n (b * b % m) (e / 2)
    if e % 2 = 1 then r * b % m else r

/-- Inverse modulo a prime. -/
def invMod (m x : Nat) : Nat := powMod m 256 (x % m) (m - 2)

/-- A point of the curve: `none` is the point at infinity. -/
abbrev EcPoint := Option (Nat × Nat)

/-- Difference modulo p. -/
def subP (a b : Nat) : Nat := (a + (p256P - b % p256P)) % p256P

/-- Addition of points. -/
def ecAdd (a b : EcPoint) : EcPoint :=
  match a, b with
  | none, q => q
  | p, none => p
  | some (x1, y1), some (x2, y2) =>
    if x1 = x2 && (y1 + y2) % p256P = 0 then none
    else
      let l :=
        if x1 = x2 then (subP (3 * x1 * x1) 3) * invMod p256P (2 * y1) % p256P
        else subP y2 y1 * invMod p256P (subP x2 x1) % p256P
      let x3 := subP (subP (l * l) x1) x2
      some (x3, subP (l * subP x1 x3) y1)

/-- Multiple of a point, over `n` bits of the factor. -/
def ecMul : Nat → Nat → EcPoint → EcPoint
  | 0, _, _ => none
  | n + 1, k, p =>
    let r := ecMul n (k / 2) (ecAdd p p)
    if k % 2 = 1 then ecAdd r p else r

/-- A point with coordinates in range that lies on the curve. -/
def onCurve (x y : Nat) : Bool :=
  x < p256P && y < p256P && (y * y) % p256P == (subP (x * x * x) (3 * x) + p256B) % p256P

/-- ECDSA verification of a signature (r, s) over a message, under the public key (qx, qy). -/
def ecdsaVerify (qx qy r s : Nat) (msg : List Nat) : Bool :=
  if r = 0 || p256N ≤ r || s = 0 || p256N ≤ s || !onCurve qx qy then false
  else
    let z := ofBe (sha256 msg)
    let w := invMod p256N s
    let u1 := z * w % p256N
    let u2 := r * w % p256N
    match ecAdd (ecMul 256 u1 (some (p256Gx, p256Gy))) (ecMul 256 u2 (some (qx, qy))) with
    | none => false
    | some (x, _) => x % p256N == r

end Sys2Proof.Machine
end

