-- ==== Sys2Proof/Machine/JobLog.lean ====
section
/-! DEFINITION. The measurement in force (R357, R358) and the job log (R359, R360). -/

namespace Sys2Proof.Machine

/-- Change the configuration unit. -/
def Chip.onCfg (c : Chip) (f : Cfg → Cfg) : Chip := { c with cfg := f c.cfg }

/-- A swap is armed (R346). -/
def Chip.swapArmed (c : Chip) : Bool := c.cfg.swap.isSome

/-- M in force, 32 bytes; zero from reset until it is first computed (CFG_MEAS_i). -/
def Chip.measBytes (c : Chip) : List Nat := if c.cfg.meas.isEmpty then List.replicate 32 0 else c.cfg.meas

/-- A 32-byte value as eight words, byte 4i in bits 7:0 of word i. -/
def digestWords (b : List Nat) : List Word := (List.range 8).map fun i => word (leAt b (4 * i) 4)

/-- CFG_MEAS_0, the meas_tag of a Cask entry (R357). -/
def Chip.measWord0 (c : Chip) : Nat := leAt c.measBytes 0 4

/-- Change a die's job log. -/
def Chip.onJlog (c : Chip) (d : DieId) (f : JobLog → JobLog) : Chip := c.onDie d fun x => { x with jlog := f x.jlog }

/-- Write index of the job log. -/
def JobLog.wr (x : JobLog) : Nat := (x.rd + x.count) % 256

/-- CFG_SERIAL as 8 little-endian bytes. -/
def serialBytes : List Nat := leBytes 8 Config.serial.toNat

/-- A record in the layout of R360, but for its lost count, record_seq and chain value. -/
structure JobRecord where
  kind : Nat
  changes : Nat := 0
  overflowed : Bool := false
  maint : Bool := false
  w2 : Nat := 0
  w3 : Nat := 0
  w4 : Nat := 0
  time : LocalTime
  ended : Nat := 0
  first : List Nat
  second : List Nat := []
  deriving DecidableEq, Repr

/-- The 24 words of a record before its chain value. -/
def Chip.recordWords (c : Chip) (r : JobRecord) (lost seq : Nat) : List Word :=
  let t := c.timeWords r.time
  [word (r.kind + lost * 2 ^ 8 + r.changes * 2 ^ 16 + b2n r.overflowed * 2 ^ 24 + b2n r.maint * 2 ^ 25),
   word seq, word r.w2, word r.w3, word r.w4, word (t.getD 1 0), word (t.getD 2 0), word r.ended] ++
  digestWords r.first ++ digestWords r.second

/-- A record is stored, or lost to a full log (R359, R360). -/
def Chip.storeRecord (c : Chip) (d : DieId) (r : JobRecord) : Chip :=
  let x := (c.die d).jlog
  if x.count < 256 then
    let ws := c.recordWords r (min 255 x.lost) x.seq
    let chain := sha256 (x.chain ++ ws.flatMap fun w => leBytes 4 w.toNat)
    (c.onJlog d fun y => { y with
      records := smInsert y.wr (ws ++ digestWords chain) y.records
      count := y.count + 1, seq := y.seq + 1, chain := chain, lost := 0 }).raise d 210
  else
    let c1 := (c.bump d F.CFG_JLOG_STATUS_lost).onJlog d fun y => { y with lost := y.lost + 1 }
    if x.lost = 0 then c1.raise d 211 else c1

/-- A record on every populated die. -/
def Chip.storeBoth (c : Chip) (r : JobRecord) : Chip := c.forEach c.dies fun c d => c.storeRecord d r

/-- Software frees job records (CFG_JLOG_RD_IDX), by R46 modulo 256. -/
def Chip.writeJlogRdIdx (c : Chip) (d : DieId) (v : Word) : Chip :=
  let x := (c.die d).jlog
  let idx := bits v 7 0
  let n := (idx + 256 - x.rd) % 256
  if bit v 8 then
    if n = 0 && x.count = 256 then c.onJlog d fun y => { y with rd := idx, count := 0 } else c.raise d 2
  else if n ≤ x.count then c.onJlog d fun y => { y with rd := idx, count := y.count - n }
  else c.raise d 2

/-- The 32 live words of a record; an index never written holds zeros. -/
def JobLog.words (x : JobLog) (i : Nat) : List Word :=
  ((x.records.find? (·.1 == i)).map (·.2)).getD (List.replicate 32 0)

/-- Change every open job of a die. -/
def Chip.onJobs (c : Chip) (d : DieId) (f : Job → Job) : Chip :=
  c.onDie d fun x => { x with grist := { x.grist with jobs := x.grist.jobs.map f } }

/-- A job of a die by its id. -/
def Chip.onJob (c : Chip) (d : DieId) (id : Nat) (f : Job → Job) : Chip :=
  c.onJobs d fun j => if j.id == id then f j else j

/-- The job opened now, with what its record will hold. -/
def Chip.newJob (c : Chip) (id : Nat) : Job :=
  { id := id, closing := false, openedAt := c.time, openMeas := c.measBytes, changes := 0, started := 0, notBegun := 0,
    spans := 0, overflowed := false, maint := c.cfg.maint == .opened }

/-- The record of a job that has ended (R360). -/
def Chip.jobEnded (c : Chip) (d : DieId) (j : Job) : Chip :=
  c.storeRecord d
    { kind := 2, changes := min 255 j.changes, overflowed := j.overflowed, maint := j.maint, w2 := j.id,
      w3 := j.started % 65536 + j.notBegun % 65536 * 65536, w4 := j.spans, time := j.openedAt,
      ended := (c.timeWords c.time).getD 1 0, first := j.openMeas, second := c.measBytes }

/-- A new M comes into force (R358): it counts in the open jobs, and a change raises source 212 on every die. -/
def Chip.setMeas (c : Chip) (m : List Nat) : Chip :=
  if m == c.measBytes then c.onCfg fun x => { x with meas := m, measBusy := false }
  else
    let c1 := { c with cfg := { c.cfg with meas := m, measBusy := false }, herd := { c.herd with measDirty := true } }
    (c1.forEach c1.dies fun c d => c.onJobs d fun j => { j with changes := j.changes + 1 }).raiseBoth 212

/-- The state word of R357. -/
def Chip.stateWord (c : Chip) : Nat :=
  b2n c.cfg.maintOpened + 2 * b2n c.cfg.imageB + 4 * b2n c.cfg.fallback + 8 * b2n (c.cfg.stage == .recovery)

/-- A change that makes M be recomputed (R358). -/
def Chip.startMeas (c : Chip) : Chip := c.onCfg fun x => { x with measBusy := true }

/-- Access to the closed region was open while jobs were open (job record bit 25). -/
def Chip.noteMaint (c : Chip) : Chip := c.forEach c.dies fun c d => c.onJobs d fun j => { j with maint := true }

end Sys2Proof.Machine
end

