-- ==== Sys2Proof/Machine/Operands.lean ====
section
/-! DEFINITION. Operand forms shared by the commands: the table windows of R54 (entry layout, reset contents, shadow
and active copies), positions in the beam array (R30), and the lanes of R220. -/

namespace Sys2Proof.Machine

/-! ### Table windows (R54, R126, R147, R218) -/

/-- round(4,095·cos(πi/512)) for i = 0 to 255: the reset values a[i] of the microstep table (R204). -/
def microstepCos : List Nat :=
  [4095, 4095, 4095, 4094, 4094, 4093, 4092, 4091, 4090, 4089, 4087, 4086, 4084, 4082, 4080, 4078,
   4075, 4073, 4070, 4067, 4064, 4061, 4058, 4054, 4051, 4047, 4043, 4039, 4035, 4030, 4026, 4021,
   4016, 4011, 4006, 4001, 3996, 3990, 3984, 3978, 3972, 3966, 3960, 3953, 3947, 3940, 3933, 3926,
   3919, 3911, 3904, 3896, 3888, 3880, 3872, 3864, 3856, 3847, 3838, 3830, 3821, 3811, 3802, 3793] ++
  [3783, 3774, 3764, 3754, 3744, 3733, 3723, 3713, 3702, 3691, 3680, 3669, 3658, 3646, 3635, 3623,
   3611, 3600, 3588, 3575, 3563, 3551, 3538, 3525, 3512, 3499, 3486, 3473, 3460, 3446, 3433, 3419,
   3405, 3391, 3377, 3362, 3348, 3333, 3319, 3304, 3289, 3274, 3259, 3244, 3228, 3213, 3197, 3181,
   3165, 3149, 3133, 3117, 3101, 3084, 3068, 3051, 3034, 3017, 3000, 2983, 2966, 2948, 2931, 2913] ++
  [2896, 2878, 2860, 2842, 2824, 2805, 2787, 2769, 2750, 2731, 2713, 2694, 2675, 2656, 2636, 2617,
   2598, 2578, 2559, 2539, 2519, 2500, 2480, 2460, 2439, 2419, 2399, 2378, 2358, 2337, 2317, 2296,
   2275, 2254, 2233, 2212, 2191, 2170, 2148, 2127, 2105, 2084, 2062, 2040, 2018, 1997, 1975, 1952,
   1930, 1908, 1886, 1864, 1841, 1819, 1796, 1774, 1751, 1728, 1705, 1682, 1659, 1636, 1613, 1590] ++
  [1567, 1544, 1521, 1497, 1474, 1450, 1427, 1403, 1380, 1356, 1332, 1308, 1285, 1261, 1237, 1213,
   1189, 1165, 1141, 1116, 1092, 1068, 1044, 1019, 995, 971, 946, 922, 897, 873, 848, 824,
   799, 774, 750, 725, 700, 675, 651, 626, 601, 576, 551, 526, 501, 476, 451, 426,
   401, 376, 351, 326, 301, 276, 251, 226, 201, 176, 151, 126, 100, 75, 50, 25]

/-- Reset value of microstep entry i: a in bits 11:0, b = round(4,095·sin(πi/512)) in bits 27:16 (R204). -/
def microstepReset (i : Nat) : Nat :=
  microstepCos.getD i 0 + 65536 * (if i = 0 then 0 else microstepCos.getD (256 - i) 0)

/-- An address lies in the table windows. -/
def isTable (a : Nat) : Bool := 0x800000 ≤ a && a < 0x960000

/-- Windows whose lower 32 KiB is the shadow copy and whose upper 32 KiB reads the active copy. -/
def splitTable (a : Nat) : Bool := 0x900000 ≤ a && a < 0x960000

/-- The bits of a table entry that hold a value; zero for an address that is not listed. Remap entries keep their
reserved bits for the map check, which judges them (R136, log entry 59). -/
def tableMask (a : Nat) : Word :=
  if a % 4 ≠ 0 then 0
  else if 0x800000 ≤ a && a < 0x880000 then 0xFFFFFFFF
  else if 0x880000 ≤ a && a < 0x900000 then 0x7FF
  else if 0x900000 ≤ a && a < 0x902000 then (if a % 8 = 0 then 0x3001FFFF else 0xFFFF)
  else if 0x910000 ≤ a && a < 0x918000 then 0xFFF
  else if 0x920000 ≤ a && a < 0x920400 then 0x1FF
  else if 0x930000 ≤ a && a < 0x930400 then 0xFF
  else if 0x940000 ≤ a && a < 0x940400 then 0xFFFF
  else if 0x950000 ≤ a && a < 0x950400 then 0x0FFF0FFF
  else 0

/-- Reset contents of a table entry on a die. -/
def tableReset (d : DieId) (a : Nat) : Word :=
  if tableMask a = 0 then 0
  else if a < 0x880000 then word ((a - 0x800000) / 4 + (if d = .w then 0 else 131072))
  else if a < 0x900000 then 205
  else if a < 0x910000 then 0
  else if a < 0x914000 then word (15 * ((a - 0x910000) / 4 % 256 + 1))
  else if a < 0x918000 then 1024
  else if a < 0x920400 then word ((a - 0x920000) / 4)
  else if a < 0x930400 then (let s := (a - 0x930000) / 4; word (s % 16 + 16 * (s / 16)))
  else if a < 0x940400 then 32768
  else word (microstepReset ((a - 0x950000) / 4))

/-- Key of the active copy of a table entry. -/
def activeKey (a : Nat) : Nat := a + 0x1000000

/-- The default of a key of `Die.tables`. -/
def tableKeyDefault (d : DieId) (k : Nat) : Word := tableReset d (if k < 0x1000000 then k else k - 0x1000000)

/-- Shadow copy of a table entry. -/
def Chip.tbl (c : Chip) (d : DieId) (a : Nat) : Word := smGet (tableReset d a) a (c.die d).tables

/-- Active copy of a table entry. -/
def Chip.tblAct (c : Chip) (d : DieId) (a : Nat) : Word := smGet (tableReset d a) (activeKey a) (c.die d).tables

/-- Write the shadow copy of a table entry. -/
def Chip.setTbl (c : Chip) (d : DieId) (a : Nat) (v : Word) : Chip :=
  c.onDie d fun x => { x with tables := smSet (tableReset d a) a v x.tables }

/-- Write the active copy of a table entry. -/
def Chip.setTblAct (c : Chip) (d : DieId) (a : Nat) (v : Word) : Chip :=
  c.onDie d fun x => { x with tables := smSet (tableReset d a) (activeKey a) v x.tables }

/-- The entries of one copy, by shadow address: the shadow copy, or the active copy. -/
def Die.tableCopy (x : Die) (active : Bool) : List (Nat × Word) :=
  if active then (x.tables.filter (0x1000000 ≤ ·.1)).map fun p => (p.1 - 0x1000000, p.2)
  else x.tables.filter (·.1 < 0x1000000)

/-- A table entry read in a copy. -/
def tblIn (d : DieId) (copy : List (Nat × Word)) (a : Nat) : Word := smGet (tableReset d a) a copy

/-! ### Beams (R30) -/

/-- Cell of a beam, from its index within the die. -/
def cellOf (b : Nat) : Nat := b / 256 / 8 * 32 + b % 256 / 8

/-- Field of a cell: 8 × 8 cells. -/
def fieldOfCell (i : Nat) : Nat := i / 32 / 8 * 4 + i % 32 / 8

/-- Cells of a field. -/
def cellsOfField (f : Nat) : List Nat :=
  (List.range 64).map fun k => (f / 4 * 8 + k / 8) * 32 + f % 4 * 8 + k % 8

/-- Beams of a cell, as indices within the die. -/
def beamsOfCell (i : Nat) : List Nat :=
  (List.range 64).map fun k => (i / 32 * 8 + k / 8) * 256 + i % 32 * 8 + k % 8

/-- A set of numbers as a bit map. -/
def bitmapOf (l : List Nat) : Nat := l.foldl (fun m i => setNbit m i true) 0

/-- The cells of a set as a bit map of the die's 2,048 cells. -/
def cellBits (l : List Nat) : BitVec 2048 := BitVec.ofNat 2048 (bitmapOf l)

/-! ### Remap and lanes (R135, R220) -/

/-- Physical index p of a beam in a table copy. -/
def physOf (d : DieId) (copy : List (Nat × Word)) (b : Nat) : Nat := bits (tblIn d copy (0x800000 + 4 * b)) 16 0

/-- Logical lane of a physical index. -/
def laneOfPhys (p : Nat) : Nat := p / 256 / 8

/-- Payload position of a physical index. -/
def posOfPhys (p : Nat) : Nat := p % 256 / 8 * 64 + p / 256 % 8 * 8 + p % 256 % 8

/-- Home lane of a logical lane. -/
def homeLane (lam : Nat) : Nat := 17 * (lam / 16) + lam % 16

/-- Spare lane of a spare group. -/
def spareLane (q : Nat) : Nat := 17 * q + 16

/-- The beams whose remap entry is listed in a copy. -/
def remapped (copy : List (Nat × Word)) : List Nat :=
  (copy.filter fun p => 0x800000 ≤ p.1 && p.1 < 0x880000).map fun p => (p.1 - 0x800000) / 4

/-- The beams whose physical index lies in a logical lane: its home rows, less the beams remapped away, with the
beams remapped to it. -/
def laneHas (d : DieId) (copy : List (Nat × Word)) (lam b : Nat) : Bool := laneOfPhys (physOf d copy b) == lam

/-- Cells with a beam whose physical index lies in a logical lane. -/
def laneCells (d : DieId) (copy : List (Nat × Word)) (lam : Nat) : List Nat :=
  if (remapped copy).isEmpty then (List.range 32).map (lam * 32 + ·)
  else ((List.range 32).map (lam * 32 + ·) ++ (remapped copy).map cellOf).filter fun i =>
    (beamsOfCell i).any (laneHas d copy lam)

/-! ### DRAM areas (R278) -/

/-- Change a die's DRAM controller. -/
def Chip.onDram (c : Chip) (d : DieId) (f : DramCtl → DramCtl) : Chip := c.onDie d fun x => { x with dram := f x.dram }

/-- A DRAM area (base and size in 64 KiB) comes into use. -/
def Chip.openArea (c : Chip) (d : DieId) (base size : Nat) : Chip :=
  c.onDram d fun x => { x with opened := if x.opened.contains (base, size) then x.opened else x.opened ++ [(base, size)] }

end Sys2Proof.Machine
end

