-- ==== Sys2Proof/Machine/Evl.lean ====
section
/-! DEFINITION. The Unwritten Span Log (chapter 1, R41 to R47, and R300 for a log entry that cannot be read). -/

namespace Sys2Proof.Machine

/-- The module-wide beam field of word 4 names a die. -/
def dieNo : DieId → Nat
  | .w => 0
  | .e => 1

/-- The eight words of a log entry (R44). -/
def SpanEntry.words (x : SpanEntry) : List Word :=
  let s := x.span
  [word s.job,
   word (s.stripe % 2 ^ 24 + s.cause % 256 * 2 ^ 24),
   word s.vFirst,
   word s.vLast,
   word (s.set.code + 16 * dieNo s.die + s.moduleId % 8 * 32 + s.setIndex % 2 ^ 18 * 256 + s.setSpan % 32 * 2 ^ 26 +
     b2n x.isOpen * 2 ^ 31),
   word (s.uFirst % 65536 + s.uLast % 65536 * 65536),
   word s.slot,
   word (s.slot / 2 ^ 32 % 65536 + s.passMask % 65536 * 65536)]

/-- Whole-die causes (R43). -/
def wholeDieCause (cause : Nat) : Bool := [0x0C, 0x0D, 0x0E, 0x0F, 0x11, 0x12, 0x18].contains cause

/-- Change a die's log. -/
def Chip.onEvl (c : Chip) (d : DieId) (f : Evl → Evl) : Chip := c.onDie d fun x => { x with evl := f x.evl }

/-- Slots `a` to `b` lie within a span's slots (by signed difference). -/
def Span.covers (s : Span) (a b : Nat) : Bool := 0 ≤ sdiff 48 a s.slot && 0 ≤ sdiff 48 s.slotLast b

/-- A span reported to a die's log writer (R42). Whole-die spans are remembered for R43. -/
def Chip.reportSpan (c : Chip) (d : DieId) (s : Span) : Chip :=
  if c.hasDie d then
    c.onEvl d fun x => { x with
      queue := x.queue ++ [s]
      whole := if s.set == .all && wholeDieCause s.cause then s :: x.whole else x.whole }
  else c

/-- R43: a narrower span whose slots a whole-die entry for the same beams (of the same module) covers is not written. -/
def Evl.suppressed (x : Evl) (s : Span) : Bool :=
  !(s.set == .all && wholeDieCause s.cause) &&
  x.whole.any fun w => w.die == s.die && w.moduleId == s.moduleId && w.stripe == s.stripe && w.covers s.slot s.slotLast

/-- The span that die W keeps extending for all of die E's beams, while the Evune link is down (R29) or die E is in clock
fault (R40): entries of other causes written meanwhile do not close it (DEDUCED, log entry 16). -/
def Chip.keepsOpen (c : Chip) (log : DieId) (s : Span) : Bool :=
  log == .w && s.die == .e && s.set == .all && s.moduleId == c.ownId &&
  ((s.cause == 0x11 && !c.evuneUp) || (s.cause == 0x18 && c.e.clockFault))

/-- R45: a span extends an open entry. -/
def SpanEntry.merges (x : SpanEntry) (s : Span) : Bool :=
  let t := x.span
  x.isOpen && t.job == s.job && t.stripe == s.stripe && t.cause == s.cause && t.set == s.set && t.die == s.die &&
  t.moduleId == s.moduleId && t.setIndex == s.setIndex && t.setSpan == s.setSpan && t.uFirst == s.uFirst &&
  t.uLast == s.uLast && t.passMask == s.passMask && s.vFirst ≤ t.vLast + 1 && t.vFirst ≤ s.vLast + 1

/-- The union of an entry's span and a new one (R45). -/
def Span.union (t s : Span) : Span :=
  { t with
    vFirst := min t.vFirst s.vFirst
    vLast := max t.vLast s.vLast
    slot := if sdiff 48 s.slot t.slot < 0 then s.slot else t.slot }

/-- Write index of the log. -/
def Evl.wr (x : Evl) : Nat := (x.rd + x.count) % 1024

/-- Index of the entry before the write index. -/
def Evl.lastIdx (x : Evl) : Nat := (x.wr + 1023) % 1024

/-- The entry at an index. -/
def Evl.entry? (x : Evl) (i : Nat) : Option SpanEntry := (x.entries.find? (·.1 == i)).map (·.2)

/-- The most recent entry, while the log holds one. -/
def Evl.last? (x : Evl) : Option SpanEntry := if x.count = 0 then none else x.entry? x.lastIdx

/-- The live words of an entry; an index never written holds zeros. -/
def Evl.words (x : Evl) (i : Nat) : List Word :=
  match x.entry? i with
  | some t => t.words
  | none => List.replicate 8 0

/-- Close the entries of a kind (R45). -/
def Evl.closeThose (x : Evl) (p : Nat → SpanEntry → Bool) : Evl :=
  { x with entries := x.entries.map fun q => (q.1, if p q.1 q.2 then { q.2 with isOpen := false } else q.2) }

/-- The entry that a span would extend, with its index: the most recent one, or for a span that is kept extended the open
one it goes on with. -/
def Evl.target (x : Evl) (keep : Bool) (s : Span) : Option (Nat × SpanEntry) :=
  ((if keep then x.entries.find? (·.2.merges s) else none).or (x.last?.map (x.lastIdx, ·))).filter (·.2.merges s)

/-- The cells that a span's beams lie in (R31). An entry for pixels names no beam: the model takes the beams of its columns, in all
64 cell rows (DESIGN CHOICE, log entry 78). -/
def Chip.spanCells (c : Chip) (d : DieId) (s : Span) : BitVec 2048 :=
  match s.set with
  | .all => BitVec.allOnes 2048
  | .field => cellBits (cellsOfField s.setIndex)
  | .cell => cellBits [s.setIndex]
  | .beam => cellBits [cellOf (s.setIndex % 131072)]
  | .lane => cellBits (laneCells d ((c.die d).view.map (·.tables) |>.getD []) s.setIndex)
  | .columns =>
    cellBits ((List.range 64).flatMap fun r => (List.range (s.setSpan + 1)).map fun i =>
      r * 32 + (s.setIndex + i) % 256 / 8)
  | .rows =>
    cellBits ((List.range (s.setSpan + 1)).flatMap fun i => (List.range 32).map fun k =>
      (s.setIndex + i) / 8 * 32 + k)
  | .pixel =>
    match (c.die d).view with
    | none => 0
    | some v =>
      let col (u : Nat) : Nat := u / 2 ^ v.sxLog2 % 256 / 8
      cellBits ((List.range 64).flatMap fun r => (List.range (col s.uLast + 1 - col s.uFirst)).map fun i =>
        r * 32 + col s.uFirst + i)

/-- Set span_pending bits: in the words, and among those that hardware has set in this tick (R19). -/
def Die.pendUnits (x : Die) (cells : BitVec 2048) (fields : BitVec 32) (top : BitVec 3) : Die :=
  { x with
    cellPend := x.cellPend ||| cells
    fieldPend := x.fieldPend ||| fields
    topPend := x.topPend ||| top
    unitsNow := { x.unitsNow with
      cellPend := x.unitsNow.cellPend ||| cells
      fieldPend := x.unitsNow.fieldPend ||| fields
      topPend := x.unitsNow.topPend ||| top } }

/-- Set fault bits in the same way. -/
def Die.failUnits (x : Die) (cells : BitVec 2048) (fields : BitVec 32) (top : BitVec 3) : Die :=
  { x with
    cellFault := x.cellFault ||| cells
    fieldFault := x.fieldFault ||| fields
    topFault := x.topFault ||| top
    unitsNow := { x.unitsNow with
      cellFault := x.unitsNow.cellFault ||| cells
      fieldFault := x.unitsNow.fieldFault ||| fields
      topFault := x.unitsNow.topFault ||| top } }

/-- Set span_pending in the unit words a span names (R31): the cells, and through them every unit that holds them; an
entry that names a field or all beams names that unit itself as well. The named die's units are marked whichever die's
log holds the entry, and the module and herd words on both dies; beams of another module lie in the herd's unit only. -/
def Chip.notePending (c : Chip) (s : Span) : Chip :=
  if s.moduleId ≠ c.ownId then c.forEach c.dies fun c d => c.onDie d (·.pendUnits 0 0 4)
  else
    let c1 := c.onDie s.die fun x => x.pendUnits (c.spanCells s.die s)
      (if s.set == .field then BitVec.ofNat 32 (2 ^ s.setIndex) else 0) (if s.set == .all then 7 else 0)
    if c.hasDie s.die.other then c1.onDie s.die.other (·.pendUnits 0 0 6) else c1

/-- A span is lost to a full log (R47). -/
def Chip.loseSpan (c : Chip) (d : DieId) (s : Span) : Chip :=
  let first := !(c.die d).evl.overflowed
  let c1 := (c.bump d F.EVL_OVF_COUNT_lost_spans).puts d
    [(F.EVL_OVF_LAST_JOB_job_id, s.job), (F.EVL_OVF_LAST_STRIPE_stripe_id, s.stripe), (F.EVL_OVF_LAST_V_v, s.vLast)]
  if first then
    (((c1.puts d [(F.EVL_OVF_FIRST_JOB_job_id, s.job), (F.EVL_OVF_FIRST_STRIPE_stripe_id, s.stripe),
      (F.EVL_OVF_FIRST_V_v, s.vFirst)]).onEvl d fun x => { x with overflowed := true }).onJobs d
      fun j => { j with overflowed := true }).raise d 1
  else c1.onJobs d fun j => { j with overflowed := true }

/-- One span is written: merged into the open entry, stored as a new entry, or lost (R45, R47). -/
def Chip.writeSpan (c : Chip) (d : DieId) (s : Span) : Chip :=
  let x := (c.die d).evl
  match x.target (c.keepsOpen d s) s with
  | some (i, t) => (c.onEvl d fun y => { y with entries := smInsert i { t with span := t.span.union s } y.entries }).notePending s
  | none =>
    if x.count < 1024 then
      (((c.onEvl d fun y =>
          let z := y.closeThose fun _ t => !c.keepsOpen d t.span
          { z with entries := smInsert z.wr ⟨s, !s.ended⟩ z.entries, bad := z.bad.filter (· != z.wr), count := z.count + 1 }).notePending s).onJob d
        s.job fun j => { j with spans := j.spans + 1 }).raise d 0
    else c.loseSpan d s

/-- A stripe ends on a die: its open entries close, and the entries of its spans not written yet will not be open (R45). An
entry written for a span that is reported later stays open until another is written or EVL_RD_IDX passes it (DEDUCED, log
entry 15). -/
def Chip.closeLog (c : Chip) (d : DieId) (stripe : Nat) : Chip :=
  c.onEvl d fun x => { x.closeThose fun _ t => t.span.stripe == stripe with
    queue := x.queue.map fun s => if s.stripe == stripe then { s with ended := true } else s }

/-- Write of EVL_RD_IDX (R46). -/
def Chip.writeRdIdx (c : Chip) (d : DieId) (v : Word) : Chip :=
  let x := (c.die d).evl
  let idx := bits v 9 0
  let n := (idx + 1024 - x.rd) % 1024
  if bit v 16 then
    if n = 0 && x.count = 1024 then c.onEvl d fun y => { y.closeThose fun _ _ => true with rd := idx, count := 0 }
    else c.raise d 2
  else if n ≤ x.count then
    c.onEvl d fun y =>
      { y.closeThose fun i _ => (i + 1024 - y.rd) % 1024 < n with rd := idx, count := y.count - n }
  else c.raise d 2

/-- Write of EVL_CTRL (R47). -/
def Chip.writeEvlCtrl (c : Chip) (d : DieId) (v : Word) : Chip :=
  let c1 := c.put d F.EVL_CTRL_halt_on_overflow (bits v 0 0)
  if bit v 1 then
    (c1.puts d [(F.EVL_OVF_COUNT_lost_spans, 0), (F.EVL_OVF_FIRST_JOB_job_id, 0), (F.EVL_OVF_LAST_JOB_job_id, 0),
      (F.EVL_OVF_FIRST_STRIPE_stripe_id, 0), (F.EVL_OVF_LAST_STRIPE_stripe_id, 0), (F.EVL_OVF_FIRST_V_v, 0),
      (F.EVL_OVF_LAST_V_v, 0)]).onEvl d fun x => { x with overflowed := false }
  else c1

/-- Read of word `i` of a capture table (R44): word 0 captures, the others return the captured words of the entry read
last and the live word of any other. -/
def captureRead (cap : Option Capture) (idx i : Nat) (live : List Word) : Word × Option Capture :=
  if i = 0 then (live.getD 0 0, some ⟨idx, live⟩)
  else match cap with
    | some k => ((if k.idx = idx then k.words else live).getD i 0, cap)
    | none => (live.getD i 0, cap)

/-- What a register or table word reads as when its memory cannot be read (R300). -/
def poisonWord : Word := 0xA5A5A5A5

/-- A read of protected memory ended uncorrectable or in poison (R299, R300): counted, latched in ECC_UE_LAST with its
region, DRAM channel, client and address, and raised. A clean read does nothing. -/
def Chip.readError (c : Chip) (d : DieId) (read : MemRead) (region channel client addr : Nat) : Chip :=
  let latch (poison : Nat) : Chip := c.puts d
    [(F.ECC_UE_LAST_region, region), (F.ECC_UE_LAST_channel, channel), (F.ECC_UE_LAST_client, client),
     (F.ECC_UE_LAST_poison, poison), (F.ECC_UE_LAST_1_addr_low, addr), (F.ECC_UE_LAST_2_addr_high, addr / 2 ^ 32)]
  match read with
  | .clean => c
  | .ue => ((latch 0).bump d F.ECC_UE_COUNT_count).raise d 160
  | .poison => ((latch 1).bump d F.ECC_POISON_COUNT_count).raise d 161

/-- A data-path read of DRAM in an area whose layout the spec does not show: the address is an open value. -/
def Chip.dramReadError (c : Chip) (d : DieId) (read : MemRead) (client : Nat) : Chip :=
  if read == .clean then c
  else
    let a := c.freshBelow (2 ^ 35)
    a.2.readError d read 1 (a.1 / 4096 % 4) client a.1

/-- A read of an SRAM of a region at a word index the spec does not show: the index is an open value. -/
def Chip.sramReadError (c : Chip) (d : DieId) (read : MemRead) (region : Nat) : Chip :=
  if read == .clean then c
  else
    let a := c.freshBelow (2 ^ 32)
    a.2.readError d read region 0 7 a.1

/-- A read of word `i` of a table entry reads the memory that holds it, not the capture buffer (R44). -/
def readsLive (cap : Option Capture) (idx i : Nat) : Bool := i == 0 || (cap.map (·.idx)) != some idx

/-- A span entry that reads as poison (R300). -/
def Chip.spanPoison (c : Chip) (d : DieId) (read : MemRead) : Chip := (c.sramReadError d read 9).raise d 3

/-- Read of word `i` of span entry `idx` (R44); an entry that cannot be read is lost (R300). -/
def Chip.readSpanWord (c : Chip) (d : DieId) (idx i : Nat) : Word × Chip :=
  let x := (c.die d).evl
  let bad := x.bad.contains idx
  let r := captureRead x.capture idx i (if bad then List.replicate 8 poisonWord else x.words idx)
  (r.1, (c.onEvl d fun x => { x with capture := r.2 }).whenB (bad && readsLive x.capture idx i) (·.spanPoison d .poison))

/-! ### Meanings -/

/-- LOG_ENTRY_WRITE (R42, R43, R45, R47): the log writer writes its oldest reported span. -/
def execLogEntryWrite (d : DieId) (s : State) : Res :=
  s.nextChip fun c =>
    match (c.die d).evl.queue with
    | [] => c
    | p :: rest =>
      let c1 := c.onEvl d fun x => { x with queue := rest }
      if (c1.die d).evl.suppressed p then c1 else c1.writeSpan d p

/-- EVL_RD_IDX_WRITE (R46). -/
def execEvlRdIdxWrite (_m : Master) (d : DieId) (v : Word) (s : State) : Res :=
  s.nextBus fun c => if c.hasDie d then c.writeRdIdx d v else c

/-- EVL_CLEAR_OVERFLOW (R47). -/
def execEvlClearOverflow (_m : Master) (d : DieId) (halt : Bool) (s : State) : Res :=
  s.nextBus fun c => if c.hasDie d then c.writeEvlCtrl d (word (b2n halt + 2)) else c

end Sys2Proof.Machine
end

