-- ==== Sys2Proof/Machine/Geo.lean ====
section
/-! DEFINITION. Pass and cell-walk geometry (R24, R127 to R134): from pixel and pass to beam and slot and back, on a
stripe's view; and the spans of slot ranges (R188). -/

namespace Sys2Proof.Machine

/-- Geometry of a stripe: logarithms of P, Sx and Sy, and the copy of the tables that holds the cell walk. -/
structure Geo where
  pLog2 : Nat
  sxLog2 : Nat
  syLog2 : Nat
  tables : List (Nat × Word)
  deriving DecidableEq, Repr

/-- The geometry of a view (R137). -/
def View.geo (v : View) : Geo := ⟨v.passLog2, v.sxLog2, v.syLog2, v.tables⟩

/-- P, Sx, Sy, G = 512/P and L = Sx·Sy of the symbols table. -/
def Geo.P (g : Geo) : Nat := 2 ^ g.pLog2
def Geo.Sx (g : Geo) : Nat := 2 ^ g.sxLog2
def Geo.Sy (g : Geo) : Nat := 2 ^ g.syLog2
def Geo.G (g : Geo) : Nat := 512 / g.P
def Geo.L (g : Geo) : Nat := g.Sx * g.Sy

/-- Entry s of the cell walk (R129). -/
def Geo.walk (g : Geo) (s : Nat) : Nat × Nat :=
  let w := tblIn .w g.tables (0x930000 + 4 * s)
  (bits w 3 0, bits w 7 4)

/-- Smallest and largest walk step with row offset `wy` (R133). -/
def Geo.smin (g : Geo) (wy : Nat) : Nat := ((List.range g.L).find? fun s => (g.walk s).2 == wy).getD 0
def Geo.smax (g : Geo) (wy : Nat) : Nat := ((List.range g.L).reverse.find? fun s => (g.walk s).2 == wy).getD 0

/-- The walk step that visits an offset (R131). -/
def Geo.stepOf (g : Geo) (wx wy : Nat) : Nat := ((List.range g.L).find? fun s => g.walk s == (wx, wy)).getD 0

/-- First cycle n0 of a stripe row (R131). -/
def Geo.n0 (g : Geo) (y : Nat) : Nat := y / g.Sy / g.G

/-- Row h within the pass group of a stripe row (R131). -/
def Geo.h (g : Geo) (y : Nat) : Nat := g.G - 1 - y / g.Sy % g.G

/-- First and last stripe slot that expose a row (R133). -/
def Geo.firstSlot (g : Geo) (y : Nat) : Nat := g.n0 y * g.L + g.smin (y % g.Sy)
def Geo.lastSlot (g : Geo) (y : Nat) : Nat := (g.n0 y + g.P - 1) * g.L + g.smax (y % g.Sy)

/-- Stripe slot in which pass `p` exposes pixel (x, y) (R131). -/
def Geo.slotOf (g : Geo) (x y p : Nat) : Nat := (g.n0 y + p) * g.L + g.stepOf (x % g.Sx) (y % g.Sy)

/-- Slots in a stripe of `rows` rows (R134). -/
def Geo.slots (g : Geo) (rows : Nat) : Nat := ((rows - 1) / g.Sy / g.G + g.P) * g.L

/-- Pixel that beam (r, c) exposes in stripe slot k, in a stripe of `rows` rows (R132). -/
def Geo.pixelOf (g : Geo) (rows k r c : Nat) : Option (Nat × Nat) :=
  let n := k / g.L
  let (wx, wy) := g.walk (k % g.L)
  let p := r / g.G
  if n < p then none
  else
    let y := ((n - p) * g.G + g.G - 1 - r % g.G) * g.Sy + wy
    if y < rows then some (c * g.Sx + wx, y) else none

/-- Stripe rows that pass group `p` exposes in stripe slot k, with their beam rows (R132). -/
def Geo.rowsAt (g : Geo) (rows k p : Nat) : List (Nat × Nat) :=
  let n := k / g.L
  let wy := (g.walk (k % g.L)).2
  if n < p then []
  else ((List.range g.G).map fun i => (((n - p) * g.G + i) * g.Sy + wy, p * g.G + (g.G - 1 - i))).filter (·.1 < rows)

/-- First and last stripe column of a die (R24). -/
def uFirst (d : DieId) (sxLog2 : Nat) : Nat := if d = .w then 0 else 256 * 2 ^ sxLog2
def uLast (d : DieId) (sxLog2 : Nat) : Nat := (if d = .w then 256 else 512) * 2 ^ sxLog2 - 1

/-- First and last stripe column of a die's raster range (R91). -/
def rasterFirst (_c : Chip) (d : DieId) (sxLog2 : Nat) : Nat := if d = .w then 0 else 256 * 2 ^ sxLog2 - 8
def rasterLast (c : Chip) (d : DieId) (sxLog2 : Nat) : Nat :=
  if d = .w then (if c.two then 256 * 2 ^ sxLog2 + 7 else 256 * 2 ^ sxLog2 - 1) else 512 * 2 ^ sxLog2 - 1

/-- Width of a die's raster range. -/
def rasterWidth (c : Chip) (d : DieId) (sxLog2 : Nat) : Nat := rasterLast c d sxLog2 + 1 - rasterFirst c d sxLog2

/-- All P pass bits. -/
def Geo.allPasses (g : Geo) : Nat := 2 ^ g.P - 1

/-- Stripe-relative rows that stripe slots `ka` to `kb` would have exposed (R188). -/
def Geo.rowsOfSlots (g : Geo) (rows ka kb : Nat) : Nat × Nat :=
  let na := ka / g.L
  let nb := kb / g.L
  ((na + 1 - g.P) * g.G * g.Sy, min (rows - 1) ((nb + 1) * g.G * g.Sy - 1))

/-- The herd module id of this module: 0 when it stands alone. -/
def Chip.moduleId (c : Chip) : Nat := c.ownId

/-- The span of stripe slots `ka` to `kb` for all beams of a die under a view (R188). -/
def Chip.slotSpan (c : Chip) (d : DieId) (v : View) (cause ka kb : Nat) : Span :=
  let r := v.geo.rowsOfSlots v.rows ka kb
  { job := v.job, stripe := v.stripe, cause := cause
    vFirst := v.vFirst + r.1, vLast := v.vFirst + r.2
    set := .all, die := d, moduleId := c.moduleId, setIndex := 0, setSpan := 0
    uFirst := uFirst d v.sxLog2, uLast := uLast d v.sxLog2
    slot := (v.s0 + ka) % m48, slotLast := (v.s0 + kb) % m48, passMask := v.geo.allPasses }

/-- Unit words of the module's register views: shadow or active geometry of MAP_GEOM. -/
def Chip.activeGeo (c : Chip) (d : DieId) : Geo :=
  ⟨c.act d F.MAP_GEOM_pass_log2, c.act d F.MAP_GEOM_sx_log2, c.act d F.MAP_GEOM_sy_log2, (c.die d).tableCopy true⟩

/-- The geometry of the shadow copies. -/
def Chip.shadowGeo (c : Chip) (d : DieId) : Geo :=
  ⟨c.fld d F.MAP_GEOM_pass_log2, c.fld d F.MAP_GEOM_sx_log2, c.fld d F.MAP_GEOM_sy_log2, (c.die d).tableCopy false⟩

end Sys2Proof.Machine
end

