-- ==== Sys2Proof/Machine/Crc.lean ====
section
/-! DEFINITION. The cyclic redundancy checks of the module's formats: CRC-16 (R61), CRC-32C (R62), CRC-32 (R225) and
CRC-8 (R200). -/

namespace Sys2Proof.Machine

/-- One bit of an unreflected CRC of `w` bits. -/
def crcStepMsb (w poly reg : Nat) : Nat :=
  let sh := reg * 2 % 2 ^ w
  if nbit reg (w - 1) then Nat.xor sh poly else sh

/-- One bit of a reflected CRC, with the reflected polynomial. -/
def crcStepLsb (poly reg : Nat) : Nat :=
  if reg % 2 = 1 then Nat.xor (reg / 2) poly else reg / 2

/-- Apply a step `n` times. -/
def iter {α : Type} (f : α → α) : Nat → α → α
  | 0, x => x
  | n + 1, x => iter f n (f x)

/-- One byte of an unreflected CRC. -/
def crcByteMsb (w poly reg b : Nat) : Nat := iter (crcStepMsb w poly) 8 (Nat.xor reg (b * 2 ^ (w - 8)))

/-- One byte of a reflected CRC. -/
def crcByteLsb (poly reg b : Nat) : Nat := iter (crcStepLsb poly) 8 (Nat.xor reg b)

/-- CRC-16 of R61: polynomial 0x1021, initial 0xFFFF, no reflection, no final XOR. -/
def crc16 (l : List Nat) : Nat := l.foldl (crcByteMsb 16 0x1021) 0xFFFF

/-- The running register of CRC-32C and CRC-32, before the final XOR; the polynomials are reflected. -/
def crc32cReg (reg : Nat) (l : List Nat) : Nat := l.foldl (crcByteLsb 0x82F63B78) reg
def crc32Reg (reg : Nat) (l : List Nat) : Nat := l.foldl (crcByteLsb 0xEDB88320) reg

/-- CRC-32C of R62: polynomial 0x1EDC6F41, reflected, initial and final XOR all ones. -/
def crc32c (l : List Nat) : Nat := Nat.xor (crc32cReg 0xFFFFFFFF l) 0xFFFFFFFF

/-- CRC-32 of R225: polynomial 0x04C11DB7, reflected, initial and final XOR all ones. -/
def crc32 (l : List Nat) : Nat := Nat.xor (crc32Reg 0xFFFFFFFF l) 0xFFFFFFFF

/-- An unreflected CRC-8 with a polynomial and an initial value. -/
def crc8 (poly init : Nat) (l : List Nat) : Nat := l.foldl (crcByteMsb 8 poly) init

end Sys2Proof.Machine
end

