-- ==== Sys2Proof/Machine/Line.lean ====
section
/-! DEFINITION. The line of a blanker or Grist lane (R221 to R226, R243 to R246, R253): symbols, 66-bit blocks, the
scrambler, transmit presets, a lane's transmitter, and block and descrambler lock of its receiver. -/

namespace Sys2Proof.Machine

/-! ### The PHY of a lane -/

/-- The PHY of a local blanker lane. -/
def Blnk.phy (x : Blnk) (l : Nat) : Phy := smGet Phy.fresh l x.phys

/-- Change the PHY of a local blanker lane. -/
def Blnk.onPhy (x : Blnk) (l : Nat) (f : Phy → Phy) : Blnk := { x with phys := smSet Phy.fresh l (f (x.phy l)) x.phys }

/-- The PHY of a local Grist lane. -/
def GrLanes.phy (x : GrLanes) (l : Nat) : Phy := smGet Phy.fresh l x.lanes

/-- Change the PHY of a local Grist lane. -/
def GrLanes.onPhy (x : GrLanes) (l : Nat) (f : Phy → Phy) : GrLanes :=
  { x with lanes := smSet Phy.fresh l (f (x.phy l)) x.lanes }

/-! ### Symbols and blocks (R221, R222) -/

/-- The PAM4 level of a pair of line bits, the first bit first (R221). -/
def pamLevel : Bool → Bool → Nat
  | false, false => 0
  | false, true => 1
  | true, true => 2
  | true, false => 3

/-- The levels of line bits, taken in pairs. -/
def pamLevels : List Bool → List Nat
  | a :: b :: l => pamLevel a b :: pamLevels l
  | _ => []

/-- The 66 line bits of a block: the sync header, its upper digit first as R222 writes it, then payload bit 0 onwards. -/
def lineBits (b : LineBlock) : List Bool :=
  [nbit b.sync 1, nbit b.sync 0] ++ (List.range 64).map (nbit b.payload)

/-- The 33 symbols of a block. -/
def blockSymbols (b : LineBlock) : List Nat := pamLevels (lineBits b)

/-- A sync header is valid (R222). -/
def validSync (b : LineBlock) : Bool := b.sync == 1 || b.sync == 2

/-- Blocks in a number of ticks, of 33 symbols at 28.125 GBd (R221). -/
def blocksIn (ticks : Nat) : Nat := ticks * 28125 / 33000

/-- The unscrambled blocks of a frame or message: eight bytes a block, the first with sync header 0b10 (R222, R225). -/
def frameBlocks (bytes : List Nat) : List LineBlock :=
  (List.range ((bytes.length + 7) / 8)).map fun i => ⟨if i = 0 then 2 else 1, leAt bytes (8 * i) 8⟩

/-- An idle block before scrambling (R222). -/
def idleBlock : LineBlock := ⟨1, 0⟩

/-! ### The scrambler (R223) -/

/-- The next bit of the register x^58 + x^39 + 1; bit i of the register is the output i + 1 bits ago. -/
def scramblerBit (r : Nat) : Nat := (b2n (nbit r 38) + b2n (nbit r 57)) % 2

/-- The register advances by one bit. -/
def scramblerStep (r : Nat) : Nat := (2 * r + scramblerBit r) % 2 ^ 58

/-- The next `n` bits, the first in bit 0, and the register after them. -/
def keystream : Nat → Nat → Nat × Nat
  | 0, r => (0, r)
  | n + 1, r =>
    let k := keystream n (scramblerStep r)
    (scramblerBit r + 2 * k.1, k.2)

/-- A payload XORed with the register's output, and the register after it. -/
def scrambleBlock (b : LineBlock) (r : Nat) : LineBlock × Nat :=
  let k := keystream 64 r
  (⟨b.sync, b.payload ^^^ k.1⟩, k.2)

/-- Blocks scrambled one after another. -/
def scrambleBlocks : List LineBlock → Nat → List LineBlock
  | [], _ => []
  | b :: l, r => (scrambleBlock b r).1 :: scrambleBlocks l (scrambleBlock b r).2

/-- The register after `n` blocks. -/
def scramblerAfter (n r : Nat) : Nat := iter (fun r => (keystream 64 r).2) n r

/-- The seed of a transmitter at a wake: any nonzero value (R223). -/
def txSeed (d : DieId) (grist : Bool) (lane wake : Nat) : Nat :=
  1 + Config.scramblerSeed (((2 * wake + b2n grist) * 2 + (if d = .w then 0 else 1)) * 128 + lane) % (2 ^ 58 - 1)

/-- The blocks that a frame puts on a lane's line, by where it begins. -/
def txBlocks (d : DieId) (grist : Bool) (lane : Nat) (pos : LinePos) (bytes : List Nat) : List LineBlock :=
  scrambleBlocks (frameBlocks bytes) (scramblerAfter pos.block (txSeed d grist lane pos.wake))

/-! ### Frames (R225, R226) -/

/-- A frame or message on the line: header, payload, CRC-32 of both, four zeros (R225). -/
def frameBytes (header payload : List Nat) : List Nat :=
  let b := header ++ payload
  b ++ leBytes 4 (crc32 b) ++ [0, 0, 0, 0]

/-- The bytes of a payload of `n` positions of `width` bits, position 0 first, of which those listed are not zero. -/
def packPayload (n width : Nat) (l : List (Nat × Nat)) : List Nat :=
  leBytes (n * width / 8) ((l.map fun p => p.2 * 2 ^ (width * p.1)).sum)

/-- The bytes of a blanker frame by its type (R226): the codes of DATA, the primes of PARAM, no payload else. -/
def laneFrameBytes (header : List Nat) (payload : List (Nat × Nat)) : List Nat :=
  frameBytes header (match leAt header 5 1 % 16 with
    | 1 => packPayload 2048 6 payload
    | 4 => packPayload 256 3 payload
    | _ => [])

/-- What an output on a lane puts on its line (R221 to R226, R258). -/
def Output.lineBlocks : Output → List LineBlock
  | .lane d l header payload pos => txBlocks d false l pos (laneFrameBytes header payload)
  | .grist d l words pos => txBlocks d true l pos (words.flatMap (leBytes 4))
  | .grTrain d l header pos => txBlocks d true l pos (frameBytes header [])
  | _ => []

/-- Where an output on a lane begins on its line. -/
def Output.linePos? : Output → Option LinePos
  | .lane _ _ _ _ pos | .grist _ _ _ pos | .grTrain _ _ _ pos => some pos
  | _ => none

/-! ### Transmitters (R243, R244) -/

/-- Pre-cursor, main and post-cursor coefficients of a transmit preset, in 1/64 of the peak swing (R243). -/
def txPreset : Nat → Int × Int × Int
  | 0 => (0, 64, 0)
  | 1 => (0, 56, -8)
  | 2 => (0, 52, -12)
  | 3 => (-4, 52, -8)
  | 4 => (-4, 48, -12)
  | 5 => (-6, 46, -12)
  | 6 => (-8, 44, -12)
  | _ => (-8, 40, -16)

/-- The level, times 128, at which a transmitter's output stands for a symbol between its neighbours: three taps, on levels
centred on the common mode 1.5 (R243, R244). -/
def txLevel (preset prev cur next : Nat) : Int :=
  let c := txPreset preset
  let v (s : Nat) : Int := 2 * (s : Int) - 3
  c.1 * v next + c.2.1 * v cur + c.2.2 * v prev

/-- The levels of a run of symbols but its last, whose successor is not in it; `prev` is the symbol before the run. -/
def txLevels (preset prev : Nat) : List Nat → List Int
  | cur :: next :: l => txLevel preset prev cur next :: txLevels preset cur (next :: l)
  | _ => []

/-- The levels that an output puts on its line after the symbol `prev`, under the preset it leaves with (R243, R253). -/
def Output.levels (o : Output) (prev : Nat) : List Int :=
  txLevels ((o.linePos?.map (·.preset)).getD 0) prev (o.lineBlocks.flatMap blockSymbols)

/-- A sleeping transmitter holds its output at the common mode, 1.5 (R244). -/
def sleepLevel : Int := 0

/-- A transmitter wakes: its scrambler is seeded anew (R223, R244). -/
def Phy.wake (p : Phy) (now : Nat) : Phy := { p with wakes := p.wakes + 1, wokeAt := now }

/-- Where on the line a frame begins that leaves now. -/
def Phy.linePos (p : Phy) (now : Nat) : LinePos := ⟨p.wakes, blocksIn (now - p.wokeAt), p.preset⟩

/-- Where a frame begins that follows a trigger, of two blocks, sent at a tick (R223, R228). -/
def Phy.behind (p : Phy) (trig : Nat) : LinePos := { p.linePos trig with block := (p.linePos trig).block + 2 }

/-- The tick at which a transmitter may send its first frame: it sends idle for 2 µs after a wake (R244). -/
def Phy.readyAt (p : Phy) (now : Nat) : Nat := max now (p.wokeAt + 2 * usTicks)

/-! ### Receivers (R224, R245, R246) -/

/-- Ticks of the 64 settling blocks after a freeze: 2,112 symbols at 28.125 GBd (R245). -/
def settleTicks : Nat := 76

/-- The receiver is neither frozen nor settling (R245). -/
def Phy.steady (p : Phy) (now : Nat) : Bool := !p.frozen && p.settled ≤ now

/-- Content is used while both locks are held and the receiver does not settle (R224, R245). -/
def Phy.usable (p : Phy) (now : Nat) : Bool := p.blockLock && p.descLock && p.steady now

/-- A window of transitions ends (R245): too few freeze adaptation, enough of them end the freeze and begin settling. -/
def Phy.window (p : Phy) (enough : Bool) (now : Nat) : Phy :=
  if !enough then { p with frozen := true }
  else if p.frozen then
    { p with frozen := false, blockLock := false, descLock := false, run := 0, syncs := 0, desc := none, zeros := 0
             idles := 0, inFrame := 0, settled := now + settleTicks }
  else p

/-- Both locks are lost: the receiver searches its block boundary anew. -/
def Phy.loseBlock (p : Phy) : Phy :=
  { p with blockLock := false, descLock := false, run := 0, syncs := 0, desc := none, zeros := 0, idles := 0, inFrame := 0 }

/-- Block lock (R224): the boundary slips by a symbol at an invalid header; 64 valid ones in a row lock it; 16 invalid ones
among 64 lose it. -/
def Phy.sync (p : Phy) (valid : Bool) : Phy :=
  if !p.blockLock then
    if !valid then { p with run := 0, slip := (p.slip + 1) % 33 }
    else if p.run + 1 < 64 then { p with run := p.run + 1 }
    else { p with blockLock := true, run := 0, syncs := 0 }
  else
    let syncs := (2 * p.syncs + b2n (!valid)) % 2 ^ 64
    if 16 ≤ popcount 64 syncs then p.loseBlock else { p with syncs := syncs }

/-- The descrambler register that 58 payload bits of an idle block leave: the last 58, of which bit 63 came last (R224). -/
def loadDescrambler (payload : Nat) : Nat := ofBitList ((List.range 58).map fun i => nbit payload (63 - i))

/-- Descrambler lock (R224), of a receiver in block lock, by one block: `idle` says that it is an idle block. The idle
block's nonzero bits are answered, for R246. -/
def Phy.descramble (p : Phy) (b : LineBlock) (idle : Bool) : Nat × Phy :=
  match p.desc with
  | none => (0, if idle then { p with desc := some (loadDescrambler b.payload), zeros := 0 } else p)
  | some r =>
    let x := scrambleBlock b r
    let bad := x.1.payload % 2 ^ 64 != 0
    let q := { p with desc := some x.2 }
    if !idle then (0, q)
    else if p.descLock then
      let idles := (2 * p.idles + b2n bad) % 2 ^ 16
      (popcount 64 x.1.payload,
        if 4 ≤ popcount 16 idles then { q with descLock := false, desc := none, zeros := 0, idles := 0 }
        else { q with idles := idles })
    else if bad then (0, { q with desc := some (loadDescrambler b.payload), zeros := 0 })
    else if p.zeros + 1 < 8 then (0, { q with zeros := p.zeros + 1 })
    else (0, { q with descLock := true, zeros := 0, idles := 0 })

/-- A control word's table form (R255): reserved bytes are zero; an END names 1 to 8 bytes. -/
def ctrlOk (v : Nat) : Bool :=
  match v % 256 with
  | 1 => v / 256 % 2 ^ 56 == 0
  | 2 => v / 2 ^ 16 % 2 ^ 48 == 0 && 1 ≤ v / 256 % 256 && v / 256 % 256 ≤ 8
  | 3 => v / 2 ^ 40 % 2 ^ 24 == 0
  | _ => false

/-- One block reaches a receiver. A block with header 0b01 is idle outside a frame of its own line on a blanker lane or a sync
link (R224), and `outside` a Grist block on a GR_RX, whatever came before it (R253). The nonzero bits of an idle block in error
are answered. -/
def Phy.block (p : Phy) (grist outside : Bool) (b : LineBlock) : Nat × Phy :=
  let q := p.sync (validSync b)
  if !(p.blockLock && q.blockLock) then (0, q)
  else
    let idle := b.sync == 1 && p.inFrame = 0 && outside
    let r := q.descramble b idle
    (r.1, { r.2 with inFrame := if grist then 0 else if b.sync == 2 then 3 else p.inFrame - 1 })

/-- Whether what follows a block on a GR_RX is outside a Grist block: a START or an END that the lane itself carries changes it
(R255, R257). -/
def Phy.outsideAfter (p : Phy) (outside : Bool) (b : LineBlock) : Bool :=
  match p.desc with
  | some r =>
    let v := (scrambleBlock b r).1.payload % 2 ^ 64
    if !(b.sync == 2 && p.blockLock && p.descLock) then outside
    else if ctrlOk v && v % 256 == 3 then outside
    else !(ctrlOk v && v % 256 == 1)
  | none => outside

/-- Blocks that a receiver in both locks passes over: valid headers, idle blocks in no error. -/
def Phy.skip (p : Phy) (n : Nat) : Phy :=
  if n ≠ 0 && p.blockLock && p.descLock then
    { p with syncs := p.syncs * 2 ^ n % 2 ^ 64, idles := p.idles * 2 ^ n % 2 ^ 16, inFrame := 0
             desc := p.desc.map (scramblerAfter n) }
  else p

/-- A receiver under way: whether what comes is outside a Grist block, the idle blocks in error so far, their nonzero bits, and
the receiver. -/
structure RxRun where
  outside : Bool
  blocks : Nat
  bits : Nat
  phy : Phy
  deriving DecidableEq, Repr

/-- The next block. -/
def RxRun.next (x : RxRun) (grist : Bool) (b : LineBlock) : RxRun :=
  let r := x.phy.block grist x.outside b
  ⟨if grist then x.phy.outsideAfter x.outside b else x.outside, x.blocks + b2n (r.1 ≠ 0), x.bits + r.1, r.2⟩

/-- Blocks reach a receiver, after `skip` that it passes over. -/
def Phy.receive (p : Phy) (grist outside : Bool) (skip : Nat) (l : List LineBlock) : RxRun :=
  l.foldl (fun x b => x.next grist b) ⟨outside, 0, 0, p.skip skip⟩

end Sys2Proof.Machine
end

