-- ==== Sys2Proof/Machine/Stripes.lean ====
section
/-! DEFINITION. Held stripes and their rows: trust marks (R36), the spread of R111, row closure (R85), release and the
moment at which a stripe is no longer held (R57). -/

namespace Sys2Proof.Machine

/-- Rows of the stripe, Y of the symbols table. -/
def Stripe.count (t : Stripe) : Nat := t.vLast + 1 - t.vFirst

/-- A row that has not been touched. -/
def Row.fresh : Row := ⟨none, [], false, false, false, none, false, [], none⟩

/-- The state of a stripe-relative row. -/
def Stripe.row (t : Stripe) (y : Nat) : Row := smGet Row.fresh y t.rows

/-- Change a row. -/
def Stripe.onRow (t : Stripe) (y : Nat) (f : Row → Row) : Stripe :=
  { t with rows := smSet Row.fresh y (f (t.row y)) t.rows }

/-- The cause under which a row is untrusted, if it is: the first mark recorded stands (R36); marks do not reach a row
that has been released. -/
def Stripe.causeOf (t : Stripe) (y : Nat) : Option Nat :=
  let r := t.row y
  if r.released then r.late
  else (t.marks.find? fun m => m.lo ≤ y && y ≤ m.hi).map (·.cause)

/-- A row is untrusted. -/
def Stripe.untrusted (t : Stripe) (y : Nat) : Bool := (t.causeOf y).isSome

/-- A row is released or untrusted (R57, R72). -/
def Stripe.settled (t : Stripe) (y : Nat) : Bool := (t.row y).released || t.untrusted y

/-- The first row from `y` on that is not settled, below `hi`. Each round passes one mark or one released row, so
`fuel` bounds the search. -/
def Stripe.firstUnsettled (t : Stripe) (hi : Nat) : Nat → Nat → Option Nat
  | 0, y => if y ≤ hi then some y else none
  | fuel + 1, y =>
    if hi < y then none
    else match t.marks.find? fun m => m.lo ≤ y && y ≤ m.hi with
    | some m => t.firstUnsettled hi fuel (m.hi + 1)
    | none => if (t.row y).released then t.firstUnsettled hi fuel (y + 1) else some y

/-- Every row from `lo` to `hi` is settled. -/
def Stripe.allSettled (t : Stripe) (lo hi : Nat) : Bool :=
  (t.firstUnsettled hi (t.marks.length + t.rows.length + 1) lo).isNone

/-- Record a mark on the rows `lo` to `hi` (R36). -/
def Stripe.markPlain (t : Stripe) (lo hi cause : Nat) : Stripe :=
  if lo ≤ hi && lo < t.count then { t with marks := t.marks ++ [⟨lo, min hi (t.count - 1), cause, false⟩] } else t

/-- The rows of the tile rows within 8 of those of `lo` to `hi` (R111). -/
def spreadRows (tile lo hi : Nat) : Nat × Nat := ((lo / tile - 8) * tile, (hi / tile + 9) * tile - 1)

/-- The runs of rows from `lo` to `hi` that have not been released. -/
def Stripe.heldRuns (t : Stripe) (lo hi : Nat) : List (Nat × Nat) :=
  let out := (t.rows.filter fun p => p.2.released && lo ≤ p.1 && p.1 ≤ hi).map (·.1)
  ((lo :: out.map (· + 1)).zip (out ++ [hi + 1])).filterMap fun p => if p.1 < p.2 then some (p.1, p.2 - 1) else none

/-- Marks that leave rows' figures unknown, made at once: intervals of rows, each with its cause. Rows that have been
released are passed over (R111). Under a bound dens_en of 1 the marks are spread; those made before the binding are kept, to
be spread at the binding. -/
def Stripe.markUnknowns (t : Stripe) (l : List (Nat × Nat × Nat)) : Stripe :=
  let runs := l.flatMap fun p => (t.heldRuns p.1 (min p.2.1 (t.count - 1))).map fun r => (r.1, r.2, p.2.2)
  let t1 := { t with marks := t.marks ++ runs.map fun r => ⟨r.1, r.2.1, r.2.2, true⟩ }
  match t.binding with
  | some b =>
    if b.densEn && t.play.isNone then
      runs.foldl (fun t r =>
        let s := spreadRows b.tile r.1 r.2.1
        t.markPlain s.1 s.2 r.2.2) t1
    else t1
  | none => t1

/-- One such mark. -/
def Stripe.markUnknown (t : Stripe) (lo hi cause : Nat) : Stripe := t.markUnknowns [(lo, hi, cause)]

/-- Spread, at the binding, of marks made before it (R111). -/
def Stripe.spreadEarlier (t : Stripe) (b : Binding) : Stripe :=
  if b.densEn then
    (t.marks.filter (·.unknown)).foldl (fun t m =>
      let r := spreadRows b.tile m.lo m.hi
      t.markPlain r.1 r.2 m.cause) t
  else t

/-- Mark every row not yet released (R40, R187, R313). -/
def Stripe.markRest (t : Stripe) (cause : Nat) : Stripe := t.markPlain 0 (t.count - 1) cause

/-- A row that was released is found unfit afterwards (R36, R299). -/
def Stripe.markRow (t : Stripe) (y cause : Nat) : Stripe :=
  if t.untrusted y then t
  else if (t.row y).released then t.onRow y fun r => { r with late := some cause }
  else t.markPlain y y cause

/-- Every row of the stripe is found unfit, released or not (R183). -/
def Stripe.markAll (t : Stripe) (cause : Nat) : Stripe :=
  (t.rows.foldl (fun t p => if p.2.released then t.markRow p.1 cause else t) t).markRest cause

/-! ### Blocks and row closure -/

/-- The block with a sequence number, when its header has been accepted. -/
def Stripe.block? (t : Stripe) (k : Nat) : Option Block := t.blocks.find? (·.seq == k)

/-- Change a block. -/
def Stripe.onBlock (t : Stripe) (k : Nat) (f : Block → Block) : Stripe :=
  { t with blocks := t.blocks.map fun b => if b.seq == k then f b else b }

/-- `cause_of` of R85: by the last outcome of the block. A resend not yet judged leaves the earlier NACK as the last
outcome (log entry 12). -/
def Block.causeOf (b : Block) : Nat :=
  match b.state with
  | .nacked cause => cause
  | .verified | .feeding => 0x13
  | .waiting | .verifying | .fed => b.lastNack.getD 0x02

/-- Row closure (R85), walking the blocks from `k`: `none` is closed, `some cause` is open. -/
def Stripe.closeWalk (t : Stripe) (v : Nat) : Nat → Nat → Option Nat
  | 0, _ => some 0x02
  | fuel + 1, k =>
    if t.closeSeq == some k then none
    else match t.block? k with
    | none => some 0x02
    | some b =>
      if v < b.vFirst then none
      else if v ≤ b.vLast && b.state ≠ .fed then some b.causeOf
      else t.closeWalk v fuel (k + 1)

/-- Row `y` (stripe-relative) is open with a cause, or closed (R85). -/
def Stripe.openCause (t : Stripe) (y : Nat) : Option Nat := t.closeWalk (t.vFirst + y) (t.blocks.length + 2) 1

/-- A row is Grist-closed (R85). -/
def Stripe.gristClosed (t : Stripe) (y : Nat) : Bool := (t.openCause y).isNone

/-! ### The stripes of a die -/

/-- Change a die's Grist reception. -/
def Chip.onGrist (c : Chip) (d : DieId) (f : Grist → Grist) : Chip := c.onDie d fun x => { x with grist := f x.grist }

/-- The held stripes of a die, oldest first (R57). -/
def Chip.stripes (c : Chip) (d : DieId) : List Stripe := (c.die d).grist.stripes

/-- A held stripe by its id. -/
def Chip.stripe? (c : Chip) (d : DieId) (id : Nat) : Option Stripe := (c.stripes d).find? (·.id == id)

/-- Change a held stripe. -/
def Chip.onStripe (c : Chip) (d : DieId) (id : Nat) (f : Stripe → Stripe) : Chip :=
  c.onGrist d fun g => { g with stripes := g.stripes.map fun t => if t.id == id then f t else t }

/-- The oldest held stripe that has not started (R179). -/
def Chip.oldestUnstarted (c : Chip) (d : DieId) : Option Stripe := (c.stripes d).find? fun t => !t.started && !t.ended

/-- A stripe is no longer held once it has ended and every row is settled (R57). -/
def Stripe.finished (t : Stripe) : Bool := t.ended && t.allSettled 0 (t.count - 1)

/-- Units of 4 KiB a block uses (R70). -/
def granulesOf (compLen : Nat) : Nat := (40 + compLen + 4095) / 4096

/-- Raise the granted counters by what is freed (R71, R72). -/
def Grist.grant (g : Grist) (granules descs : Nat) : Grist :=
  { g with granted := (g.granted + granules) % 2 ^ 32, descGranted := (g.descGranted + descs) % 2 ^ 32, creditDirty := true }

/-- Granules in use. -/
def Grist.used (g : Grist) : Nat :=
  ((g.stripes ++ g.gone).map fun t => ((t.blocks.filter (·.held)).map fun b => granulesOf b.compLen).sum).sum

/-- Descriptors in use. -/
def Grist.descs (g : Grist) : Nat := ((g.stripes ++ g.gone).map fun t => (t.blocks.filter (·.held)).length).sum

/-- Return the credits of a held block and drop its payload (R72). -/
def Grist.freeBlock (g : Grist) (id k : Nat) : Grist :=
  match (g.stripes.find? (·.id == id)).bind (·.block? k) with
  | none => g
  | some b =>
    if b.held then
      let stripes := g.stripes.map fun (t : Stripe) =>
        if t.id == id then t.onBlock k fun (b : Block) => { b with held := false, payload := [] } else t
      ({ g with stripes := stripes } : Grist).grant (granulesOf b.compLen) 1
    else g

/-- The conditions under which an accepted FIGURES block returns its credits (R72). A block of a played stripe is kept for
its feed decode (R159). -/
def Stripe.canFree (t : Stripe) (b : Block) : Bool :=
  b.held && t.allSettled (b.vFirst - t.vFirst) (b.vLast - t.vFirst) &&
  (match b.state with
   | .verified => t.play.isNone
   | .fed => true
   | .waiting | .verifying | .feeding | .nacked _ => false)

/-- A block that a decoder has still to judge, or is decoding. -/
def Block.undecided (b : Block) : Bool :=
  match b.state with
  | .waiting | .verifying | .feeding => b.held
  | .verified | .fed | .nacked _ => false

/-- What is left of a stripe that is let go. -/
def Stripe.remains (t : Stripe) : Stripe := { t with blocks := t.blocks.filter (·.undecided) }

/-- Drop stripes that are no longer held. Blocks of theirs whose decodes are done return their credits; the others stay
until they have been judged (R72, R78). A closing job whose last stripe has gone ends (R57, R58). -/
def Grist.dropFinished (g : Grist) : Grist :=
  let gone := g.stripes.filter (·.finished)
  let done := gone.flatMap fun t => t.blocks.filter fun b => b.held && !b.undecided
  let stripes := g.stripes.filter fun t => !t.finished
  let g1 := { g with
    stripes := stripes
    gone := g.gone ++ (gone.map (·.remains)).filter (!·.blocks.isEmpty)
    jobs := g.jobs.filter fun j => !(j.closing && !(stripes.any (·.job == j.id))) }
  if done.isEmpty then g1 else g1.grant ((done.map fun b => granulesOf b.compLen).sum) done.length

/-! ### The stores of the Cask (R148 to R155): failures, and taking a stripe's rows -/

/-- A Cask store that is not begun (R148): the reason is recorded. -/
def Chip.caskFail (c : Chip) (d : DieId) (count : Fld) (source reason entry chunk stripe job : Nat) : Chip :=
  ((c.puts d [(F.CASK_LAST_FAIL_reason, reason), (F.CASK_LAST_FAIL_entry, entry), (F.CASK_LAST_FAIL_chunk, chunk),
    (F.CASK_LAST_FAIL_1_stripe_id, stripe), (F.CASK_LAST_FAIL_2_job_id, job)]).bump d count).raise d source

/-- Change a die's Cask. -/
def Chip.onCask (c : Chip) (d : DieId) (f : Cask → Cask) : Chip := c.onDie d fun x => { x with cask := f x.cask }

/-- An entry that is free. -/
def CaskEntry.none : CaskEntry := ⟨.free, 0, 0, 0, 0, 0, 0, 0, 0, 0, 0, [], 0, [], 0⟩

/-- A directory entry of the Cask. -/
def Cask.entry (x : Cask) (n : Nat) : CaskEntry := smGet CaskEntry.none n x.entries

/-- Change a directory entry. -/
def Cask.onEntry (x : Cask) (n : Nat) (f : CaskEntry → CaskEntry) : Cask :=
  { x with entries := smSet CaskEntry.none n (f (x.entry n)) x.entries }

/-- Granules of an area of a given size (CASK_SPACE). -/
def caskGranules (size64k : Nat) : Nat := 16 * size64k

/-- An entry becomes free: its granules return to the pool, where they serve no request of this clock (R155, R156). A
record on its way is given up. -/
def Chip.freeCaskEntry (c : Chip) (d : DieId) (n : Nat) : Chip :=
  let size := caskGranules (c.fld d F.CASK_SIZE_size_64k)
  let under := ((c.die d).cask.writing.map (·.entry)) == some n
  ((c.onCask d fun k =>
    let g := (k.entry n).granules
    { k.onEntry n fun _ => CaskEntry.none with
      freeGranules := min size (k.freeGranules + g)
      storing := k.storing.filter (· != n)
      freed := (if k.freedAt = c.now then k.freed else 0) + g
      freedAt := c.now
      writing := if under then none else k.writing }).onGrist d fun g => { g with
        stripes := g.stripes.map fun t => if t.store == some n then { t with store := none } else t }).onDram d fun x =>
          if under then { x with owed := smErase 5 (smErase 4 x.owed) } else x

/-- An entry is being stored; or its last chunk was committed in this clock, in which a failure still stands (R163). -/
def Chip.storeOpen (c : Chip) (d : DieId) (n : Nat) : Bool :=
  let e := (c.die d).cask.entry n
  e.state == .storing || (e.state == .ready && ((c.startDie d).cask.entry n).state == .storing)

/-- A directory entry cannot be read: its word becomes poison (R293, R300). -/
def Cask.spoil (k : Cask) (n : Nat) : Cask := { k with badDir := if k.badDir.contains n then k.badDir else k.badDir ++ [n] }

/-- A store fails (R154, R155). -/
def Chip.storeFail (c : Chip) (d : DieId) (n reason chunk : Nat) : Chip :=
  let e := (c.die d).cask.entry n
  if c.storeOpen d n then
    (c.freeCaskEntry d n).caskFail d F.CASK_STORE_FAIL_COUNT_count 76 reason n chunk e.stripe e.job
  else c

/-- The entry of a stripe's store, as of the start of the clock if the store has just ended. -/
def Chip.storeOf (c : Chip) (d : DieId) (t : Stripe) : Option Nat :=
  match t.store with
  | some n => some n
  | none => ((c.startDie d).grist.stripes.find? fun u => u.id == t.id && u.job == t.job).bind (·.store)

/-- The store of a stripe fails, if the stripe is being stored. -/
def Chip.storeFailOf (c : Chip) (d : DieId) (t : Stripe) (reason : Nat) : Chip :=
  match c.storeOf d t with
  | none => c
  | some n => c.storeFail d n reason 0

/-- Bytes of a packed row (R149): two pixels of the raster range per byte. -/
def caskRowBytes (c : Chip) (d : DieId) (sxLog2 : Nat) : Nat := rasterWidth c d sxLog2 / 2

/-- The packed bytes of a row's gray levels, `n` of them (R149). -/
def packRow (n : Nat) (g : List Nat) : List Nat := (List.range n).map fun i => g.getD (2 * i) 0 + 16 * g.getD (2 * i + 1) 0

/-- Gray levels of `n` packed bytes. -/
def unpackRow (b : List Nat) : List Nat := b.flatMap fun x => [x % 16, x / 16 % 16]

/-- Bytes staged by the compressor of a die. -/
def Chip.stagedBytes (c : Chip) (d : DieId) : Nat :=
  let k := (c.die d).cask
  (k.storing.map fun n => let e := k.entry n
    (e.staged.filter (·.isSome)).length * caskRowBytes c d e.sxLog2).sum

/-- The compressor takes the next row of a store, while it may: a released row as data, an untrusted one as a hole, the
1 MiB staging SRAM allowing (R150, R153). -/
def Chip.takeRow (c : Chip) (d : DieId) (n : Nat) : Chip :=
  match (c.stripes d).find? fun t => t.store == some n with
  | none => c
  | some t =>
    let e := (c.die d).cask.entry n
    let y := e.taken
    let keep (row : Option (List Nat)) : Chip := c.onCask d (·.onEntry n fun e =>
      { e with taken := e.taken + 1, staged := e.staged ++ [row]
               holeRows := if row.isNone then e.holeRows + 1 else e.holeRows })
    if t.count ≤ y then c
    else if t.untrusted y then keep none
    else if (t.row y).released && (t.row y).gray.isSome &&
      c.stagedBytes d + caskRowBytes c d e.sxLog2 ≤ 2 ^ 20
    then keep (some ((t.row y).gray.getD []))
    else c

/-- Rows are taken up to one that cannot be taken yet. -/
def Chip.takeRowsOf (c : Chip) (d : DieId) (n : Nat) : Nat → Chip
  | 0 => c
  | fuel + 1 =>
    let c1 := c.takeRow d n
    if ((c1.die d).cask.entry n).taken = ((c.die d).cask.entry n).taken then c else c1.takeRowsOf d n fuel

/-- The compressor of a die takes every row that it can. -/
def Chip.caskTake (c : Chip) (d : DieId) : Chip :=
  c.forEach (c.die d).cask.storing fun c n =>
    let e := (c.die d).cask.entry n
    c.takeRowsOf d n (e.rows - e.taken)

/-- A store whose stripe is let go must have every row by then; the rows' Tun slots are free now (R116, R154). -/
def Chip.closeStore (c : Chip) (d : DieId) (t : Stripe) : Chip :=
  match t.store with
  | none => c
  | some n =>
    let c1 := c.caskTake d
    let e := (c1.die d).cask.entry n
    if e.taken < e.rows then c1.storeFail d n 0x5 (e.taken / 16) else c1

/-- Settle what R57 lets go on a die, and write the records of the jobs that end (R58, R360). -/
def Chip.dropFinished (c : Chip) (d : DieId) : Chip :=
  if (c.stripes d).any (·.finished) || (c.die d).grist.jobs.any (·.closing) then
    let before := (c.die d).grist.jobs
    let c0 := c.forEach ((c.stripes d).filter (·.finished)) fun c t => c.closeStore d t
    let c1 := (c0.onGrist d (·.dropFinished)).onDie d fun x => { x with kiln := { x.kiln with
        marginIn := x.kiln.marginIn.filter fun m => x.grist.stripes.any fun t => t.id == m.stripe && t.job == m.job } }
    let left := (c1.die d).grist.jobs.map (·.id)
    c1.forEach (before.filter fun j => !(left.contains j.id)) fun c j => c.jobEnded d j
  else c

/-- End a stripe on a die: it closes the log's open entry (R45) and may be let go (R57). -/
def Chip.endStripeOn (c : Chip) (d : DieId) (id : Nat) : Chip :=
  ((c.onStripe d id fun t => { t with ended := true }).closeLog d id).dropFinished d

/-- The u range of a die's beams for a span of a stripe, under the binding of the Kiln or the active MAP_GEOM. -/
def Chip.sxOf (c : Chip) (d : DieId) (t : Stripe) : Nat :=
  match t.binding with
  | some b => b.sxLog2
  | none => c.act d F.MAP_GEOM_sx_log2

end Sys2Proof.Machine
end

