-- ==== Sys2Proof/Machine/Budget.lean ====
section
/-! DEFINITION. DRAM addresses (R277 to R279), the clients' budgets (R48 to R52, R285), the Tun-fill buffer and panic
(R284). -/

namespace Sys2Proof.Machine

/-! ### Addresses (R277 to R279) -/

/-- Page of a die address: D[34:12]. -/
def pageOf (addr : Nat) : Nat := addr / 4096

/-- Channel of a die address: D[13:12]. -/
def channelOf (addr : Nat) : Nat := addr / 4096 % 4

/-- Channel-local byte address A of a die address (R277). -/
def localOf (addr : Nat) : Nat := addr % 4096 + 4096 * (addr / 16384)

/-- Bank and row of a die address (R279). -/
def bankOf (addr : Nat) : Nat := localOf addr / 2048 % 16
def rowOf (addr : Nat) : Nat := localOf addr / 32768

/-- Column and byte of a die address within its row (R279). -/
def columnOf (addr : Nat) : Nat := localOf addr / 64 % 32

/-- Die page of a channel-local page. -/
def diePage (channel localPage : Nat) : Nat := 4 * localPage + channel

/-- First page of the reserved region, and of the spare pool (R278). -/
def reservedPage : Nat := 0x7FF800
def sparePage0 : Nat := 0x1FFF00

/-- Bytes of a die's DRAM. -/
def dramBytes : Nat := 2 ^ 35

/-- The page that stands for a channel-local page (R297): its spare, and that spare's own if it was retired too. -/
def DramCtl.spareFor (x : DramCtl) (channel : Nat) : Nat → Nat → Nat
  | 0, page => page
  | fuel + 1, page =>
    match x.retired.find? fun p => p.1 / 256 == channel && p.2 == page with
    | some p => x.spareFor channel fuel (sparePage0 + p.1 % 256)
    | none => page

/-- The die address at which an address is stored. -/
def DramCtl.physical (x : DramCtl) (addr : Nat) : Nat :=
  diePage (channelOf addr) (x.spareFor (channelOf addr) 256 (addr / 16384)) * 4096 + addr % 4096

/-- Row plus 1 that is open in a bank, by 16 × channel + bank; 0 where none is (R280). -/
def DramCtl.openRow (x : DramCtl) (key : Nat) : Nat :=
  match x.openRows.find? (·.1 == key), x.rowSeed with
  | some p, _ => p.2
  | none, some n => Config.openRow n key % (2 ^ 18 + 1)
  | none, none => 0

/-- The rows of some banks close. -/
def DramCtl.closeRows (x : DramCtl) (keys : List Nat) : DramCtl :=
  { x with openRows := keys.foldl (fun l k => if x.rowSeed.isSome then smInsert k 0 l else smErase k l) x.openRows }

/-- A request arrives at a channel: it is awake. A self-refresh entry of the same clock is abandoned, with the rows that it had
closed (R283). -/
def Chip.arrive (c : Chip) (d : DieId) (ch : Nat) : Chip :=
  let was := (c.startDie d).dram
  c.onDram d fun x => { x with
    asleep := setNbit x.asleep ch false
    lastReq := smInsert ch c.now x.lastReq
    openRows :=
      if nbit x.asleep ch && !nbit was.asleep ch then
        (was.openRows.filter (·.1 / 16 == ch)).foldl (fun l p => smInsert p.1 p.2 l) (x.openRows.filter (·.1 / 16 != ch))
      else x.openRows }

/-- A request reaches a stored address: its channel is awake, and the row stays open in its bank (R280, R283). -/
def Chip.touch (c : Chip) (d : DieId) (phys : Nat) : Chip :=
  let ch := channelOf phys
  (c.arrive d ch).onDram d fun x => { x with openRows := smInsert (16 * ch + bankOf phys) (rowOf phys + 1) x.openRows }

/-! ### Budgets (R48 to R52, R285) -/

/-- The client that fills the Tun: Tun fill, or Cask read for a played stripe (R51). -/
def Chip.tunFillClient (c : Chip) (d : DieId) : Nat :=
  match (c.stripes d).find? fun t => !t.allSettled 0 (t.count - 1) with
  | some t => if t.play.isSome then 4 else 0
  | none => 0

/-- The budget register of a client. -/
def Chip.budgetOf (c : Chip) (d : DieId) (client : Nat) : Nat := bits ((c.die d).reg (0x0E0010 + 4 * client)) 14 0

/-- DRAM_BUDGET_SUM.sum (R285). -/
def Chip.budgetSum (c : Chip) (d : DieId) : Nat := ((List.range 7).map (c.budgetOf d)).sum

/-- Transactions that a client may still make in this period; `none` is as many as it asks for. In panic the client that
fills the Tun is exempt, and Cask write and the scrubber stall (R51). Budgets of a sum above what the die guarantees share
what it guarantees in the order of priority: reads that wait of more urgent clients come first (R49). -/
def Chip.budgetLeft (c : Chip) (d : DieId) (client : Nat) : Option Nat :=
  let x := (c.die d).dram
  if x.panic && client == c.tunFillClient d then none
  else if x.panic && (client == 5 || client == 6) then some 0
  else
    let own (k : Nat) : Nat := x.budgets.getD k 0 - smGet 0 k x.used
    let ahead := ((List.range client).map fun k => min (own k) (x.queue.filter (·.client == k)).length).sum
    some (if 14336 < x.budgets.sum then min (own client) (14336 - (x.used.map (·.2)).sum - ahead) else own client)

/-- A client may not be served in this period. -/
def Chip.stalls (c : Chip) (d : DieId) (client : Nat) : Bool := c.budgetLeft d client == some 0

/-- Transactions of a client are counted against its budget. -/
def DramCtl.count (x : DramCtl) (client n now : Nat) : DramCtl :=
  { x with used := smSet 0 client (smGet 0 client x.used + n) x.used, lastAt := smInsert client now x.lastAt }

/-- Transactions that a channel may still take: 64 are in flight at most (R281), and one takes a tick (DEDUCED, log entry 29). -/
def DramCtl.room (x : DramCtl) (ch : Nat) : Nat := 64 - smGet 0 ch x.flown

/-- A channel has taken transactions in this tick. -/
def DramCtl.fly (x : DramCtl) (ch n : Nat) : DramCtl := { x with flown := smSet 0 ch (min 64 (smGet 0 ch x.flown + n)) x.flown }

/-- One transaction of a client at a stored address is served: its budget, the channel's activity and the bank's open row
(R48, R280, R283). -/
def Chip.serve (c : Chip) (d : DieId) (client phys : Nat) : Chip :=
  (c.touch d phys).onDram d fun x => (x.count client 1 c.now).fly (channelOf phys) 1

/-- A read of a client waits for its budget (R48). -/
def Chip.stallRead (c : Chip) (d : DieId) (client : Nat) : Chip :=
  c.onDram d fun x => { x with stalled := setNbit x.stalled client true }

/-! ### Requests that wait

A unit that moves whole blocks asks for all their lines at once; they are served as its budget allows. The classes are the
clients 0 to 6, with 8 for the lines that the Tun-fill buffer fetches for the feed decoder (client 0), and 9 for those that
it fetches for a play (client 4). -/

/-- Lines fetched ahead for the feed decoder, and for a play. -/
def feedKey : Nat := 8
def playKey : Nat := 9

/-- The client of a class. -/
def clientOf (key : Nat) : Nat := if key = feedKey then 0 else if key = playKey then 4 else key

/-- The classes in order of priority (R48, R50). -/
def requestOrder : List Nat := [feedKey, 0, 1, 2, 3, playKey, 4, 5, 6]

/-- Requests of a class that wait. -/
def DramCtl.waiting (x : DramCtl) (key : Nat) : Nat := smGet 0 key x.owed

/-- Channels of `lines` lines from an address on. -/
def channelsOf (addr lines : Nat) : List Nat :=
  ((List.range (min 4 ((addr % 4096 / 64 + lines + 63) / 64))).map fun i => channelOf (addr + 4096 * i)).eraseDups

/-- The check units of a die. -/
def ChkUnits.all (x : ChkUnits) : List ChkUnit := [x.u0, x.u1, x.u2, x.u3]

/-- Lines that a range covers. -/
def ChkUnit.lines (x : ChkUnit) : Nat := (x.addr % 64 + x.len + 63) / 64

/-- Channels that carry the lines of a class. Those of the management client are of a fill, a training operation or a check
unit's range; where the lines of other classes lie is not specified, and all channels are taken to carry them. -/
def Chip.classChannels (c : Chip) (d : DieId) (key : Nat) : List Nat :=
  let x := (c.die d).dram
  if key ≠ 2 || !x.fills.isEmpty then [0, 1, 2, 3]
  else ((match x.train with
    | some t => [t.channel]
    | none => []) ++ ((c.die d).chk.all.filter (·.busy)).flatMap fun u => channelsOf u.addr u.lines).eraseDups

/-- Lines of a class go to its channels: they are awake, and of lines whose addresses the spec does not show it is open which
rows stay open, and what a write has left in the areas of Grist reception and the Cask (R280, R283). -/
def Chip.sendLines (c : Chip) (d : DieId) (key n : Nat) : Chip :=
  let chs := c.classChannels d key
  let c1 := (c.forEach chs fun c ch => c.arrive d ch).onDram d fun x =>
    chs.foldl (fun x ch => x.fly ch ((n + chs.length - 1) / chs.length)) x
  if key = 2 then c1
  else
    let r := c1.freshBelow (2 ^ 32)
    r.2.onDram d fun x => { x with
      openRows := [], rowSeed := some r.1, written := if key = 1 || key = 5 then [] else x.written }

/-- The requests of a class are served as far as its client's budget and its channels go (R48, R281); what waits for the budget
stalls. -/
def Chip.serveClass (c : Chip) (d : DieId) (key : Nat) : Chip :=
  let want := (c.die d).dram.waiting key
  if want = 0 || !(c.die d).dram.active then c
  else
    let k := clientOf key
    let left := match c.budgetLeft d k with
      | none => want
      | some left => min want left
    let n := min left (((c.classChannels d key).map (c.die d).dram.room).sum)
    (if n = 0 then c else c.sendLines d key n).onDram d fun x =>
      let y := if n = 0 then x else
        { x.count k n c.now with
          level := if key = feedKey || key = playKey then x.level + n else x.level }
      { y with owed := smSet 0 key (want - n) y.owed, stalled := if left < want then setNbit y.stalled k true else y.stalled }

/-- Every class is served, the most urgent first (R50). -/
def Chip.serveAll (c : Chip) (d : DieId) : Chip := c.forEach requestOrder fun c key => c.serveClass d key

/-- The decoder that the Tun-fill buffer feeds has further data to fetch (R284). -/
def DramCtl.more (x : DramCtl) : Bool :=
  x.fetchLeft != 0 || x.playLeft != 0 || x.waiting feedKey != 0 || x.waiting playKey != 0

/-- Panic is judged against the level of the Tun-fill buffer (R284). -/
def Chip.judgePanic (c : Chip) (d : DieId) : Chip :=
  let x := (c.die d).dram
  let on := c.fld d F.DRAM_PANIC_panic_on
  let off := max (on + 1) (c.fld d F.DRAM_PANIC_panic_off)
  if x.panic then
    if off ≤ x.level || !x.more then c.onDram d fun x => { x with panic := false } else c
  else if x.more && x.level < on then
    (c.onDram d fun x => { x with panic := true }).bump d F.DRAM_PANIC_COUNT_count
  else c

/-- The decoders that the buffer feeds ask for as much as its 4,096 lines have room for (R284). -/
def DramCtl.refill (x : DramCtl) : DramCtl :=
  let room := 4096 - x.level - x.waiting feedKey - x.waiting playKey
  let n := min x.fetchLeft room
  let m := min x.playLeft (room - n)
  { x with
    fetchLeft := x.fetchLeft - n, playLeft := x.playLeft - m
    owed := smSet 0 playKey (x.waiting playKey + m) (smSet 0 feedKey (x.waiting feedKey + n) x.owed) }

/-- Panic is judged on what is to be fetched; what waits is served; and panic is judged on what has come of it. -/
def Chip.runBudget (c : Chip) (d : DieId) : Chip :=
  (((c.onDram d (·.refill)).judgePanic d).serveAll d).judgePanic d

/-- A unit asks for lines of a class. -/
def Chip.askLines (c : Chip) (d : DieId) (key n : Nat) : Chip :=
  (c.onDram d fun x => { x with owed := smSet 0 key (x.waiting key + n) x.owed }).runBudget d

/-- In every tick the channels take transactions anew, and what waits is served again. -/
def Chip.budgetTick (c : Chip) (d : DieId) : Chip :=
  let c1 := c.onDram d fun x => { x with flown := [], fixedNow := [] }
  let x := (c1.die d).dram
  if x.owed.isEmpty && x.fetchLeft = 0 && x.playLeft = 0 && !x.panic then c1 else c1.runBudget d

/-- A client has used the last transaction of its budget in this tick: it counts against a period that starts in the same
tick (R52). -/
def DramCtl.lastNow (x : DramCtl) (now client : Nat) : Bool :=
  x.lastAt.contains (client, now) && x.budgets.getD client 0 ≤ smGet 0 client x.used && smGet 0 client x.used ≠ 0

/-- Loading of the budgets at the start of a period (R48, R52, DRAM_CLIENT_n). -/
def Chip.startPeriod (c : Chip) (d : DieId) : Chip :=
  let x := (c.die d).dram
  let c1 := c.forEach (List.range 7) fun c n =>
    let c1 := c.put d (F.DRAM_CLIENT_used_last.at n) (smGet 0 n x.used - b2n (x.lastNow c.now n))
    if nbit x.stalled n then c1.bump d (F.DRAM_CLIENT_stalls.at n) else c1
  (c1.onDram d fun y => { y with
    periods := y.periods + 1, budgets := (List.range 7).map (c.budgetOf d)
    used := ((List.range 7).filter (x.lastNow c.now)).map (·, 1), stalled := 0 }).runBudget d

/-! ### The Tun-fill buffer and the feed decoder (R284) -/

/-- Lines that a block takes in the receive area. -/
def linesOf (compLen : Nat) : Nat := (40 + compLen + 63) / 64

/-- The feed decoder begins to fetch a block. -/
def Chip.beginFetch (c : Chip) (d : DieId) (lines : Nat) : Chip :=
  (c.onDram d fun x => { x with fetchLeft := lines }).runBudget d

/-- A play begins to fetch a chunk. -/
def Chip.beginPlayFetch (c : Chip) (d : DieId) (lines : Nat) : Chip :=
  (c.onDram d fun x => { x with playLeft := lines }).runBudget d

/-- Lines of the chunk being played that have not been fetched. -/
def DramCtl.playWaits (x : DramCtl) : Nat := x.playLeft + x.waiting playKey

/-- Lines of a block of `lines` lines that the feed decoder has fetched. -/
def DramCtl.fetched (x : DramCtl) (lines : Nat) : Nat := lines - x.fetchLeft - x.waiting feedKey

/-- The decoder has consumed lines of the buffer. -/
def Chip.consume (c : Chip) (d : DieId) (n : Nat) : Chip :=
  if n = 0 then c else (c.onDram d fun x => { x with level := x.level - n }).runBudget d

/-- The feed decoder is done with a block of which it had consumed `taken` lines: what is left of it leaves the buffer. -/
def Chip.endFetch (c : Chip) (d : DieId) (lines taken : Nat) : Chip :=
  c.onDram d fun x => { x with
    level := x.level - (x.fetched lines - taken), fetchLeft := 0, owed := smErase feedKey x.owed }

end Sys2Proof.Machine
end

