-- ==== Sys2Proof/Machine/Mash.lean ====
section
/-! DEFINITION. The Mash format (R81 to R84): the decoder, its errors and their byte offsets. -/

namespace Sys2Proof.Machine

/-- A decode error of R84. -/
structure MashErr where
  sub : Nat
  offset : Nat
  deriving DecidableEq, Repr

/-- The reader: bits left, in reading order, and bits read so far. -/
structure MashIn where
  left : List Bool
  pos : Nat
  deriving DecidableEq, Repr

/-- The eight bits of a byte, bit 0 first (R81). -/
def byteBits (b : Nat) : List Bool := (List.range 8).map (nbit b)

/-- A reader at the start of a payload. -/
def MashIn.start (bytes : List Nat) : MashIn := ⟨bytes.flatMap byteBits, 0⟩

/-- The byte that holds the last bit read. -/
def MashIn.lastByte (r : MashIn) : Nat := (r.pos - 1) / 8

/-- The error 0xA: no bit is left; its offset is comp_len, one past the last byte. -/
def MashIn.ended (r : MashIn) : MashErr := ⟨0xA, (r.pos + r.left.length) / 8⟩

/-- An error at the byte that holds the last bit read. -/
def MashIn.err (r : MashIn) (sub : Nat) : MashErr := ⟨sub, r.lastByte⟩

/-- Read one bit. -/
def MashIn.bit (r : MashIn) : Except MashErr (Bool × MashIn) :=
  match r.left with
  | [] => .error r.ended
  | b :: l => .ok (b, ⟨l, r.pos + 1⟩)

/-- Read an integer of `n` bits, least significant bit first (R81). -/
def MashIn.int : Nat → MashIn → Except MashErr (Nat × MashIn)
  | 0, r => .ok (0, r)
  | n + 1, r =>
    match r.bit with
    | .error e => .error e
    | .ok (b, r1) =>
      match MashIn.int n r1 with
      | .error e => .error e
      | .ok (v, r2) => .ok (b2n b + 2 * v, r2)

/-- An assigned code word: length, code, symbol. -/
structure CodeWord where
  len : Nat
  code : Nat
  sym : Nat
  deriving DecidableEq, Repr

/-- The first code of each length in ascending order from 1: each is (last code of the previous length + 1), shifted
left by one bit (R82). -/
def firstCodes (counts : List Nat) : List Nat :=
  (counts.foldl (fun (acc : List Nat × Nat) n => (acc.1 ++ [acc.2], (acc.2 + n) * 2)) ([], 0)).1

/-- The canonical code words of a list of code lengths, one per symbol from 0 (R82). -/
def canonical (lens : List Nat) : List CodeWord :=
  let counts := (List.range 15).map fun i => lens.count (i + 1)
  let firsts := firstCodes counts
  (List.range 15).flatMap fun i =>
    let syms := (List.range lens.length).filter fun s => lens.getD s 0 = i + 1
    (List.range syms.length).map fun j => ⟨i + 1, firsts.getD i 0 + j, syms.getD j 0⟩

/-- The sum of 2^-length over the used symbols exceeds 1 (R84, sub-code 0x4). -/
def overSubscribed (lens : List Nat) : Bool :=
  2 ^ 15 < (lens.map fun n => if n = 0 then 0 else 2 ^ (15 - n)).sum

/-- Read a symbol, most significant bit first; the word is unassigned as soon as its bits are a prefix of no assigned
word (R83). `fuel` bounds the word's length. -/
def MashIn.sym (words : List CodeWord) : Nat → Nat → Nat → MashIn → Except MashErr (Nat × MashIn)
  | 0, _, _, r => .error (r.err 0x6)
  | fuel + 1, len, code, r =>
    match r.bit with
    | .error e => .error e
    | .ok (b, r1) =>
      let len1 := len + 1
      let code1 := 2 * code + b2n b
      match words.find? fun w => w.len == len1 && w.code == code1 with
      | some w => .ok (w.sym, r1)
      | none =>
        if words.any fun w => len1 < w.len && w.code >>> (w.len - len1) == code1 then
          MashIn.sym words fuel len1 code1 r1
        else .error (r1.err 0x6)

/-- Code lengths of the static code (R82). -/
def staticA : List Nat :=
  List.replicate 144 8 ++ List.replicate 112 9 ++ List.replicate 18 7

/-- Code lengths of the static code's alphabet B. -/
def staticB : List Nat := List.replicate 17 5

/-- Output of the decoder so far: bytes, newest first, and how many. -/
structure MashOut where
  rev : List Nat
  n : Nat
  deriving DecidableEq, Repr

/-- Append one byte. -/
def MashOut.push (o : MashOut) (b : Nat) : MashOut := ⟨b :: o.rev, o.n + 1⟩

/-- Copy `len` bytes, one at a time, from `dist` bytes back (R82). -/
def MashOut.copy (dist : Nat) : Nat → MashOut → MashOut
  | 0, o => o
  | len + 1, o => MashOut.copy dist len (o.push (o.rev.getD (dist - 1) 0))

/-- Symbols of a coded section up to its end (R81, R82). -/
def mashCoded (wa wb : List CodeWord) (limit : Nat) : Nat → MashIn → MashOut → Except MashErr (MashIn × MashOut)
  | 0, r, _ => .error r.ended
  | fuel + 1, r, o =>
    match MashIn.sym wa 16 0 0 r with
    | .error e => .error e
    | .ok (s, r1) =>
      if s < 256 then
        if limit < o.n + 1 then .error (r1.err 0x9) else mashCoded wa wb limit fuel r1 (o.push s)
      else if s = 256 then .ok (r1, o)
      else if wb.isEmpty then .error (r1.err 0x7)
      else
        match MashIn.int (if s = 273 then 10 else 0) r1 with
        | .error e => .error e
        | .ok (x, r2) =>
          let len := if s = 273 then 20 + x else s - 253
          match MashIn.sym wb 16 0 0 r2 with
          | .error e => .error e
          | .ok (k, r3) =>
            match MashIn.int (k - 1) r3 with
            | .error e => .error e
            | .ok (y, r4) =>
              let dist := if k = 0 then 1 else 2 ^ (k - 1) + 1 + y
              if o.n < dist then .error (r4.err 0x8)
              else if limit < o.n + len then .error (r4.err 0x9)
              else mashCoded wa wb limit fuel r4 (o.copy dist len)

/-- Skip to the next byte boundary (R81). -/
def MashIn.align (r : MashIn) : MashIn :=
  let k := (8 - r.pos % 8) % 8
  ⟨r.left.drop k, r.pos + k⟩

/-- `n` literal bytes of a stored section. -/
def mashStored (limit : Nat) : Nat → MashIn → MashOut → Except MashErr (MashIn × MashOut)
  | 0, r, o => .ok (r, o)
  | n + 1, r, o =>
    match MashIn.int 8 r with
    | .error e => .error e
    | .ok (b, r1) => if limit < o.n + 1 then .error (r1.err 0x9) else mashStored limit n r1 (o.push b)

/-- `n` code lengths of 4 bits. -/
def mashLens : Nat → MashIn → Except MashErr (List Nat × MashIn)
  | 0, r => .ok ([], r)
  | n + 1, r =>
    match MashIn.int 4 r with
    | .error e => .error e
    | .ok (v, r1) =>
      match mashLens n r1 with
      | .error e => .error e
      | .ok (l, r2) => .ok (v :: l, r2)

/-- The code description of a dynamic section, checked in reading order (R83). -/
def mashDynamic (r : MashIn) : Except MashErr (List CodeWord × List CodeWord × MashIn) :=
  match MashIn.int 5 r with
  | .error e => .error e
  | .ok (a, r1) =>
    if 17 < a then .error (r1.err 0x3)
    else match MashIn.int 5 r1 with
    | .error e => .error e
    | .ok (b, r2) =>
      if 16 < b then .error (r2.err 0x3)
      else match mashLens (a + 257) r2 with
      | .error e => .error e
      | .ok (la, r3) =>
        if overSubscribed la then .error (r3.err 0x4)
        else if la.getD 256 0 = 0 then .error (r3.err 0x5)
        else match mashLens (b + 1) r3 with
        | .error e => .error e
        | .ok (lb, r4) => if overSubscribed lb then .error (r4.err 0x4) else .ok (canonical la, canonical lb, r4)

/-- What follows the last section (R84): the length check as it ends, then padding and remaining bytes. -/
def mashFinish (limit : Nat) (r : MashIn) (o : MashOut) : Except MashErr (List Nat) :=
  if o.n < limit then .error (r.err 0xC)
  else if (r.left.take ((8 - r.pos % 8) % 8)).any id then .error (r.err 0xB)
  else if r.align.left.isEmpty then .ok o.rev.reverse
  else .error ⟨0xB, r.align.pos / 8⟩

/-- Sections up to the last one. `fuel` bounds their number. -/
def mashSections (limit : Nat) : Nat → MashIn → MashOut → Except MashErr (List Nat)
  | 0, r, _ => .error r.ended
  | fuel + 1, r, o =>
    match MashIn.int 8 r with
    | .error e => .error e
    | .ok (h, r1) =>
      if h % 4 = 3 then .error (r1.err 0x1)
      else if h / 8 ≠ 0 then .error (r1.err 0x2)
      else
        let body : Except MashErr (MashIn × MashOut) :=
          if h % 4 = 0 then
            match MashIn.int 16 r1.align with
            | .error e => .error e
            | .ok (n, r2) => mashStored limit (n + 1) r2 o
          else if h % 4 = 1 then mashCoded (canonical staticA) (canonical staticB) limit (r1.left.length + 1) r1 o
          else match mashDynamic r1 with
            | .error e => .error e
            | .ok (wa, wb, r2) => mashCoded wa wb limit (r2.left.length + 1) r2 o
        match body with
        | .error e => .error e
        | .ok (r2, o2) => if nbit h 2 then mashFinish limit r2 o2 else mashSections limit fuel r2 o2

/-- Decode a payload to exactly `origLen` bytes, or stop at the first error (R81 to R84). -/
def mashDecode (payload : List Nat) (origLen : Nat) : Except MashErr (List Nat) :=
  mashSections origLen (payload.length + 1) (MashIn.start payload) ⟨[], 0⟩

end Sys2Proof.Machine
end

