-- ==== Sys2Proof/Machine/Grist.lean ====
section
/-! DEFINITION. Grist reception (chapter 2, R55 to R89): header checks, credits, return messages, the two decodes of
every FIGURES block, and row deadlines. -/

namespace Sys2Proof.Machine

/-! ### The block header (R60) -/

/-- The fields of a block header. -/
structure Header where
  type : Nat
  resend : Bool
  caskStore : Bool
  version : Nat
  die : Nat
  moduleId : Nat
  /-- Every reserved bit of the header is zero. -/
  clean : Bool
  job : Nat
  stripe : Nat
  seq : Nat
  vFirst : Nat
  vLast : Nat
  compLen : Nat
  origLen : Nat
  origCrc : Nat
  deriving DecidableEq, Repr

/-- Word `i` of a header. -/
def hdrWord (bytes : List Nat) (i : Nat) : Word := word (leAt bytes (4 * i) 4)

/-- The header of a block's delivered bytes (R60). -/
def parseHeader (bytes : List Nat) : Header :=
  let w := hdrWord bytes
  { type := bits (w 0) 3 0, resend := bit (w 0) 4, caskStore := bit (w 0) 5, version := bits (w 0) 11 8
    die := bits (w 0) 12 12, moduleId := bits (w 0) 15 13
    clean := bits (w 0) 7 6 == 0 && bits (w 0) 31 16 == 0 && bits (w 2) 31 24 == 0 && bits (w 6) 31 24 == 0 &&
      bits (w 7) 31 28 == 0 && bits (w 9) 15 0 == 0
    job := (w 1).toNat, stripe := bits (w 2) 23 0, seq := (w 3).toNat, vFirst := (w 4).toNat, vLast := (w 5).toNat
    compLen := bits (w 6) 23 0, origLen := bits (w 7) 27 0, origCrc := (w 8).toNat }

/-- hdr_crc matches (R61); fewer than 40 bytes never do (R257). -/
def hdrCrcOk (bytes : List Nat) : Bool := 40 ≤ bytes.length && leAt bytes 38 2 == crc16 (bytes.take 38)

/-! ### Return messages (R75, R76) -/

/-- A return or LANE message of five words and the checked sixth (R75). -/
def sealMessage (ws : List Nat) : List Nat :=
  let body := (ws.map (leBytes 4)).flatten ++ [0, 0]
  ws ++ [crc16 body * 65536]

/-- The return lane can carry a message now (R259, R244): awake for 2 µs. -/
def Chip.returnReady (c : Chip) (d : DieId) : Bool :=
  let g := (c.die d).gr
  g.returnAwake && 2 * usTicks ≤ c.sinceTick g.wokeAt

/-- The return lane: the lowest-numbered lane of the set in force (R258). -/
def GrLanes.returnLane (g : GrLanes) : Nat := ((onesOf 16 g.mask).head?).getD 0

/-- Where a frame that leaves now on a GR_TX begins; every GR_TX has the preset set in PHY_GR_CTRL (R253). -/
def Chip.grPos (c : Chip) (d : DieId) (l : Nat) : LinePos :=
  { ((c.die d).gr.phy l).linePos c.now with preset := c.fld d F.PHY_GR_CTRL_tx_preset }

/-- Words leave on the return lane. -/
def Chip.emitReturn (c : Chip) (d : DieId) (ws : List Nat) : Chip :=
  let l := (c.die d).gr.returnLane
  c.emit (.grist d l ws (c.grPos d l))

/-- A message is a NACK, or a LANE message (R75, R260). -/
def ReturnMsg.isNack (m : ReturnMsg) : Bool := m.words.headD 0 % 16 == 3
def ReturnMsg.isLane (m : ReturnMsg) : Bool := m.words.headD 0 % 16 == 4

/-- Deadline of a stripe row under a view, as a stripe slot, not before slot 0 (R86). -/
def View.deadline (v : View) (y : Nat) : Nat := v.geo.firstSlot y - v.lead

/-- Slots left, unscheduled and late of a NACK that leaves now (R75), for a FIGURES block whose first row is `first`. -/
def Chip.nackTiming (c : Chip) (d : DieId) (job stripe first : Nat) : Nat × Bool × Bool :=
  match c.stripe? d stripe with
  | none => (0, false, false)
  | some t =>
    if t.job ≠ job then (0, false, false)
    else if !t.started then (0, true, false)
    else match (c.die d).view with
    | none => (0, false, false)
    | some v =>
      let k := sdiff 48 ((v.s0 + v.deadline (first - t.vFirst)) % m48) c.sched.slot
      let left := if v.stripe ≠ t.id || k < 0 then 0 else min k.toNat 0xFFFFFFFE
      (left, false, left < c.fld d F.GRIST_RESEND_MIN_resend_min)

/-- The six words of a message that leaves now (R75). -/
def Chip.returnWords (c : Chip) (d : DieId) (m : ReturnMsg) : List Nat :=
  match m.first, m.words with
  | some v, [w0, job, stripe, seq, _] =>
    let t := c.nackTiming d job stripe v
    sealMessage [w0 + b2n t.2.2 * 2 ^ 16 + b2n t.2.1 * 2 ^ 18, job, stripe, seq, t.1]
  | _, ws => sealMessage ws

/-- A message leaves on the return lane. -/
def Chip.emitMessage (c : Chip) (d : DieId) (m : ReturnMsg) : Chip := c.emitReturn d (c.returnWords d m)

/-- The CREDIT message with the counters as they stand (R73, R75). -/
def Grist.creditWords (g : Grist) : List Nat :=
  [1 + b2n g.restart * 2 ^ 16, g.granted, g.descGranted, 0, 0]

/-- A CREDIT may leave now: the die is enabled, the first one after an enable finds it aligned (R261), the lane is ready,
and the last one is at least 1 µs old (R76). -/
def Chip.creditReady (c : Chip) (d : DieId) : Bool :=
  c.flag d F.GRIST_CTRL_enable && ((c.die d).gr.aligned || !(c.die d).grist.restart) && c.returnReady d &&
  usTicks ≤ c.sinceTick (c.die d).grist.creditAt

/-- A CREDIT leaves (R73, R75). -/
def Chip.sendCredit (c : Chip) (d : DieId) : Chip :=
  ((c.emitReturn d (sealMessage (c.die d).grist.creditWords)).onDie d fun x =>
    { x with gr := { x.gr with creditFirst := false } }).onGrist d fun g => { g with
      sentGranted := g.granted, sentDesc := g.descGranted, creditAt := c.now, creditDirty := false, restart := false }

/-- A CREDIT that is due, after a change of a granted counter or as the first message after a wake, leaves as soon as it
may (R76, R259). -/
def Chip.tryCredit (c : Chip) (d : DieId) : Chip :=
  if ((c.die d).grist.creditDirty || (c.die d).gr.creditFirst) && c.creditReady d then c.sendCredit d else c

/-- A message has to wait for a CREDIT: for the first one after a wake (R259), or a NACK for that of its block (R72). -/
def Chip.awaitsCredit (c : Chip) (d : DieId) (m : ReturnMsg) : Bool :=
  c.flag d F.GRIST_CTRL_enable && ((c.die d).gr.creditFirst || ((c.die d).grist.creditDirty && m.isNack))

/-- A message joins those that wait. -/
def Chip.queueReturn (c : Chip) (d : DieId) (m : ReturnMsg) : Chip :=
  c.onGrist d fun g => { g with returnQ := g.returnQ ++ [m] }

/-- An ACK or a NACK leaves on the return lane, or waits behind others, for the lane to wake, or for a CREDIT. -/
def Chip.sendReturn (c : Chip) (d : DieId) (m : ReturnMsg) : Chip :=
  if c.returnReady d && (c.die d).grist.returnQ.isEmpty && !c.awaitsCredit d m then c.emitMessage d m
  else c.queueReturn d m

/-- Messages of the queue leave in order, up to one that waits for a CREDIT. -/
def Chip.sendQueue (c : Chip) (d : DieId) : List ReturnMsg → Chip
  | [] => c.onGrist d fun g => { g with returnQ := [] }
  | m :: l =>
    if c.awaitsCredit d m then c.onGrist d fun g => { g with returnQ := m :: l }
    else (c.emitMessage d m).sendQueue d l

/-- What waits leaves when the return lane is ready: LANE messages first, oldest first, then a CREDIT that is due, then the
others (R72, R259, R276). -/
def Chip.flushReturn (c : Chip) (d : DieId) : Chip :=
  if !c.returnReady d then c
  else
    let q := (c.die d).grist.returnQ
    let c1 := c.forEach (q.filter (·.isLane)) fun c m => c.emitMessage d m
    (c1.tryCredit d).sendQueue d (q.filter (!·.isLane))

/-- Credits of a discarded block return at once (R72). -/
def Chip.returnCredits (c : Chip) (d : DieId) (granules : Nat) : Chip :=
  (c.onGrist d fun g => g.grant granules 1).tryCredit d

/-- A NACK (R65, R75): counted, latched, and raised as the Grist NACK event. `first` is v_first where it carries timing. -/
def Chip.nack (c : Chip) (d : DieId) (reason job stripe seq : Nat) (prev : Bool) (first : Option Nat) : Chip :=
  let c1 := c.sendReturn d ⟨[3 + reason * 256 + b2n prev * 2 ^ 17, job, stripe, seq, 0], first⟩
  ((c1.bump d F.GRIST_NACK_COUNT_nacks).puts d
    [(F.GRIST_LAST_NACK_reason, reason), (F.GRIST_LAST_NACK_stripe_id, stripe), (F.GRIST_LAST_NACK_1_block_seq, seq),
     (F.GRIST_LAST_NACK_2_job_id, job)]).raise d 32

/-- An ACK (R75). -/
def Chip.ack (c : Chip) (d : DieId) (job stripe seq : Nat) : Chip := c.sendReturn d ⟨[2, job, stripe, seq, 0], none⟩

/-- A NACK that names a header's own block: with timing if that is a FIGURES block (R75). -/
def Chip.nackHeader (c : Chip) (d : DieId) (reason : Nat) (h : Header) : Chip :=
  c.nack d reason h.job h.stripe h.seq false (if h.type = 3 then some h.vFirst else none)

/-! ### Arrival checks (R65) -/

/-- A job of the die. -/
def Grist.job? (g : Grist) (id : Nat) : Option Job := g.jobs.find? (·.id == id)

/-- A block is one of those left of a stripe that is no longer held. -/
def Grist.goneBlock (g : Grist) (job id seq : Nat) : Option (Stripe × Block) :=
  (g.gone.flatMap fun t => if t.job == job && t.id == id then (t.blocks.filter (·.seq == seq)).map (t, ·) else []).head?

/-- What a duplicate's original stands at (R69): acknowledged, or not yet verified. -/
inductive DupState where
  | acked
  | unverified
  deriving DecidableEq, Repr

/-- A block is a duplicate (R69): its type and identity match a block that is held or that counts as fed. -/
def Grist.duplicate (g : Grist) (h : Header) : Option DupState :=
  let st := g.stripes.find? fun t => t.id == h.stripe && t.job == h.job
  match h.type with
  | 1 => if (g.job? h.job).isSome && h.stripe = 0 && h.seq = 0 then some .acked else none
  | 5 => match g.job? h.job with
    | some j => if j.closing && h.stripe = 0 && h.seq = 0 then some .acked else none
    | none => none
  | 2 => if st.isSome && h.seq = 0 then some .acked else none
  | 4 => match st with
    | some t => if t.closeSeq == some h.seq then some .acked else none
    | none => none
  | _ => match (st.bind (·.block? h.seq)).or ((g.goneBlock h.job h.stripe h.seq).map (·.2)) with
    | none => none
    | some b => match b.state with
      | .waiting | .verifying => some .unverified
      | .verified | .feeding | .fed => some .acked
      | .nacked _ => none

/-- The nearest accepted neighbours' v_first allow a block's v_first (R67). A STRIPE_CLOSE counts with the row after the
stripe's last. -/
def Stripe.orderOk (t : Stripe) (seq v : Nat) : Bool :=
  t.blocks.all (fun b => (if b.seq < seq then b.vFirst ≤ v else true) && (if seq < b.seq then v ≤ b.vFirst else true)) &&
  (match t.closeSeq with
   | some k => (if seq < k then v ≤ t.vLast + 1 else true) && (if k < seq then false else true)
   | none => true)

/-- The first failing check of 6 to 12 and 14 (R65); check 14 was made when the header arrived. No check names a second
STRIPE_CLOSE of a stripe under another block_seq: it fails check 10; a FIGURES block and a STRIPE_CLOSE of one block_seq are both
accepted. In check 7 a JOB_CLOSE waits for the STRIPE_CLOSE of the stripes that are still held: one whose stripe has ended without
it blocks no more (DESIGN CHOICE, log entry 62). -/
def Chip.headerReason (c : Chip) (d : DieId) (h : Header) : Option Nat :=
  let g := (c.die d).grist
  let st := g.stripes.find? fun t => t.id == h.stripe && t.job == h.job
  let isJob := h.type = 1 || h.type = 5
  if h.job = 0 || h.job = 0xFFFFFFFF || (h.type = 1 && (g.jobs.any (!·.closing) || 2 ≤ g.jobs.length)) ||
    (h.type ≠ 1 && (g.job? h.job).isNone)
  then some 0x06
  else if h.stripe = 0xFFFFFF || (isJob && h.stripe ≠ 0) ||
    (h.type = 2 && g.stripes.any fun t => t.id == h.stripe && t.job != h.job) ||
    ((h.type = 3 || h.type = 4) && st.isNone) ||
    (h.type = 5 && g.stripes.any fun t => t.job == h.job && t.closeSeq.isNone) ||
    (h.type = 2 && ((g.job? h.job).map (·.closing)).getD false)
  then some 0x07
  else if h.type = 2 && st.isNone && 3 ≤ g.stripes.length then some 0x08
  else if h.seq = 0xFFFFFFFF || ((isJob || h.type = 2) && h.seq ≠ 0) || ((h.type = 3 || h.type = 4) &&
    (h.seq = 0 || !(match st with | some t => t.nextFeed ≤ h.seq && h.seq ≤ t.nextFeed + 255 | none => false)))
  then some 0x09
  else if (isJob && (h.vFirst ≠ 0 || h.vLast ≠ 0)) || h.vLast = 0xFFFFFFFF || h.vLast < h.vFirst ||
    (match st with
     | some t =>
       (h.type = 3 && !(t.vFirst ≤ h.vFirst && h.vLast ≤ t.vLast && t.orderOk h.seq h.vFirst)) ||
       (h.type = 4 && !(t.vFirst == h.vFirst && h.vLast == t.vLast && t.orderOk h.seq (t.vLast + 1) &&
         t.closeSeq.isNone))
     | none => false)
  then some 0x0A
  else if (h.type = 3 && (h.compLen = 0 || 0x400000 < h.compLen)) || (h.type ≠ 3 && h.compLen ≠ 0) then some 0x0B
  else if (h.type = 3 && (h.origLen < 4 || 0x4000000 < h.origLen || h.origLen % 4 ≠ 0)) ||
    (h.type ≠ 3 && (h.origLen ≠ 0 || h.origCrc ≠ 0))
  then some 0x0C
  else if (c.die d).gr.rxShort then some 0x0E
  else none

/-- The first failing check of 2 to 5 (R65). -/
def Chip.earlyReason (c : Chip) (d : DieId) (h : Header) : Option Nat :=
  if h.type = 0 || 5 < h.type then some 0x02
  else if h.version ≠ 1 then some 0x03
  else if !h.clean || (h.caskStore && h.type ≠ 2) then some 0x04
  else if h.die ≠ dieNo d || h.moduleId ≠ c.moduleId then some 0x05
  else none

/-! ### Accepting a block -/

/-- A store asked for by a STRIPE_OPEN (R148, R152): begun in the lowest free entry, or not begun with its reason. -/
def Chip.beginStore (c : Chip) (d : DieId) (h : Header) (played : Bool) : Chip :=
  let fail (reason : Nat) : Chip := c.caskFail d F.CASK_STORE_FAIL_COUNT_count 76 reason 0 0 h.stripe h.job
  if played then fail 0x3
  else if !c.flag d F.CASK_CTRL_enable then fail 0x1
  else match (List.range 64).find? fun n => ((c.die d).cask.entry n).state == .free with
  | none => fail 0x2
  | some n =>
    if (c.die d).cask.badDir.contains n then
      (c.caskFail d F.CASK_STORE_FAIL_COUNT_count 76 0x7 n 0 h.stripe h.job).sramReadError d .poison 7
    else
    (c.onCask d fun k => { k.onEntry n fun _ => { CaskEntry.none with
        state := .storing, effort := c.fld d F.CASK_CTRL_effort, sxLog2 := c.act d F.MAP_GEOM_sx_log2
        job := h.job, stripe := h.stripe, rows := h.vLast + 1 - h.vFirst } with
      storeEntry := n, storing := k.storing ++ [n] }).onStripe d h.stripe fun t => { t with store := some n }

/-- The lowest play descriptor for a stripe among those armed at the start of the clock, with its entry (R157). -/
def Chip.playMatch (c : Chip) (d : DieId) (stripe : Nat) : Option (Nat × Nat) :=
  let x := c.startDie d
  ((List.range 4).find? fun n =>
    x.fld (F.CASK_PLAY_armed.at n) == 1 && x.fld (F.CASK_PLAY_stripe_id.at n) == stripe).map fun n =>
      (n, x.fld (F.CASK_PLAY_entry.at n))

/-- A play descriptor has been used: it is no longer armed, unless it was armed anew in this clock (R157). -/
def Chip.usePlay (c : Chip) (d : DieId) (n : Nat) : Chip :=
  let c1 := c.onStart d (·.put (F.CASK_PLAY_armed.at n) 0)
  if (c.die d).cask.armedAt.contains (n, c.now) then c1 else c1.put d (F.CASK_PLAY_armed.at n) 0

/-- A stripe as its STRIPE_OPEN makes it. -/
def Stripe.opened (h : Header) (heard : Bool) (play : Option Play) : Stripe :=
  { job := h.job, id := h.stripe, vFirst := h.vFirst, vLast := h.vLast, blocks := [], closeSeq := none, nextFeed := 1,
    binding := none, figs := [], discarding := false, marks := [], rows := [], reported := [], started := false,
    ended := false, otherHolds := heard, play := play, store := none, rot := none, tiles := [] }

/-- A STRIPE_OPEN is acted on (R57, R148, R157, R124). -/
def Chip.openStripe (c : Chip) (d : DieId) (h : Header) : Chip :=
  let m := c.playMatch d h.stripe
  let play := m.map fun x => (⟨x.2, false, false, []⟩ : Play)
  let heard := (c.die d).kiln.heard.contains (h.job, h.stripe)
  let c1 := (c.onGrist d fun g => { g with stripes := g.stripes ++ [Stripe.opened h heard play] }).onDie d fun x =>
    { x with kiln := { x.kiln with heard := x.kiln.heard.filter (· != (h.job, h.stripe)) } }
  let c2 := match m with
    | some x => c1.usePlay d x.1
    | none => c1
  let c3 := if h.caskStore then c2.beginStore d h play.isSome else c2
  if c.two then c3.onDie d fun x => { x with kiln := { x.kiln with openOut := x.kiln.openOut ++ [(h.job, h.stripe)] } }
  else c3

/-- Rows of a played stripe are marked when a FIGURES block of it is accepted (R159). -/
def Chip.playFault (c : Chip) (d : DieId) (t : Stripe) (reason : Nat) : Chip :=
  let entry := (t.play.map (·.entry)).getD 0
  ((c.onStripe d t.id (·.markRest 0x14)).caskFail d F.CASK_PLAY_ERR_COUNT_count 77 reason entry 0 t.id t.job).dropFinished d

/-- A block whose header and payload passed every check is acted on (R56, R58, R72, R78); the lines of a FIGURES block
are written through the Grist receive client (R48). -/
def Chip.acceptBlock (c : Chip) (d : DieId) (h : Header) (payload : List Nat) : Chip :=
  let acted (c : Chip) : Chip := (c.returnCredits d 1).ack d h.job h.stripe h.seq
  match h.type with
  | 1 => acted (c.onGrist d fun g => { g with jobs := g.jobs ++ [c.newJob h.job] })
  | 2 => acted (c.openStripe d h)
  | 4 => acted (c.onStripe d h.stripe fun t => { t with closeSeq := some h.seq })
  | 5 => acted ((c.onGrist d fun g => { g with
      jobs := g.jobs.map fun j => if j.id == h.job then { j with closing := true } else j }).dropFinished d)
  | _ =>
    let order := (c.die d).grist.order
    let prior := ((c.stripe? d h.stripe).bind (·.block? h.seq)).bind fun b =>
      match b.state with
      | .nacked cause => some cause
      | _ => none
    let b : Block := ⟨h.seq, h.vFirst, h.vLast, h.resend, h.compLen, h.origLen, h.origCrc, payload, .waiting, true, order,
      prior⟩
    let c1 := (c.onGrist d fun g => { g with order := g.order + 1 }).onStripe d h.stripe fun t =>
      { t with blocks := t.blocks.filter (·.seq != h.seq) ++ [b] }
    let c2 := c1.askLines d 1 (linesOf h.compLen)
    match c2.stripe? d h.stripe with
    | some t => if t.play.isSome then c2.playFault d t 0xC else c2
    | none => c2

/-- The block whose header was accepted last is remembered (R68, R260). -/
def Chip.noteLast (c : Chip) (d : DieId) (h : Header) : Chip :=
  c.onGrist d fun g => { g with last := some (h.job, h.stripe, h.seq) }

/-- Arrival of a delimited block (R65 to R72); `cut` is a block that a change of the lane set ended, which fails check 13
(R261). A header that fails its CRC returns the credits of the bytes delivered; a duplicate, and a block that fails check
14, do not count as the last header accepted (log entry 63). -/
def Chip.blockArrives (c : Chip) (d : DieId) (bytes : List Nat) (cut : Bool) : Chip :=
  if !hdrCrcOk bytes then
    let c1 := c.returnCredits d (granulesOf (bytes.length - 40))
    match (c.die d).grist.last with
    | some (job, stripe, seq) => c1.nack d 0x01 job stripe seq true none
    | none => c1.nack d 0x01 0 0 0 false none
  else
    let h := parseHeader bytes
    let reject (reason : Nat) (c : Chip) : Chip := (c.returnCredits d (granulesOf h.compLen)).nackHeader d reason h
    match c.earlyReason d h with
    | some r => reject r c
    | none =>
      match (c.die d).grist.duplicate h with
      | some .acked => (c.returnCredits d (granulesOf h.compLen)).ack d h.job h.stripe h.seq
      | some .unverified => reject 0x12 c
      | none =>
        match c.headerReason d h with
        | some r =>
          if r ≠ 0x0E then reject r c
          else if cut || bytes.length ≠ 40 + h.compLen then reject 0x0D c else reject 0x0E c
        | none =>
          if cut || bytes.length ≠ 40 + h.compLen then reject 0x0D (c.noteLast d h)
          else (c.noteLast d h).acceptBlock d h (bytes.drop 40)

/-! ### The decoders (R77 to R80) -/

/-- The block the verify decoder takes next: resends first, then arrival order (R78). -/
def Grist.nextVerify (g : Grist) : Option (Stripe × Block) :=
  let waiting := (g.stripes ++ g.gone).flatMap fun t =>
    (t.blocks.filter fun b => b.state == .waiting && b.held).map fun b => (t, b)
  let pool := if waiting.any (·.2.resend) then waiting.filter (·.2.resend) else waiting
  pool.foldl (fun best x => match best with
    | none => some x
    | some y => if x.2.order < y.2.order then some x else best) none

/-- A block lies in the receive area whole: the lines of Grist receive that still wait are of later blocks. -/
def Chip.written (c : Chip) (d : DieId) (b : Block) : Bool :=
  let g := (c.die d).grist
  let later := (g.stripes ++ g.gone).flatMap fun t => t.blocks.filter fun x => x.held && b.order < x.order
  (c.die d).dram.waiting 1 ≤ (later.map fun x => linesOf x.compLen).sum

/-- Feeding of a block ends or is passed over: the window of R66 advances over every block fed. -/
def Stripe.advanceFeed (t : Stripe) : Stripe :=
  { t with nextFeed := (t.blocks.length + 2).fold (init := t.nextFeed) fun _ _ k =>
      match t.block? k with
      | some b => if b.state == .fed then k + 1 else k
      | none => k }

/-- The oldest stripe that still has blocks to feed, and its next block (R79): the feed decoder goes on to a later
stripe once every block up to the STRIPE_CLOSE is fed. -/
def nextFeedIn : List Stripe → Option (Stripe × Block)
  | [] => none
  | t :: l =>
    if t.closeSeq == some t.nextFeed then nextFeedIn l
    else (t.block? t.nextFeed).map fun b => (t, b)

/-- Free a block's credits where R72 allows it now. -/
def Chip.tryFree (c : Chip) (d : DieId) (id seq : Nat) : Chip :=
  match c.stripe? d id with
  | none => c
  | some t =>
    match t.block? seq with
    | none => c
    | some b => if t.canFree b then (c.onGrist d (·.freeBlock id seq)).tryCredit d else c

/-- Load MASH_LAST_ERR (R84). -/
def Chip.mashErr (c : Chip) (d : DieId) (e : MashErr) (feed : Bool) : Chip :=
  c.puts d [(F.MASH_LAST_ERR_sub_code, e.sub), (F.MASH_LAST_ERR_byte_offset, e.offset), (F.MASH_LAST_ERR_feed, b2n feed)]

/-- Such a block is judged: it is freed, and its credits return (R72). -/
def Grist.settleGone (g : Grist) (job id seq : Nat) : Grist :=
  match g.goneBlock job id seq with
  | none => g
  | some (_, b) =>
    let gone := (g.gone.map fun t =>
      if t.job == job && t.id == id then { t with blocks := t.blocks.filter (·.seq != seq) } else t).filter (!·.blocks.isEmpty)
    ({ g with gone := gone } : Grist).grant (granulesOf b.compLen) 1

/-- The block a decoder works on. -/
def Chip.decoding (c : Chip) (d : DieId) (x : Option (Nat × Nat × Nat)) : Option (Stripe × Block) :=
  match x with
  | none => none
  | some (job, id, seq) =>
    match (c.die d).grist.goneBlock job id seq with
    | some r => some r
    | none =>
      match (c.stripes d).find? fun t => t.id == id && t.job == job with
      | none => none
      | some t => (t.block? seq).map fun b => (t, b)

/-- The stripe of a block that is decoded is no longer held. -/
def Chip.isGone (c : Chip) (d : DieId) (t : Stripe) (b : Block) : Bool :=
  ((c.die d).grist.goneBlock t.job t.id b.seq).isSome

/-- Change a die's decoders. -/
def Chip.onMash (c : Chip) (d : DieId) (f : Mash → Mash) : Chip := c.onDie d fun x => { x with mash := f x.mash }

/-- The header of a held block, as a NACK names it. -/
def Chip.headerOf (c : Chip) (d : DieId) (t : Stripe) (b : Block) : Header :=
  ⟨3, b.resend, false, 1, dieNo d, c.moduleId, true, t.job, t.id, b.seq, b.vFirst, b.vLast, b.compLen, b.origLen, b.origCrc⟩

/-- A verify decode that fails (R78): the block is freed, then the NACK is sent. A NACK of a stripe that is no longer held
carries no timing (R75). -/
def Chip.verifyFail (c : Chip) (d : DieId) (t : Stripe) (b : Block) (reason cause : Nat) : Chip :=
  if c.isGone d t b then
    ((c.onGrist d (·.settleGone t.job t.id b.seq)).tryCredit d).nack d reason t.job t.id b.seq false none
  else
    let freed := (c.onGrist d (·.freeBlock t.id b.seq)).onStripe d t.id
      (·.onBlock b.seq fun (b : Block) => { b with state := .nacked cause, lastNack := some cause })
    (freed.tryCredit d).nackHeader d reason (c.headerOf d t b)

/-- A block is verified (R78): it is acknowledged, and freed if its rows are settled. -/
def Chip.verifyPass (c : Chip) (d : DieId) (t : Stripe) (b : Block) : Chip :=
  if c.isGone d t b then ((c.onGrist d (·.settleGone t.job t.id b.seq)).tryCredit d).ack d t.job t.id b.seq
  else
    ((c.onStripe d t.id (·.onBlock b.seq fun b => { b with state := .verified, lastNack := none })).ack d t.job t.id
      b.seq).tryFree d t.id b.seq

/-- The verify decode of a block ends (R78). -/
def Chip.verifyEnds (c : Chip) (d : DieId) (t : Stripe) (b : Block) (read : MemRead) : Chip :=
  match read with
  | .ue => (c.verifyFail d t b 0x11 0x06).dramReadError d .ue 0
  | .poison => (c.verifyFail d t b 0x11 0x04).dramReadError d .poison 0
  | .clean =>
    match mashDecode b.payload b.origLen with
    | .error e => (c.mashErr d e false |>.bump d F.MASH_DECODE_ERR_COUNT_decode_errors).verifyFail d t b 0x10 0x03
    | .ok out =>
      if crc32c out == b.origCrc then c.verifyPass d t b
      else (c.bump d F.MASH_CRC_ERR_COUNT_crc_errors).verifyFail d t b 0x0F 0x01

/-- A block counts as fed (R79, R80). -/
def Chip.markFed (c : Chip) (d : DieId) (id seq : Nat) : Chip :=
  ((c.onStripe d id fun t => (t.onBlock seq fun b => { b with state := .fed }).advanceFeed).tryFree d id seq).dropFinished d

/-- All rows of a block are untrusted (R80). -/
def Stripe.allUntrusted (t : Stripe) (lo hi : Nat) : Bool :=
  t.allSettled lo hi && !(t.rows.any fun p => lo ≤ p.1 && p.1 ≤ hi && p.2.released && p.2.late.isNone)

/-- The rows of a block, stripe-relative. -/
def Stripe.blockRows (t : Stripe) (b : Block) : Nat × Nat := (b.vFirst - t.vFirst, b.vLast - t.vFirst)

/-- Bytes of a payload that a decoder has consumed when it has delivered `n` bytes of the original. -/
def mashUsed (payload : List Nat) (n : Nat) : Nat :=
  match mashDecode payload n with
  | .ok _ => payload.length
  | .error e => min (e.offset + 1) payload.length

/-- Lines of a block that the feed decoder needs to deliver the first `words` words of the original. -/
def Block.linesFor (b : Block) (words : Nat) : Nat := min (linesOf b.compLen) (linesOf (mashUsed b.payload (4 * words)))

/-- The Tun-fill buffer holds what the feed decoder needs for the words up to `words` (R284). -/
def Chip.feedHas (c : Chip) (d : DieId) (b : Block) (words : Nat) : Bool :=
  b.linesFor words ≤ (c.die d).dram.fetched (linesOf b.compLen)

/-- The feed decoder has delivered the words up to `words`: it has consumed their lines. -/
def Chip.fedTo (c : Chip) (d : DieId) (b : Block) (words : Nat) : Chip :=
  let taken := (c.die d).mash.feedTaken
  let n := b.linesFor words
  (c.onMash d fun m => { m with feedPos := words, feedTaken := max taken n }).consume d (n - taken)

/-- The decoder goes on through what has been fetched and not delivered to the Kiln. -/
def Chip.readOn (c : Chip) (d : DieId) (b : Block) : Chip :=
  let taken := (c.die d).mash.feedTaken
  let n := (c.die d).dram.fetched (linesOf b.compLen)
  (c.onMash d fun m => { m with feedTaken := max taken n }).consume d (n - taken)

/-- What the feed decode of a block has to deliver is delivered: every word of the original, unless the Kiln discards them
from here on (R97, R159) or the decode ends in an error. -/
def Chip.feedDone (c : Chip) (d : DieId) (t : Stripe) (b : Block) : Bool :=
  t.discarding || c.isGone d t b || b.origLen ≤ 4 * (c.die d).mash.feedPos ||
  (match mashDecode b.payload b.origLen with
   | .ok _ => false
   | .error _ => true)

/-- The feed decode of a block ends (R79): what it marks and counts. -/
def Chip.feedEnds (c : Chip) (d : DieId) (t : Stripe) (b : Block) (read : MemRead) (fault : Bool) : Chip :=
  let r := t.blockRows b
  let held := !c.isGone d t b
  let mark (c : Chip) (cause : Nat) : Chip := if held then c.onStripe d t.id (·.markUnknown r.1 r.2 cause) else c
  let bad (c : Chip) : Chip := ((mark c 0x03).bump d F.MASH_FEED_MISMATCH_COUNT_feed_mismatches).raise d 36
  let c1 := match read with
    | .ue => (mark c 0x06).dramReadError d .ue 0
    | .poison => (mark c 0x04).dramReadError d .poison 0
    | .clean =>
      match mashDecode b.payload b.origLen with
      | .error e => bad (c.mashErr d e true)
      | .ok out => if fault || crc32c out != b.origCrc then bad c else c
  let c2 := (c1.endFetch d (linesOf b.compLen) (c.die d).mash.feedTaken).onMash d fun m =>
    { m with feed := none, feedPos := 0, feedTaken := 0 }
  if held then c2.markFed d t.id b.seq else (c2.onGrist d (·.settleGone t.job t.id b.seq)).tryCredit d

/-! ### Enable, disable, flush (R73, R74) -/

/-- The receive area lies in the die's DRAM and is large enough (GRIST_CTRL, R278). -/
def Chip.rxAreaOk (c : Chip) (d : DieId) : Bool :=
  256 ≤ c.fld d F.GRIST_RX_SIZE_size_64k &&
  c.fld d F.GRIST_RX_BASE_base_64k + c.fld d F.GRIST_RX_SIZE_size_64k ≤ 524160

/-- Restart credit (R73). -/
def Chip.restartCredit (c : Chip) (d : DieId) : Chip :=
  c.onGrist d fun g => { g with
    granted := 16 * c.fld d F.GRIST_RX_SIZE_size_64k, descGranted := 256, creditDirty := true, restart := true }

/-- A FIGURES block that a disable or a flush discards: held, or treated as held (R80), and not fed. -/
def Block.discarded (b : Block) : Bool :=
  match b.state with
  | .fed | .nacked _ => false
  | .waiting | .verifying | .verified | .feeding => true

/-- The block whose outcome an ACK or a NACK reports. A NACK 0x01 reports on a block that it cannot name (R75). -/
def ReturnMsg.reportsOn (m : ReturnMsg) : Option (Nat × Nat × Nat) :=
  match m.words with
  | [w0, job, stripe, seq, _] => if w0 % 16 == 2 || (m.isNack && w0 / 256 % 256 != 1) then some (job, stripe, seq) else none
  | _ => none

/-- Discard every held FIGURES block that has not been fed, with its header and any ACK or NACK of it not yet sent (R74).
Figures that a block had passed to the Kiln stay (log entry 64). -/
def Chip.discardBlocks (c : Chip) (d : DieId) : Chip :=
  let g := (c.die d).grist
  let lost := (g.stripes ++ g.gone).flatMap fun t => (t.blocks.filter (·.discarded)).map fun b => (t.job, t.id, b.seq)
  let c1 := match c.decoding d (c.die d).mash.feed with
    | some (_, b) => c.endFetch d (linesOf b.compLen) (c.die d).mash.feedTaken
    | none => c
  ((c1.onGrist d fun g => { g with
      stripes := g.stripes.map fun t =>
        { t with blocks := (t.blocks.filter (!·.discarded)).map fun b => { b with held := false, payload := [] } }
      gone := []
      returnQ := g.returnQ.filter fun q => !(q.reportsOn.any lost.contains) }).onMash d
    fun m => { m with verify := none, feed := none, feedPos := 0, feedTaken := 0 }).onDram d fun x =>
      { x with owed := smErase 1 (smErase 0 x.owed) }

/-! ### Deadlines (R85 to R88) -/

/-- A row's verdict of R85, on the state at the start of the tick (R85, R87). -/
def Chip.openCause (c : Chip) (d : DieId) (t : Stripe) (y : Nat) : Option Nat :=
  match (c.startDie d).grist.stripes.find? fun u => u.id == t.id && u.job == t.job with
  | none => some 0x02
  | some u => u.openCause y

/-- Deadlines that fall on one slot are judged together (R86): intervals of rows that share a verdict of R85. Each open row
is an occurrence of the Grist deadline event, and is marked untrusted with its cause. -/
def Chip.judgeRows (c : Chip) (d : DieId) (id : Nat) (pieces : List (Nat × Nat)) : Chip :=
  match c.stripe? d id with
  | none => c
  | some t =>
    let opens := pieces.filterMap fun p => (c.openCause d t p.1).map fun cause => (p.1, p.2, cause)
    if opens.isEmpty then c
    else (c.onStripe d id (·.markUnknowns opens)).raiseTimes d 33 (opens.map fun p => p.2.1 + 1 - p.1).sum

/-- The row intervals over which R85 gives one verdict, up to row `hi`: breaks lie at the edges of the blocks. -/
def Stripe.pieces (t : Stripe) (blocks : List Block) (hi : Nat) : List (Nat × Nat) :=
  let cuts := (0 :: blocks.flatMap fun b => [b.vFirst - t.vFirst, b.vLast + 1 - t.vFirst]).filter (· ≤ hi)
  let sorted := (cuts.mergeSort (· ≤ ·)).eraseDups
  sorted.zip ((sorted.drop 1).map (· - 1) ++ [hi])

/-- The rows whose deadline falls on stripe slot k: those first exposed in slot k + lead (R86, R133). -/
def View.rowsDue (v : View) (k : Nat) : List Nat :=
  let g := v.geo
  let f := k + v.lead
  ((List.range g.Sy).filter fun wy => g.smin wy == f % g.L).flatMap fun wy =>
    ((List.range g.G).map fun i => (f / g.L * g.G + i) * g.Sy + wy).filter (· < v.rows)

/-- The rows whose deadline is the start slot, up to row `hi` of a stripe: as the intervals of one verdict (R85, R86). -/
def Chip.piecesTo (c : Chip) (d : DieId) (id hi : Nat) : List (Nat × Nat) :=
  match c.stripe? d id with
  | none => []
  | some t => t.pieces (((c.startDie d).grist.stripes.filter fun u => u.id == t.id && u.job == t.job).flatMap (·.blocks)) hi

/-- The deadlines evaluated at S0 (R86): every row whose first slot is at most lead after S0. -/
def Chip.judgeAtStart (c : Chip) (d : DieId) (v : View) : Chip :=
  let g := v.geo
  let full := v.lead / g.L * g.G * g.Sy
  let early := if full = 0 then [] else c.piecesTo d v.stripe (min full v.rows - 1)
  let rest := (List.range (g.G * g.Sy)).filter fun i => full + i < v.rows && g.smin (i % g.Sy) ≤ v.lead % g.L
  c.judgeRows d v.stripe (early ++ rest.map fun i => (full + i, full + i))

/-- The deadlines that fall on a fired stripe slot (R86). -/
def Chip.judgeSlot (c : Chip) (d : DieId) (v : View) (k : Nat) : Chip :=
  c.judgeRows d v.stripe ((v.rowsDue k).map fun y => (y, y))

/-! ### Meanings -/

/-- The delivered bytes of a block's data words, of which the last has `n` valid bytes (R257). -/
def deliveredBytes (words : List Nat) (n : Nat) : List Nat :=
  (words.dropLast.map (leBytes 8)).flatten ++ ((words.getLast?.map fun w => (leBytes 8 w).take n).getD [])

/-- The header of a block in progress, once its 40 bytes are there. -/
def GrLanes.rxHeader (g : GrLanes) : Option (List Nat) :=
  (g.rx.filter fun ws => 5 ≤ ws.length).map fun ws => deliveredBytes (ws.take 5) 8

/-- The header of a block is complete with its fifth word: its granules and a descriptor are there, or not (R65, R70). -/
def Chip.headerRoom (c : Chip) (d : DieId) : Chip :=
  match (c.die d).gr.rx, (c.die d).gr.rxHeader with
  | some ws, some b =>
    let g := (c.die d).grist
    if ws.length ≠ 5 then c
    else c.onDie d fun x => { x with gr := { x.gr with
      rxShort := 16 * c.fld d F.GRIST_RX_SIZE_size_64k < g.used + granulesOf (parseHeader b).compLen || 256 ≤ g.descs } }
  | _, _ => c

/-- One word of the aggregate stream (R255, R257). -/
def Chip.streamWord (c : Chip) (d : DieId) (ctrl : Bool) (v : Nat) : Chip :=
  let setRx (c : Chip) (r : Option (List Nat)) : Chip := c.onDie d fun x => { x with gr := { x.gr with rx := r } }
  match ctrl, (c.die d).gr.rx with
  | false, some ws => (setRx c (some (ws ++ [v]))).headerRoom d
  | false, none => if v % 2 ^ 64 == 0 then c else c.bump d F.PHY_GR_FRAME_ERR_stray
  | true, rx =>
    let c1 := if ctrlOk v then c else c.bump d F.PHY_GR_FRAME_ERR_bad_ctrl
    let ctype := if ctrlOk v then v % 256 else 2
    let n := if ctrlOk v then v / 256 % 256 else 8
    match ctype, rx with
    | 3, _ => c1
    | 1, some ws =>
      setRx ((c1.bump d F.PHY_GR_FRAME_ERR_cut).blockArrives d (deliveredBytes ws 8) false) (some [])
    | 1, none => setRx c1 (some [])
    | _, some ws => setRx (c1.blockArrives d (deliveredBytes ws n) false) none
    | _, none => c1.bump d F.PHY_GR_FRAME_ERR_stray

/-- The words of a round in the order of the aggregate stream: word i is that of the i-th lane of the set (R254). A round
that lacks a lane of the set, or one whose content cannot be used (R224), gives none. -/
def GrLanes.roundWords (g : GrLanes) (now : Nat) (round : List (Nat × Bool × Nat)) : List (Bool × Nat) :=
  let got := (onesOf 16 g.mask).map fun l => (round.find? fun w => w.1 == l && (g.phy l).usable now).map (·.2)
  if got.all (·.isSome) then got.filterMap id else []

/-- GRIST_BLOCK_ARRIVAL (R65, R254, R257): words are used while the die is enabled and aligned on its lane set (R260). -/
def execGristBlockArrival (d : DieId) (rounds : List (List (Nat × Bool × Nat))) (s : State) : Res :=
  s.nextChip fun c =>
    if c.hasDie d && c.flag d F.GRIST_CTRL_enable && (c.die d).gr.aligned && !(c.die d).gr.setDue then
      c.forEach (rounds.flatMap ((c.die d).gr.roundWords c.now)) fun c w => c.streamWord d w.1 w.2
    else c

/-- CREDIT_PERIODIC (R76, R259): not sent while the return lane sleeps. -/
def execCreditPeriodic (d : DieId) (s : State) : Res :=
  s.nextChip fun c =>
    if c.hasDie d && c.creditReady d && 100 * usTicks ≤ c.sinceTick (c.die d).grist.creditAt then c.sendCredit d else c

/-- A decoder takes a block: its state changes. -/
def Chip.takeBlock (c : Chip) (d : DieId) (t : Stripe) (b : Block) (st : BlockState) : Chip :=
  let f (u : Stripe) : Stripe := if u.id == t.id && u.job == t.job then u.onBlock b.seq fun b => { b with state := st } else u
  c.onGrist d fun g => if (g.goneBlock t.job t.id b.seq).isSome then { g with gone := g.gone.map f }
    else { g with stripes := g.stripes.map f }

/-- VERIFY_DECODE_START (R78): once the block lies in the receive area whole. The decoder reads it through the Tun-fill
client (R77). -/
def execVerifyDecodeStart (d : DieId) (s : State) : Res :=
  s.nextChip fun c =>
    if (c.die d).mash.verify.isSome then c
    else match (c.die d).grist.nextVerify with
    | none => c
    | some (t, b) =>
      if !c.written d b then c
      else
        ((c.takeBlock d t b .verifying).onMash d fun m => { m with verify := some (t.job, t.id, b.seq) }).askLines d 0
          (linesOf b.compLen)

/-- VERIFY_DECODE_END (R78, R299): not before the block has been read. -/
def execVerifyDecodeEnd (d : DieId) (read : MemRead) (s : State) : Res :=
  s.nextChip fun c =>
    if (c.die d).dram.waiting 0 ≠ 0 then c
    else
      let c1 := c.onMash d fun m => { m with verify := none }
      match c.decoding d (c.die d).mash.verify with
      | none => c1
      | some (t, b) => c1.verifyEnds d t b read

/-- FEED_DECODE_START (R79, R80): the next verified block begins. A block whose rows are all untrusted is not decoded, but
for one of a played stripe (R159). -/
def execFeedDecodeStart (d : DieId) (s : State) : Res :=
  s.nextChip fun c =>
    if (c.die d).mash.feed.isSome then c
    else match nextFeedIn (c.stripes d) with
    | none => c
    | some (t, b) =>
      let r := t.blockRows b
      if b.state ≠ .verified || !b.held || (t.play.isNone && t.allUntrusted r.1 r.2) then c
      else
        ((c.onStripe d t.id fun t => { t.onBlock b.seq (fun b => { b with state := .feeding }) with
            discarding := t.play.isSome }).onMash d
          fun m => { m with feed := some (t.job, t.id, b.seq), feedPos := 0, feedTaken := 0 }).beginFetch d
            (linesOf b.compLen)

/-- FEED_DECODE_END (R79): a decode that meets no error ends once its records are delivered and its block is read; what the
Kiln discards is read without being delivered. -/
def execFeedDecodeEnd (d : DieId) (read : MemRead) (fault : Bool) (s : State) : Res :=
  s.nextChip fun c =>
    match c.decoding d (c.die d).mash.feed with
    | none => c.onMash d fun m => { m with feed := none, feedPos := 0, feedTaken := 0 }
    | some (t, b) =>
      if read == .clean && !fault && !c.feedDone d t b then c
      else
        let c1 := c.readOn d b
        if read == .clean && !fault && (c1.die d).dram.fetched (linesOf b.compLen) < linesOf b.compLen then c1
        else c1.feedEnds d t b read fault

/-- BLOCK_TREATED_AS_FED (R80): the next block to feed has only untrusted rows. -/
def execBlockTreatedAsFed (d : DieId) (s : State) : Res :=
  s.nextChip fun c =>
    if (c.die d).mash.feed.isSome then c
    else match nextFeedIn (c.stripes d) with
    | none => c
    | some (t, b) =>
      let r := t.blockRows b
      if b.state == .verified && t.play.isNone && t.allUntrusted r.1 r.2 then c.markFed d t.id b.seq else c

/-- FIGURES_CREDIT_RETURN (R72). -/
def execFiguresCreditReturn (d : DieId) (stripe seq : Nat) (s : State) : Res :=
  s.nextChip fun c => c.tryFree d stripe seq

/-- ROW_DEADLINE (R86): the row's deadline slot is the slot fired in this tick. The firing itself has judged every row due
(`judgeSlot`); a row that is settled by then is not judged twice. -/
def execRowDeadline (d : DieId) (row : Nat) (s : State) : Res :=
  s.nextChip fun c =>
    match (c.die d).view with
    | none => c
    | some v =>
      if c.sched.mode == .exposing && c.sched.slotAt == c.now && row < v.rows &&
        (v.s0 + v.deadline row) % m48 == c.sched.slot
      then
        match c.stripe? d v.stripe with
        | none => c
        | some t => if t.settled row then c else (c.judgeRows d v.stripe [(row, row)]).dropFinished d
      else c

end Sys2Proof.Machine
end

