-- ==== Sys2Proof/Machine/Kiln.lean ====
section
/-! DEFINITION. The Kiln and the Taster (chapter 3, R90 to R126, and R35, R434 for a row's release): figure records,
coverage, edge shift, dose, density, rasterization of a row, the Taster's samples, and the die seam. -/

namespace Sys2Proof.Machine

/-! ### Figure records (R92 to R97) -/

/-- Word `i` of an original, 0 past its end. -/
def origWord (orig : List Nat) (i : Nat) : Nat := leAt orig (4 * i) 4

/-- Word `i` as a signed coordinate. -/
def origInt (orig : List Nat) (i : Nat) : Int := toSigned 32 (origWord orig i)

/-- An invalid record: its kind and the word offset of the head it names (R97). -/
structure RecErr where
  kind : Nat
  head : Nat
  deriving DecidableEq, Repr

/-- A record read: a pad or a figure with its rows open, and the position of the next record. -/
structure RecOk where
  fig : Option Fig
  next : Nat
  deriving DecidableEq, Repr

/-- The words a record head's op calls for (R93). -/
def opWords : Nat → Nat
  | 0 => 1
  | 1 => 5
  | 2 | 3 | 4 => 7
  | 8 => 5
  | _ => 1

/-- A shape from the words after its head (R93). -/
def readShape (orig : List Nat) (op head : Nat) : Shape :=
  let i (k : Nat) : Int := origInt orig (head + k)
  match op with
  | 1 => .rect (i 1) (i 2) (i 3) (i 4)
  | 2 => .trapH (i 1) (i 2) (i 3) (i 4) (i 5) (i 6)
  | 3 => .trapV (i 1) (i 2) (i 3) (i 4) (i 5) (i 6)
  | _ => .trapD (i 1) (i 2) (i 3) (i 4) (i 5) (i 6)

/-- The conditions of R93 on a shape. -/
def Shape.valid : Shape → Bool
  | .rect u0 v0 u1 v1 => u0 < u1 && v0 < v1
  | .trapH a0 a1 l0 r0 l1 r1 | .trapV a0 a1 l0 r0 l1 r1 | .trapD a0 a1 l0 r0 l1 r1 =>
    a0 < a1 && l0 ≤ r0 && l1 ≤ r1 && !(l0 == r0 && l1 == r1)

/-- A shape moved by (i·du, j·dv) (R94). -/
def Shape.shift (s : Shape) (p q : Int) : Shape :=
  match s with
  | .rect u0 v0 u1 v1 => .rect (u0 + p) (v0 + q) (u1 + p) (v1 + q)
  | .trapH v0 v1 l0 r0 l1 r1 => .trapH (v0 + q) (v1 + q) (l0 + p) (r0 + p) (l1 + p) (r1 + p)
  | .trapV u0 u1 b0 t0 b1 t1 => .trapV (u0 + p) (u1 + p) (b0 + q) (t0 + q) (b1 + q) (t1 + q)
  | .trapD a0 a1 l0 r0 l1 r1 =>
    .trapD (a0 + p - q) (a1 + p - q) (l0 + p + q) (r0 + p + q) (l1 + p + q) (r1 + p + q)

/-- The coordinates of a shape as its record carries them. -/
def Shape.coords : Shape → List Int
  | .rect a b c d => [a, b, c, d]
  | .trapH a b c d e f | .trapV a b c d e f | .trapD a b c d e f => [a, b, c, d, e, f]

/-- Doubled u coordinates of a shape's vertices; for a trapezoid D, u = (a + b)/2. -/
def Shape.us2 : Shape → List Int
  | .rect u0 _ u1 _ => [2 * u0, 2 * u1]
  | .trapH _ _ l0 r0 l1 r1 => [2 * l0, 2 * r0, 2 * l1, 2 * r1]
  | .trapV u0 u1 _ _ _ _ => [2 * u0, 2 * u1]
  | .trapD a0 a1 l0 r0 l1 r1 => [a0 + l0, a0 + r0, a1 + l1, a1 + r1]

/-- Doubled v coordinates of a shape's vertices; for a trapezoid D, v = (b − a)/2. -/
def Shape.vs2 : Shape → List Int
  | .rect _ v0 _ v1 => [2 * v0, 2 * v1]
  | .trapH v0 v1 _ _ _ _ => [2 * v0, 2 * v1]
  | .trapV _ _ b0 t0 b1 t1 => [2 * b0, 2 * t0, 2 * b1, 2 * t1]
  | .trapD a0 a1 l0 r0 l1 r1 => [l0 - a0, r0 - a0, l1 - a1, r1 - a1]

/-- Smallest and largest of a list of integers. -/
def minI (l : List Int) : Int := l.foldl min (l.headD 0)
def maxI (l : List Int) : Int := l.foldl max (l.headD 0)

/-- The bounding box is at most 2^20 q in u and in v (R95). -/
def Shape.boxOk (s : Shape) : Bool :=
  maxI s.us2 - minI s.us2 ≤ 2 * 2 ^ 20 && maxI s.vs2 - minI s.vs2 ≤ 2 * 2 ^ 20

/-- Every coordinate lies within the signed 32-bit range (R95). -/
def Shape.inRange (s : Shape) : Bool := s.coords.all fun x => -(2 ^ 31) ≤ x && x < 2 ^ 31

/-- Instance (i, j) of a figure (R94). -/
def Fig.inst (f : Fig) (i j : Nat) : Shape := f.shape.shift (i * f.du) (j * f.dv)

/-- R95 over every instance: the corners of the repeat bound all coordinates. -/
def Fig.r95 (f : Fig) : Bool :=
  f.shape.boxOk && [(0, 0), (f.nu - 1, 0), (0, f.nv - 1), (f.nu - 1, f.nv - 1)].all fun p => (f.inst p.1 p.2).inRange

/-- Row extent of a shape before clipping (R96): floor(vmin/16) to ceil(vmax/16) − 1, one row wider with shift_en. -/
def Shape.rowsOf (s : Shape) (shift : Bool) : Int × Int :=
  (floorDiv (minI s.vs2) 32 - b2n shift, ceilDiv (maxI s.vs2) 32 - 1 + b2n shift)

/-- Clip a row extent to the rows of a stripe; `none` when nothing is left. -/
def clipRows (count : Nat) (r : Int × Int) : Option (Nat × Nat) :=
  let lo := max 0 r.1
  let hi := min (count - 1 : Int) r.2
  if lo ≤ hi then some (lo.toNat, hi.toNat) else none

/-- The clipped row extents of a figure's instances, by j (i moves no row). -/
def Fig.extents (f : Fig) (count : Nat) (shift : Bool) : List (Nat × Nat) :=
  (List.range f.nv).filterMap fun j => clipRows count ((f.inst 0 j).rowsOf shift)

/-- Read a primitive at `head` within the original: the checks of steps 1 to 3 of R97. `base` says it is a repeat's
base record. -/
def readPrimitive (orig : List Nat) (head : Nat) (base : Bool) : Except RecErr (Nat × Nat) :=
  let w := origWord orig head
  let op := w % 16
  let cls := w / 16 % 16
  let total := orig.length / 4
  if !([0, 1, 2, 3, 4, 8].contains op) || (base && (op = 0 || op = 8)) then .error ⟨0x1, head⟩
  else if w / 256 ≠ 0 || ((op = 0 || op = 8) && cls ≠ 0) then .error ⟨0x2, head⟩
  else if total < head + opWords op then .error ⟨0x3, head⟩
  else .ok (op, cls)

/-- Read the record at word `head` (R93, R95, R97). A repeat that the original ends right after its own words has no base
record: it is reported with the position where the head of its base would stand, which the spec leaves open (DESIGN CHOICE,
log entry 65). -/
def readRecord (orig : List Nat) (head : Nat) : Except RecErr RecOk :=
  match readPrimitive orig head false with
  | .error e => .error e
  | .ok (op, cls) =>
    if op = 0 then .ok ⟨none, head + 1⟩
    else if op = 8 then
      let nu := origWord orig (head + 1)
      let nv := origWord orig (head + 2)
      let du := origWord orig (head + 3)
      let dv := origWord orig (head + 4)
      if nu = 0 || 4096 < nu || nv = 0 || 4096 < nv || du = 0 || 2 ^ 24 < du || dv = 0 || 2 ^ 24 < dv then
        .error ⟨0x4, head⟩
      else if orig.length / 4 ≤ head + 5 then .error ⟨0x3, head + 5⟩
      else match readPrimitive orig (head + 5) true with
      | .error e => .error e
      | .ok (bop, bcls) =>
        let s := readShape orig bop (head + 5)
        let f : Fig := ⟨bcls, s, nu, nv, du, dv, true, 0, 0⟩
        if !s.valid then .error ⟨0x4, head + 5⟩
        else if !f.r95 then .error ⟨0x4, head⟩
        else .ok ⟨some f, head + 5 + opWords bop⟩
    else
      let s := readShape orig op head
      let f : Fig := ⟨cls, s, 1, 1, 1, 1, false, 0, 0⟩
      if !s.valid then .error ⟨0x4, head⟩
      else if !f.r95 then .error ⟨0x4, head⟩
      else .ok ⟨some f, head + opWords op⟩

/-! ### Coverage (R99, R100) -/

/-- A point between the two slanted sides of a trapezoid, low side in: coordinate `pa` along `a0` to `a1`, `pb` across;
both doubled. -/
def insideTrap (a0 a1 l0 r0 l1 r1 pa pb : Int) : Bool :=
  let d := a1 - a0
  let lo := 2 * l0 * d + (l1 - l0) * (pa - 2 * a0)
  let hi := 2 * r0 * d + (r1 - r0) * (pa - 2 * a0)
  2 * a0 ≤ pa && pa < 2 * a1 && lo ≤ pb * d && pb * d < hi

/-- A point with doubled coordinates lies inside a shape (R100). -/
def Shape.inside (s : Shape) (pu pv : Int) : Bool :=
  match s with
  | .rect u0 v0 u1 v1 => 2 * u0 ≤ pu && pu < 2 * u1 && 2 * v0 ≤ pv && pv < 2 * v1
  | .trapH v0 v1 l0 r0 l1 r1 => insideTrap v0 v1 l0 r0 l1 r1 pv pu
  | .trapV u0 u1 b0 t0 b1 t1 => insideTrap u0 u1 b0 t0 b1 t1 pu pv
  | .trapD a0 a1 l0 r0 l1 r1 => insideTrap a0 a1 l0 r0 l1 r1 (pu - pv) (pu + pv)

/-- The points (i, j) of a 16 × 16 grid. -/
def grid16 : List (Nat × Nat) := (List.range 256).map fun k => (k % 16, k / 16)

/-- Coverage of a shape in pixel (x, y): its subsample points inside (R99). -/
def Shape.coverage (s : Shape) (x y : Int) : Nat :=
  (grid16.filter fun p => s.inside (32 * x + 2 * p.1 + 1) (32 * y + 2 * p.2 + 1)).length

/-! ### The configuration a stripe is bound to (R117) -/

/-- An active register word of the binding. -/
def Binding.word (b : Binding) (off : Nat) : Word := smGet (resetWord (off + 0x8000)) (off + 0x8000) b.words

/-- An RWS field of the binding. -/
def Binding.fld (b : Binding) (f : Fld) : Nat := bits (b.word f.off) f.hi f.lo

/-- Class controls (R104). -/
def Binding.shiftEn (b : Binding) (k : Nat) : Bool := b.fld (F.KILN_CLASS_shift_en.at k) == 1
def Binding.densContrib (b : Binding) (k : Nat) : Bool := b.fld (F.KILN_CLASS_dens_contrib.at k) == 1
def Binding.densApply (b : Binding) (k : Nat) : Bool := b.fld (F.KILN_CLASS_dens_apply.at k) == 1

/-- Transfer table T_k[c'] (R103), density factors F_k (R108) and fractional shift table K (R102) of the binding. -/
def Binding.transfer (b : Binding) (k c : Nat) : Nat :=
  if c = 0 then 0 else bits (tblIn .w b.tables (0x910000 + 0x400 * k + 4 * (c - 1))) 11 0
def Binding.factor (b : Binding) (k i : Nat) : Nat := bits (tblIn .w b.tables (0x914000 + 0x400 * k + 4 * i)) 11 0
def Binding.kept (b : Binding) (c : Nat) : Nat := bits (tblIn .w b.tables (0x920000 + 4 * c)) 8 0

/-- The density kernels (R107). -/
def Binding.kernU (b : Binding) (i : Nat) : Nat := bits (b.word (0x040040 + 4 * i)) 12 0
def Binding.kernV (b : Binding) (i : Nat) : Nat := bits (b.word (0x0400A0 + 4 * i)) 12 0

/-! ### Edge shift (R101) -/

/-- The four neighbours in the order of R101's ties. -/
def neighbours (x y : Int) : List (Int × Int) := [(x - 1, y), (x + 1, y), (x, y - 1), (x, y + 1)]

/-- The outward neighbour of a pixel: the lowest coverage of the same figure, first in the order (R101). -/
def Shape.outward (s : Shape) (x y : Int) : Int × Int :=
  (neighbours x y).foldl (fun best p => if s.coverage p.1 p.2 < s.coverage best.1 best.2 then p else best) (x - 1, y)

/-- A pixel is an edge pixel of a figure. -/
def isEdge (c : Nat) : Bool := 0 < c && c < 256

/-- Shifted coverage c'(p) of a shape of a class (R101). -/
def Shape.shifted (s : Shape) (b : Binding) (cls : Nat) (x y : Int) : Nat :=
  let c := s.coverage x y
  if !b.shiftEn cls then c
  else
    let own := if isEdge c then b.kept c else c
    let received := ((neighbours x y).map fun p =>
      let cp := s.coverage p.1 p.2
      if isEdge cp && s.outward p.1 p.2 == (x, y) then cp - b.kept cp else 0).sum
    min 256 (own + received)

/-! ### Density (R105 to R108) -/

/-- Raw density of a tile: points inside contributing figures, limited to 256; 0 outside the stripe's rows (R106). -/
def rho (b : Binding) (figs : List Fig) (count : Nat) (tu tv : Int) : Nat :=
  let t : Int := b.tile
  if (tv + 1) * t ≤ 0 || (count : Int) ≤ tv * t then 0
  else min 256 ((figs.filter fun f => b.densContrib f.cls).map fun f =>
    ((List.range f.nu).flatMap fun i => (List.range f.nv).map fun j =>
      (grid16.filter fun p => (f.inst i j).inside (2 * (16 * t * tu + t * p.1) + t) (2 * (16 * t * tv + t * p.2) + t)).length).sum).sum

/-- The density index of a tile (R107): min(D, 255), D rounded from the exact double sum. -/
def densIndex (b : Binding) (figs : List Fig) (count : Nat) (tu tv : Int) : Nat :=
  let h (v : Int) : Nat := ((List.range 17).map fun (i : Nat) =>
    if b.kernU i = 0 then 0 else b.kernU i * rho b figs count (tu + i - 8) v).sum
  let sum := ((List.range 17).map fun (j : Nat) => if b.kernV j = 0 then 0 else b.kernV j * h (tv + j - 8)).sum
  min 255 ((sum + 2 ^ 23) / 2 ^ 24)

/-! ### Dose and gray level (R112) -/

/-- Accumulated dose of a pixel from figures' instances that may touch it, in 1/256 gray (R112). -/
def dose (b : Binding) (shapes : List (Nat × Shape)) (index : Nat) (x y : Int) : Nat :=
  min 65535 ((shapes.map fun p =>
    let t := b.transfer p.1 (p.2.shifted b p.1 x y)
    let m := if b.densEn && b.densApply p.1 then b.factor p.1 index else 1024
    (t * m + 512) / 1024).sum)

/-- Gray level of an accumulated dose (R112). -/
def grayOf (a : Nat) : Nat := min 15 ((a + 128) / 256)

/-- The instances of the held figures whose row extent meets a row, with their class. -/
def shapesAt (b : Binding) (figs : List Fig) (y : Nat) : List (Nat × Shape) :=
  figs.flatMap fun f => (List.range f.nv).flatMap fun j =>
    let r := (f.inst 0 j).rowsOf (b.shiftEn f.cls)
    if r.1 ≤ (y : Int) && (y : Int) ≤ r.2 then (List.range f.nu).map fun i => (f.cls, f.inst i j) else []

/-- Accumulated doses of a row over the columns `first` to `first + width − 1`. -/
def rowDoses (b : Binding) (figs : List Fig) (count first width y : Nat) : List Nat :=
  let shapes := shapesAt b figs y
  if shapes.isEmpty then List.replicate width 0
  else (List.range width).map fun i =>
    let x : Int := (first + i : Nat)
    let near := shapes.filter fun p => minI p.2.us2 ≤ 32 * (x + 2) && 32 * (x - 1) ≤ maxI p.2.us2
    if near.isEmpty then 0
    else
      let index := if b.densEn then densIndex b figs count (floorDiv x b.tile) (floorDiv y b.tile) else 0
      dose b near index x y

/-! ### Binding (R117) -/

/-- The configuration active on a die now, for a stripe that binds (R117). A played stripe takes its entry's sx_log2
(R118). -/
def Chip.bindingNow (c : Chip) (d : DieId) (sx : Option Nat) : Binding :=
  { densEn := c.act d F.KILN_CTRL_dens_en == 1
    tile := 16 * 2 ^ c.act d F.KILN_CTRL_dens_tile
    sxLog2 := sx.getD (c.act d F.MAP_GEOM_sx_log2)
    words := (c.die d).regs.filter fun p => 0x048000 ≤ p.1 && p.1 < 0x050000
    tables := ((c.die d).tableCopy true).filter fun p => 0x910000 ≤ p.1 && p.1 < 0x930000
    meas := c.measWord0 }

/-- Change a die's Kiln. -/
def Chip.onKiln (c : Chip) (d : DieId) (f : Kiln → Kiln) : Chip := c.onDie d fun x => { x with kiln := f x.kiln }

/-- A stripe binds (R117): marks made earlier are spread (R111), and its store takes the measurement in force and the Sx
bound (R149, R165; log entry 65). -/
def Chip.bindStripe (c : Chip) (d : DieId) (id : Nat) (sx : Option Nat) : Chip :=
  let b := c.bindingNow d sx
  let c1 := c.onStripe d id fun t => ({ t with binding := some b }).spreadEarlier b
  match (c.stripe? d id).bind (·.store) with
  | some n => c1.onCask d (·.onEntry n fun e => { e with meas := b.meas, sxLog2 := b.sxLog2 })
  | none => c1

/-- A stripe that is not bound and not played binds, unless a swap is armed (R117). -/
def Chip.bindIfDue (c : Chip) (d : DieId) (id : Nat) : Chip :=
  match c.stripe? d id with
  | none => c
  | some t => if t.binding.isNone && t.play.isNone && !c.swapArmed then c.bindStripe d id none else c

/-! ### Feeding records (R97, R98, R114) -/

/-- The first row from `y` to `hi` that is neither rasterized nor untrusted. -/
def Stripe.firstPending (t : Stripe) (hi : Nat) : Nat → Nat → Option Nat
  | 0, y => if y ≤ hi then some y else none
  | fuel + 1, y =>
    if hi < y then none
    else match t.marks.find? fun m => m.lo ≤ y && y ≤ m.hi with
    | some m => Stripe.firstPending t hi fuel (m.hi + 1)
    | none =>
      if (t.row y).gray.isSome || (t.row y).released then Stripe.firstPending t hi fuel (y + 1) else some y

/-- Every row from `lo` to `hi` is rasterized or untrusted. -/
def Stripe.rowsDone (t : Stripe) (lo hi : Nat) : Bool :=
  (t.firstPending hi (t.marks.length + t.rows.length + 1) lo).isNone

/-- Figure store entries in use: figures with a row still to be rasterized (R114). -/
def Stripe.storeUsed (t : Stripe) : Nat :=
  ((t.figs.filter fun f => !t.rowsDone f.rowFirst f.rowLast).map fun f => if f.isRepeat then 2 else 1).sum

/-- Figure store entries in use on a die. -/
def Chip.storeUsed (c : Chip) (d : DieId) : Nat := ((c.stripes d).map (·.storeUsed)).sum

/-- An invalid record (R97, R98): counted, loaded, its block's rows marked, and the rest of the block discarded. -/
def Chip.recordInvalid (c : Chip) (d : DieId) (t : Stripe) (b : Block) (e : RecErr) (extents : List (Nat × Nat)) : Chip :=
  let r := t.blockRows b
  let hit := extents.flatMap fun x =>
    (t.rows.filter fun p => x.1 ≤ p.1 && p.1 ≤ x.2 && p.2.released).map (·.1)
  let marked := c.onStripe d t.id fun t =>
    { t.markUnknowns ((r.1, r.2, 0x03) :: extents.map fun x => (x.1, x.2, 0x03)) with discarding := true }
  let lo := hit.foldl min (hit.headD 0)
  let hi := hit.foldl max (hit.headD 0)
  let c1 := ((marked.puts d
    [(F.KILN_FIG_ERR_kind, e.kind), (F.KILN_FIG_ERR_released, b2n !hit.isEmpty), (F.KILN_FIG_ERR_word_offset, e.head),
     (F.KILN_FIG_ERR_1_block_seq, b.seq), (F.KILN_FIG_ERR_2_stripe_id, t.id),
     (F.KILN_FIG_ERR_3_row_first, if hit.isEmpty then 0 else t.vFirst + lo),
     (F.KILN_FIG_ERR_4_row_last, if hit.isEmpty then 0 else t.vFirst + hi)]).bump d F.KILN_FIG_ERR_COUNT_fig_errors).raise d 64
  if hit.isEmpty then c1 else (c1.raise d 65).storeFailOf d t 0x9

/-- A figure is held (R114), with the rows it touches. One that touches none is kept for the density map, where it takes no
entry (R106). -/
def Stripe.hold (t : Stripe) (b : Binding) (f : Fig) (extents : List (Nat × Nat)) : Stripe :=
  if extents.isEmpty then
    if b.densEn then { t with figs := t.figs ++ [{ f with rowFirst := t.count, rowLast := 0 }] } else t
  else
    let lo := extents.foldl (fun m x => min m x.1) (t.count - 1)
    let hi := extents.foldl (fun m x => max m x.2) 0
    { t with figs := t.figs ++ [{ f with rowFirst := lo, rowLast := hi }] }

/-- The cause under which an error in the Kiln's memories marks rows (R119). -/
def kilnCause (r : MemRead) : Nat := if r == .poison then 0x04 else 0x05

/-- A figure that the store reads back in error: the rows it touches are marked (R119). -/
def Chip.figureLost (c : Chip) (d : DieId) (id : Nat) (extents : List (Nat × Nat)) (sram : MemRead) : Chip :=
  if sram == .clean then c
  else
    (c.onStripe d id fun t => t.markUnknowns (extents.map fun x => (x.1, x.2, kilnCause sram))).sramReadError d sram 3

/-- Words of the original up to the end of the record at `pos`; an invalid record is judged on at most the 12 words of the
longest record. -/
def recordEnd (orig : List Nat) (pos : Nat) : Nat :=
  match readRecord orig pos with
  | .ok r => r.next
  | .error _ => min (orig.length / 4) (pos + 12)

/-- Store entries that the record at `pos` takes (R114). -/
def recordEntries (orig : List Nat) (pos : Nat) : Nat :=
  match readRecord orig pos with
  | .ok ⟨some f, _⟩ => if f.isRepeat then 2 else 1
  | .ok ⟨none, _⟩ => 0
  | .error _ => 0

/-- The figure store takes the record at `pos`: it is not full, and has room for it (R114). -/
def Chip.storeTakes (c : Chip) (d : DieId) (orig : List Nat) (pos : Nat) : Bool :=
  c.storeUsed d < 262144 && c.storeUsed d + recordEntries orig pos ≤ 262144

/-- The block whose next record the feed decoder can deliver now, and its original (R114, R117, R284). -/
def Chip.nextRecord (c : Chip) (d : DieId) : Option (Stripe × Block × List Nat) :=
  match c.decoding d (c.die d).mash.feed with
  | none => none
  | some (t, b) =>
    match mashDecode b.payload b.origLen with
    | .error _ => none
    | .ok orig =>
      let pos := (c.die d).mash.feedPos
      if !c.isGone d t b && !t.discarding && pos < orig.length / 4 && (t.binding.isSome || !c.swapArmed) &&
        c.storeTakes d orig pos && c.feedHas d b (recordEnd orig pos)
      then some (t, b, orig) else none

/-- A record is delivered to the Kiln (R97, R114): checked, held, or answered as invalid; `sram` is how the figure store
read back (R119). -/
def Chip.feedRecord (c : Chip) (d : DieId) (t : Stripe) (b : Block) (orig : List Nat) (pos : Nat) (sram : MemRead) : Chip :=
  let r := t.blockRows b
  let c1 := c.fedTo d b (recordEnd orig pos)
  match t.binding with
  | none => c
  | some bind =>
    match readRecord orig pos with
    | .error e => c1.recordInvalid d t b e []
    | .ok ⟨none, _⟩ => c1
    | .ok ⟨some f, _⟩ =>
      let extents := f.extents t.count (bind.shiftEn f.cls)
      if extents.any fun x => x.1 < r.1 || r.2 < x.2 then c1.recordInvalid d t b ⟨0x5, pos⟩ extents
      else (c1.onStripe d t.id (·.hold bind f extents)).figureLost d t.id extents sram

/-! ### Rasterization of a row (R112 to R120) -/

/-- Pixels of the Tun in use, the margin columns aside: a row of a stripe takes the Sx bound for it (R116, R118). -/
def Chip.tunUsed (c : Chip) (d : DieId) : Nat :=
  ((c.stripes d).map fun t => (t.rows.filter (·.2.gray.isSome)).length * 2 ^ c.sxOf d t).sum

/-- The Tun has free slots for `n` rows of a stripe: it holds 393,216 / Sx rows (R116). -/
def Chip.tunFreeFor (c : Chip) (d : DieId) (sxLog2 n : Nat) : Bool := c.tunUsed d + n * 2 ^ sxLog2 ≤ 393216

/-- The Tun has a free row slot. -/
def Chip.tunFree (c : Chip) (d : DieId) (sxLog2 : Nat) : Bool := c.tunFreeFor d sxLog2 1

/-- The rows of the tile rows within 8 of row `y`'s, clipped to the stripe (R109, R111, R115). -/
def Stripe.neighbourhood (t : Stripe) (b : Binding) (y : Nat) : Nat × Nat :=
  let r := spreadRows b.tile y y
  (r.1, min r.2 (t.count - 1))

/-- Every row of an interval is Grist-closed or untrusted (R115). -/
def Chip.closedOrUntrusted (c : Chip) (d : DieId) (t : Stripe) (lo hi : Nat) : Bool :=
  (c.piecesTo d t.id hi).all fun p =>
    p.2 < lo || (c.openCause d t (max p.1 lo)).isNone || t.allSettled (max p.1 lo) p.2

/-- Enabled raster engines. -/
def Chip.engines (c : Chip) (d : DieId) : Nat := popcount 32 (c.fld d F.KILN_ENGINE_EN_engine_en)

/-- The Kiln may rasterize row `y` of a bound stripe now (R113, R115, R116): in row order, and a row of a stripe after those of
the older stripes, between which the spec gives no order (DESIGN CHOICE, log entry 65). -/
def Chip.rowReady (c : Chip) (d : DieId) (t : Stripe) (b : Binding) (y : Nat) : Bool :=
  c.engines d != 0 &&
  y < t.count && !t.untrusted y && (t.row y).gray.isNone && !(t.row y).released && (c.openCause d t y).isNone &&
  (!b.densEn || (let n := t.neighbourhood b y; c.closedOrUntrusted d t n.1 n.2)) &&
  (y == 0 || t.rowsDone 0 (y - 1)) &&
  ((c.stripes d).takeWhile (·.id != t.id)).all (fun o => o.play.isSome || o.rowsDone 0 (o.count - 1)) &&
  c.tunFree d b.sxLog2

/-- The raster tile columns of a die's raster range, and those of tile row `ty` that are sampled (R113, R120). -/
def Chip.sampledTiles (c : Chip) (d : DieId) (b : Binding) (rot ty : Nat) : List Nat :=
  let lo := rasterFirst c d b.sxLog2 / 32
  let hi := rasterLast c d b.sxLog2 / 32
  ((List.range (hi + 1 - lo)).map (lo + ·)).filter fun tx => (ty + 9 * tx + rot) % 64 == 0

/-- The engine that takes a raster tile: the one assigned if it is enabled, else the lowest enabled one. Which engine
takes which tile is not specified (R113; log entry 65). -/
def Chip.engineFor (c : Chip) (d : DieId) (engines : List (Nat × Nat)) (tx : Nat) : Nat :=
  let on := onesOf 32 (c.fld d F.KILN_ENGINE_EN_engine_en)
  match engines.find? fun e => e.1 == tx && on.contains e.2 with
  | some e => e.2
  | none => on.headD 0

/-- Gray level of column index `i` of a row; an empty list is all zero. -/
def Row.level (r : Row) (i : Nat) : Nat := (r.gray.getD []).getD i 0

/-- The eight columns beyond the seam in a die's raster range, and its own eight columns nearest the seam (R91, R124). -/
def Row.marginColumns (r : Row) (d : DieId) (sxLog2 : Nat) : List Nat :=
  (List.range 8).map fun i => r.level (if d = .w then 256 * 2 ^ sxLog2 + i else i)
def Row.seamColumns (r : Row) (d : DieId) (sxLog2 : Nat) : List Nat :=
  (List.range 8).map fun i => r.level (if d = .w then 256 * 2 ^ sxLog2 - 8 + i else 8 + i)

/-- What a row holds apart from its Tun slot for the seam (R116, R124). -/
def Row.withEdge (r : Row) (two : Bool) (d : DieId) (sxLog2 : Nat) : Row :=
  if two then { r with edge := some (r.marginColumns d sxLog2, r.seamColumns d sxLog2) } else r

/-- A margin message is judged (R125, R434): a row that is untrusted before it was rasterized has nothing to compare. -/
def Chip.judgeMargin (c : Chip) (d : DieId) (m : Margin) : Chip :=
  match c.stripe? d m.stripe with
  | none => c
  | some t =>
    let r := t.row m.row
    let arrived (c : Chip) : Chip := c.onStripe d t.id (·.onRow m.row fun r => { r with seamOk := true })
    if t.job ≠ m.job || r.released || r.seamUnchecked then c
    else match m.gray, r.edge with
    | none, _ => arrived c
    | some g, some e =>
      if g == e.1 then arrived c
      else
        ((((arrived c).onStripe d t.id (·.markRow m.row 0x07)).bump d F.TASTE_SEAM_MISMATCH_COUNT_count).raise d 72).onKiln d
          fun k => { k with mismatchOut := k.mismatchOut ++ [(m.job, m.stripe, m.row)] }
    | some _, none => if t.untrusted m.row then arrived c else c.onKiln d fun k => { k with marginIn := k.marginIn ++ [m] }

/-- Margin messages that arrived before their row was rasterized are judged now. -/
def Chip.judgeEarly (c : Chip) (d : DieId) (job id y : Nat) : Chip :=
  let here := (c.die d).kiln.marginIn.filter fun m => m.job == job && m.stripe == id && m.row == y
  let c1 := c.onKiln d fun k => { k with marginIn := k.marginIn.filter fun m => !(m.job == job && m.stripe == id && m.row == y) }
  c1.forEach here fun c m => c.judgeMargin d m

/-- A row's place in the Tun is filled (R112, R160, R434). A margin that has arrived counts. -/
def Chip.fillTun (c : Chip) (d : DieId) (t : Stripe) (y : Nat) (gray tasting : List Nat) : Chip :=
  let old := t.row y
  let row : Row := { old with
    gray := some (if gray.all (· == 0) then [] else gray), tasting := tasting, seamOk := old.seamOk || !c.two
    seamUnchecked := c.two && !c.evuneUp }
  (c.onStripe d t.id (·.onRow y fun _ => row.withEdge c.two d (c.sxOf d t))).judgeEarly d t.job t.id y

/-- A stripe's first row: rot is set from the seed and the stripes begun before it; whether n counts the stripe itself, and
when the seed is sampled, the spec does not say (R120; DESIGN CHOICE, log entry 65). -/
def Chip.beginRaster (c : Chip) (d : DieId) (t : Stripe) : Nat × Chip :=
  match t.rot with
  | some r => (r, c)
  | none =>
    let r := (c.fld d F.TASTE_CTRL_seed + (c.die d).kiln.begun) % 64
    (r, (c.onStripe d t.id fun t => { t with rot := some r }).onKiln d fun k => { k with begun := k.begun + 1 })

/-- Row `y` of a bound stripe is rasterized into the Tun (R112, R113, R120, R434). -/
def Chip.rasterize (c : Chip) (d : DieId) (t : Stripe) (b : Binding) (y : Nat) (engines : List (Nat × Nat)) : Chip :=
  let doses := rowDoses b t.figs t.count (rasterFirst c d b.sxLog2) (rasterWidth c d b.sxLog2) y
  let sat := (doses.filter (3968 ≤ ·)).length
  let ty := y / 32
  let s := c.beginRaster d t
  let txs := s.2.sampledTiles d b s.1 ty
  let begun := (txs.filter fun tx => !(t.tiles.any fun x => x.1 == tx && x.2.1 == ty)).map fun tx =>
    (tx, ty, c.engineFor d engines tx)
  let c1 := (s.2.onStripe d t.id fun t => { t with tiles := t.tiles ++ begun }).fillTun d t y (doses.map grayOf) txs
  if sat = 0 then c1 else (c1.onDie d (·.bumpBy F.KILN_SAT_COUNT_saturated sat)).raiseTimes d 67 sat

/-! ### The Taster (R120 to R123) -/

/-- Mismatches among an engine's last 64 sampled tiles. -/
def Kiln.misses (k : Kiln) (engine : Nat) : Nat := ((smGet [] engine k.hist).filter id).length

/-- A new value of KILN_ENGINE_EN, with the capacity fault of R122. -/
def Chip.setEngines (c : Chip) (d : DieId) (v : Nat) : Chip :=
  let c1 := c.put d F.KILN_ENGINE_EN_engine_en v
  if 17 ≤ c.engines d && c1.engines d < 17 then c1.raise d 69 else c1

/-- An engine is retired (R122). -/
def Chip.retireEngine (c : Chip) (d : DieId) (n : Nat) : Chip :=
  let f := F.KILN_ENGINE_RETIRED_retired
  let c0 := c.onKiln d fun k => { k with retired := n :: k.retired }
  let c1 := (c0.onDie d fun x => (x.put f (setNbit (x.fld f) n true)).noteNow f (setNbit (x.added f) n true)).raise d 68
  c1.setEngines d (setNbit (c1.fld d F.KILN_ENGINE_EN_engine_en) n false)

/-- Distinct engines of the mismatches among the last 256 sampled tiles (R123). -/
def Kiln.suspects (k : Kiln) : Nat := (k.recent.filterMap id).eraseDups.length

/-- Engines due to be retired (R122): those with 2 mismatches among their last 64 tiles that are not retired already, be they
enabled or not; none while suspect is 1 (R123). -/
def Kiln.retiring (k : Kiln) : List Nat :=
  if k.suspect then [] else (List.range 32).filter fun n => 2 ≤ k.misses n && !(k.retired.contains n)

/-- The engines due to be retired are retired. -/
def Chip.retireDue (c : Chip) (d : DieId) : Chip := c.forEach (c.die d).kiln.retiring fun c n => c.retireEngine d n

/-- Write of KILN_ENGINE_EN: a 1 for a retired engine clears its mismatch history. It counts as retired until then, whatever
software has made of its bit in KILN_ENGINE_RETIRED (DESIGN CHOICE, log entry 65). -/
def Chip.writeEngineEn (c : Chip) (d : DieId) (v : Word) : Chip :=
  ((c.onKiln d fun k => { k with
    hist := k.hist.filter fun p => !(bit v p.1 && k.retired.contains p.1)
    retired := k.retired.filter fun n => !(bit v n) }).setEngines d v.toNat).retireDue d

/-- A sampled tile's comparison completes (R121 to R123). -/
def Chip.tasterDone (c : Chip) (d : DieId) (t : Stripe) (tx ty engine : Nat) (mismatch : Bool) : Chip :=
  let rows := ((List.range 32).map (32 * ty + ·)).filter (· < t.count)
  let c1 := (c.onStripe d t.id fun t =>
    { rows.foldl (fun t y => if (t.row y).tasting.contains tx then
        t.onRow y fun r => { r with tasting := r.tasting.filter (· != tx) } else t) t with
      tiles := t.tiles.filter fun x => !(x.1 == tx && x.2.1 == ty) }).bump d F.TASTE_SAMPLE_COUNT_count
  let c2 := c1.onKiln d fun k => { k with
    hist := smInsert engine ((mismatch :: smGet [] engine k.hist).take 64) k.hist
    recent := ((if mismatch then some engine else none) :: k.recent).take 256 }
  let c3 := if mismatch then
      (((c2.onStripe d t.id fun t => rows.foldl (fun t y => t.markRow y 0x07) t).puts d
        [(F.TASTE_LAST_MISMATCH_engine, engine), (F.TASTE_LAST_MISMATCH_tx, tx), (F.TASTE_LAST_MISMATCH_1_stripe_id, t.id),
         (F.TASTE_LAST_MISMATCH_2_ty, ty)]).bump d F.TASTE_MISMATCH_COUNT_count).raise d 70
    else c2
  let k := (c3.die d).kiln
  let now := 4 ≤ k.suspects
  let c4 := c3.onKiln d fun k => { k with suspect := now }
  let c5 := if now && !k.suspect then c4.raise d 71 else c4
  c5.retireDue d

/-! ### Release (R35, R434) -/

/-- A row meets the conditions of its release (R35; of a played stripe, R160). -/
def Chip.releasable (c : Chip) (d : DieId) (t : Stripe) (y : Nat) : Bool :=
  let r := t.row y
  y < t.count && !r.released && !t.untrusted y && r.gray.isSome && r.tasting.isEmpty && (r.seamOk || r.seamUnchecked) &&
  (t.play.isNone || (c.openCause d t y).isNone)

/-! ### What stops a row (R109, R119) -/

/-- Density tile rows, of those named, within 8 of a row's and within the stripe. -/
def Stripe.tileRows (t : Stripe) (b : Binding) (y : Nat) (l : List Nat) : List Nat :=
  let tv := y / b.tile
  l.filter fun x => tv ≤ x + 8 && x ≤ tv + 8 && x * b.tile < t.count

/-- The rows within 8 density tile rows of one are marked. -/
def Stripe.markTileRow (t : Stripe) (b : Binding) (tv cause : Nat) : Stripe :=
  let r := spreadRows b.tile (tv * b.tile) (tv * b.tile)
  t.markPlain r.1 r.2 cause

/-- The density units disagree on a tile row (R109). -/
def Chip.densDiffers (c : Chip) (d : DieId) (id : Nat) (b : Binding) (tv : Nat) : Chip :=
  ((c.onStripe d id (·.markTileRow b tv 0x07)).bump d F.TASTE_DENS_MISMATCH_COUNT_count).raise d 73

/-- The density map reads back in error (R119). -/
def Chip.densLost (c : Chip) (d : DieId) (id : Nat) (b : Binding) (tvs : List Nat) (r : MemRead) : Chip :=
  if r == .clean || tvs.isEmpty then c
  else (c.onStripe d id fun t => tvs.foldl (fun t tv => t.markTileRow b tv (kilnCause r)) t).sramReadError d r 5

/-- What the Kiln meets before it rasterizes row `y`: the density pass, and the figures that the row is made from. -/
def Chip.beforeRow (c : Chip) (d : DieId) (t : Stripe) (b : Binding) (y : Nat) (x : RowRun) : Chip :=
  let c1 := if b.densEn then
      (c.forEach (t.tileRows b y x.differ) fun c tv => c.densDiffers d t.id b tv).densLost d t.id b
        (t.tileRows b y x.densRows) x.dens
    else c
  match t.figs[x.figAt]? with
  | none => c1
  | some f =>
    if b.densEn || (f.rowFirst ≤ y && y ≤ f.rowLast) then
      c1.figureLost d t.id (f.extents t.count (b.shiftEn f.cls)) x.fig
    else c1

/-- The accumulator of the engine that works on a raster tile reads back in error (R119). -/
def Chip.tileLost (c : Chip) (d : DieId) (id y : Nat) (r : MemRead) : Chip :=
  (c.onStripe d id (·.markPlain (y / 32 * 32) (y / 32 * 32 + 31) (kilnCause r))).sramReadError d r 4

/-- The Kiln works on row `y` of a bound stripe. -/
def Chip.workRow (c : Chip) (d : DieId) (t : Stripe) (b : Binding) (y : Nat) (x : RowRun) : Chip :=
  let c1 := c.beforeRow d t b y x
  match c1.stripe? d t.id with
  | none => c1
  | some u =>
    if u.untrusted y then c1
    else if x.acc != .clean && rasterFirst c d b.sxLog2 / 32 ≤ x.accTx && x.accTx ≤ rasterLast c d b.sxLog2 / 32 then
      (c1.beginRaster d u).2.tileLost d t.id y x.acc
    else c1.rasterize d u b y x.engines

/-! ### Meanings -/

/-- TUN_ROW_RELEASE (R35, R434): a store takes the row (R150). -/
def execTunRowRelease (d : DieId) (stripe row : Nat) (s : State) : Res :=
  s.nextChip fun c =>
    match c.stripe? d stripe with
    | none => c
    | some t =>
      if c.releasable d t row then
        ((c.onStripe d stripe (·.onRow row fun r => { r with released := true })).caskTake d).dropFinished d
      else c

/-- FIGURE_RECORD (R97, R98, R114, R117): the next record of the block being fed; the stripe's first one binds it. -/
def execFigureRecord (d : DieId) (sram : MemRead) (s : State) : Res :=
  s.nextChip fun c =>
    match c.nextRecord d with
    | none => c
    | some (t, b, orig) =>
      let c1 := c.bindIfDue d t.id
      match c1.stripe? d t.id with
      | none => c1
      | some u => (c1.feedRecord d u b orig (c.die d).mash.feedPos sram).dropFinished d

/-- KILN_STRIPE_BIND (R117): the stripe binds if its first record or its first row is due now and no swap is armed. -/
def execKilnStripeBind (d : DieId) (stripe : Nat) (s : State) : Res :=
  s.nextChip fun c =>
    match c.stripe? d stripe with
    | none => c
    | some t =>
      let feeding := ((c.nextRecord d).map fun x => x.1.id == stripe).getD false
      if feeding || c.rowReady d t (c.bindingNow d none) 0 then c.bindIfDue d stripe else c

/-- KILN_ROW_RASTERIZE (R109, R112, R113, R115, R117, R119). -/
def execKilnRowRasterize (d : DieId) (stripe row : Nat) (run : RowRun) (s : State) : Res :=
  s.nextChip fun c =>
    match c.stripe? d stripe with
    | none => c
    | some t =>
      if t.play.isSome || !(c.rowReady d t (t.binding.getD (c.bindingNow d none)) row) then c
      else
        let c1 := c.bindIfDue d stripe
        match c1.stripe? d stripe with
        | none => c1
        | some u =>
          match u.binding with
          | none => c1
          | some b => if u.untrusted row then c1 else (c1.workRow d u b row run).dropFinished d

/-- TASTER_COMPARE_COMPLETE (R121): a sampled tile whose rows are all rasterized or untrusted. -/
def execTasterCompareComplete (d : DieId) (stripe tx ty : Nat) (mismatch : Bool) (s : State) : Res :=
  s.nextChip fun c =>
    match c.stripe? d stripe with
    | none => c
    | some t =>
      let rows := ((List.range 32).map (32 * ty + ·)).filter (· < t.count)
      match t.tiles.find? fun x => x.1 == tx && x.2.1 == ty with
      | none => c
      | some x =>
        if rows.all fun y => t.untrusted y || (t.row y).gray.isSome || (t.row y).released then
          (c.tasterDone d t tx ty x.2.2 mismatch).dropFinished d
        else c

/-- KILN_ENGINE_EN_WRITE (R122). -/
def execKilnEngineEnWrite (_m : Master) (d : DieId) (v : Word) (s : State) : Res :=
  s.nextBus fun c => if c.hasDie d then c.writeEngineEn d v else c

/-- STRIPE_OPEN_REPORT (R124). -/
def execStripeOpenReport (d : DieId) (s : State) : Res :=
  s.nextChip fun c =>
    match (c.die d.other).kiln.openOut with
    | [] => c
    | p :: rest =>
      if !c.evuneUp then c
      else
        let c1 := c.onKiln d.other fun k => { k with openOut := rest }
        match c1.stripe? d p.2 with
        | some t => if t.job == p.1 then c1.onStripe d p.2 fun t => { t with otherHolds := true } else c1
        | none => c1.onKiln d fun k => { k with heard := k.heard ++ [p] }

/-- MARGIN_MESSAGE_SEND (R124): in row order, once the other die holds the stripe; an untrusted row as its flag. -/
def execMarginMessageSend (d : DieId) (stripe row : Nat) (s : State) : Res :=
  s.nextChip fun c =>
    match c.stripe? d stripe with
    | none => c
    | some t =>
      let r := t.row row
      let gray : Option (Option (List Nat)) := if t.untrusted row then some none else r.edge.map fun e => some e.2
      match gray with
      | none => c
      | some g =>
        if c.evuneUp && t.otherHolds && row < t.count && !r.marginSent && (List.range row).all (fun y => (t.row y).marginSent)
        then
          (c.onStripe d stripe (·.onRow row fun r => { r with marginSent := true })).onKiln d fun k =>
            { k with marginOut := k.marginOut ++ [⟨t.job, t.id, row, g⟩] }
        else c

/-- MARGIN_MESSAGE_RECEIVE (R125, R434). -/
def execMarginMessageReceive (d : DieId) (s : State) : Res :=
  s.nextChip fun c =>
    match (c.die d.other).kiln.marginOut with
    | [] => c
    | m :: rest =>
      if c.evuneUp then ((c.onKiln d.other fun k => { k with marginOut := rest }).judgeMargin d m).dropFinished d else c

/-- SEAM_MISMATCH_RECEIVE (R125): the row is marked unless it is released. -/
def execSeamMismatchReceive (d : DieId) (s : State) : Res :=
  s.nextChip fun c =>
    match (c.die d.other).kiln.mismatchOut with
    | [] => c
    | (job, id, y) :: rest =>
      if !c.evuneUp then c
      else
        let c1 := c.onKiln d.other fun k => { k with mismatchOut := rest }
        match c1.stripe? d id with
        | none => c1
        | some t =>
          if t.job == job && !(t.row y).released then (c1.onStripe d id (·.markRow y 0x07)).dropFinished d else c1

end Sys2Proof.Machine
end

