-- ==== Sys2Proof/Machine/Map.lean ====
section
/-! DEFINITION. The beam map (chapter 4): a stripe's view (R137), beam states and the verdict of R140, the output code
(R144), the map check (R138), and the unit words (R31 to R34). -/

namespace Sys2Proof.Machine

/-! ### Units (R31, R32) -/

/-- Offsets of the unit words. -/
def cellUnit (i : Nat) : Nat := 0x004000 + 4 * i
def fieldUnit (f : Nat) : Nat := 0x006000 + 4 * f
def halfUnit : Nat := 0x006080
def moduleUnit : Nat := 0x006084
def herdUnit : Nat := 0x006088

/-- Active enable of a unit among active words that differ from reset; the reset value is 1. -/
def unitOn (units : List (Nat × Word)) (off : Nat) : Bool := bit (smGet (resetWord (off + 0x8000)) (off + 0x8000) units) 0

/-- The enables above the cells: half, module, herd, and the herd enable of the last commit (R32, R34). Each die holds a
module and a herd word of its own (R31); a die's own copy governs its beams, and not the other die's, which the spec leaves
open (DESIGN CHOICE, log entry 46). -/
def topOn (units : List (Nat × Word)) (herdEnable : Bool) : Bool :=
  units.isEmpty && herdEnable || herdEnable && unitOn units halfUnit && unitOn units moduleUnit && unitOn units herdUnit

/-- Effective enable of a cell (R32). -/
def cellOn (units : List (Nat × Word)) (herdEnable : Bool) (i : Nat) : Bool :=
  (units.isEmpty && herdEnable) ||
  (topOn units herdEnable && unitOn units (fieldUnit (fieldOfCell i)) && unitOn units (cellUnit i))

/-- The active unit words of a die that differ from reset. -/
def Die.activeUnits (x : Die) : List (Nat × Word) :=
  x.regs.filter fun p => 0x00C000 ≤ p.1 && p.1 < 0x00E08C

/-! ### Beams of a view (R139) -/

/-- A used defect list entry: its number, beam, kind and open_dose. -/
structure Defect where
  index : Nat
  beam : Nat
  kind : Nat
  dose : Nat
  deriving DecidableEq, Repr

/-- The defect list of a table copy, but for unused entries (R147). -/
def defectsIn (copy : List (Nat × Word)) : List Defect :=
  ((copy.filter fun p => 0x900000 ≤ p.1 && p.1 < 0x902000 && p.1 % 8 == 0).filter fun p => bits p.2 29 28 != 0).map fun p =>
    ⟨(p.1 - 0x900000) / 8, bits p.2 16 0, bits p.2 29 28, bits (tblIn .w copy (p.1 + 4)) 15 0⟩

/-- The open_dose of an open beam; `none` for a beam that is not open. -/
def View.openDose (v : View) (b : Nat) : Option Nat :=
  ((defectsIn v.tables).find? fun x => x.kind == 2 && x.beam == b).map (·.dose)

/-- A beam is closed in the view. -/
def View.isClosed (v : View) (d : DieId) (b : Nat) : Bool :=
  (v.openDose b).isNone &&
  ((defectsIn v.tables).any (fun x => x.kind == 1 && x.beam == b) || bit (tblIn d v.tables (0x800000 + 4 * b)) 24 ||
    !cellOn v.units v.herdEnable (cellOf b) || v.failedLanes.contains (laneOfPhys (physOf d v.tables b)))

/-- The cells that may hold a closed or open beam. -/
def View.suspectCells (v : View) (d : DieId) : List Nat :=
  ((defectsIn v.tables).map (cellOf ·.beam) ++
   ((v.tables.filter fun p => 0x800000 ≤ p.1 && p.1 < 0x880000 && bit p.2 24).map fun p => cellOf ((p.1 - 0x800000) / 4)) ++
   (if v.units.isEmpty && v.herdEnable then [] else (List.range 2048).filter fun i => !cellOn v.units v.herdEnable i) ++
   v.failedLanes.flatMap (laneCells d v.tables)).eraseDups

/-- Closed or open beams of a cell in the view. -/
def View.cellDefects (v : View) (d : DieId) (i : Nat) : Nat :=
  ((beamsOfCell i).filter fun b => v.isClosed d b || (v.openDose b).isSome).length

/-- The cells with a closed or open beam, each with their number. -/
def View.defectCells (v : View) (d : DieId) : List (Nat × Nat) :=
  ((v.suspectCells d).map fun i => (i, v.cellDefects d i)).filter (0 < ·.2)

/-- Closed beams of the view. -/
def View.closedCount (v : View) (d : DieId) : Nat :=
  ((v.suspectCells d).map fun i => ((beamsOfCell i).filter fun b => v.isClosed d b).length).sum

/-- Open beams of the view. -/
def View.openCount (v : View) : Nat := ((defectsIn v.tables).filter fun x => x.kind == 2).length

/-! ### Codes (R140, R144) -/

/-- Gain and prime of a beam in a table copy (R147). -/
def gainIn (d : DieId) (copy : List (Nat × Word)) (b : Nat) : Nat := bits (tblIn d copy (0x880000 + 4 * b)) 7 0
def primeIn (d : DieId) (copy : List (Nat × Word)) (b : Nat) : Nat := bits (tblIn d copy (0x880000 + 4 * b)) 10 8

/-- code_raw of R144. -/
def codeRaw (t gain : Nat) : Nat := (t * gain + 8192) % 2 ^ 32 / 16384

/-- The verdict of R140 on a pixel: compensable, and the per-pass dose. -/
structure Verdict where
  ok : Bool
  t : Nat
  deriving DecidableEq, Repr

/-- The pass siblings of a pixel of row height `h` in beam column `cc` of the die. -/
def View.siblings (v : View) (h cc : Nat) : List Nat :=
  (List.range v.geo.P).map fun g => (h + g * v.geo.G) * 256 + cc

/-- R140 for gray level `q` of a column and row height. -/
def View.verdict (v : View) (d : DieId) (q h cc : Nat) : Verdict :=
  let P := v.geo.P
  let sib := v.siblings h cc
  let D := q * 256 * P
  let O := (sib.map fun b => (v.openDose b).getD 0).sum
  let working := sib.filter fun b => (v.openDose b).isNone && !v.isClosed d b
  let a := working.length
  if !v.compEn then ⟨a == P || (D == 0 && O == 0), q * 256⟩
  else if D < O then ⟨false, 0⟩
  else if a = 0 then ⟨D == O, 0⟩
  else
    let t := (2 * (D - O) + a) / (2 * a)
    let excess := (working.map fun b => codeRaw t (gainIn d v.tables b) - 63).sum
    ⟨excess ≤ v.tol, t⟩

/-- The output code of a working beam for a per-pass dose (R144). -/
def View.codeOf (v : View) (d : DieId) (t b : Nat) : Nat := min 63 (codeRaw t (gainIn d v.tables b))

/-! ### The view bound at S0 (R137) -/

/-- The view of a stripe from the active copies. -/
def Chip.viewNow (c : Chip) (d : DieId) (stripe job vFirst rows s0 slots : Nat) (failed : List Nat) (bank : Nat) : View :=
  let v : View :=
    { stripe := stripe, job := job, vFirst := vFirst, rows := rows, s0 := s0, slots := slots
      passLog2 := c.act d F.MAP_GEOM_pass_log2, sxLog2 := c.act d F.MAP_GEOM_sx_log2, syLog2 := c.act d F.MAP_GEOM_sy_log2
      window := c.act d F.MAP_WINDOW_window_ns, tol := c.act d F.MAP_COMP_tol, compEn := c.act d F.MAP_COMP_comp_en == 1
      lead := c.act d F.GRIST_LEAD_deadline_lead, bank := bank
      tables := (c.die d).tableCopy true, units := (c.die d).activeUnits, herdEnable := c.cfg.herdEnable
      failedLanes := failed, exposing := true, closed := 0, openBeams := 0, disabledAt := [], failedAt := [] }
  { v with closed := v.closedCount d, openBeams := v.openCount }

/-! ### Unit states (R33, R34) -/

/-- The state of a unit from its children's (R33): effective enable, whether every child is failed or disabled, and
whether any is degraded, failed or disabled or any beam is defective. The codes are those of SYS_UNIT. -/
def unitState (on allDown gated anyBad : Bool) : Nat :=
  if !on then 5 else if allDown then 4 else if gated then 3 else if anyBad then 2 else 1

/-- What the unit words of a die are computed from: active enables, and defects of the view most recently bound. -/
structure UnitView where
  units : List (Nat × Word)
  herdEnable : Bool
  gated : Bool
  defects : List (Nat × Nat)
  deriving DecidableEq, Repr

/-- The unit view of a die now. -/
def Chip.unitView (c : Chip) (d : DieId) : UnitView :=
  { units := (c.die d).activeUnits, herdEnable := c.cfg.herdEnable, gated := !(c.die d).ilk.gateOpen
    defects := (((c.die d).view.map fun v => v.defectCells d).getD []) }

/-- Defective beams of a cell. -/
def UnitView.count (u : UnitView) (i : Nat) : Nat := smGet 0 i u.defects

/-- State of a cell. -/
def UnitView.cell (u : UnitView) (i : Nat) : Nat :=
  unitState (cellOn u.units u.herdEnable i) (u.count i == 64) u.gated (0 < u.count i)

/-- State of a parent whose children's states are listed. -/
def UnitView.parent (u : UnitView) (on : Bool) (children : List Nat) (defects : Nat) : Nat :=
  unitState on (children.all fun s => s == 4 || s == 5) u.gated
    (0 < defects || children.any fun s => s == 2 || s == 4 || s == 5)

/-- Defective beams of a field. -/
def UnitView.fieldCount (u : UnitView) (f : Nat) : Nat := ((cellsOfField f).map u.count).sum

/-- State of a field. -/
def UnitView.field (u : UnitView) (f : Nat) : Nat :=
  u.parent (topOn u.units u.herdEnable && unitOn u.units (fieldUnit f)) ((cellsOfField f).map u.cell) (u.fieldCount f)

/-- Defective beams of the die. -/
def UnitView.total (u : UnitView) : Nat := (u.defects.map (·.2)).sum

/-- State of the half. -/
def UnitView.half (u : UnitView) : Nat :=
  u.parent (topOn u.units u.herdEnable) ((List.range 32).map u.field) u.total

/-- State of the module word of a die: its children are the halves of the populated dies. -/
def Chip.moduleState (c : Chip) (d : DieId) : Nat :=
  let u := c.unitView d
  u.parent (unitOn u.units moduleUnit && unitOn u.units herdUnit && u.herdEnable)
    (c.dies.map fun x => (c.unitView x).half) ((c.dies.map fun x => (c.unitView x).total).sum)

/-- Units of a die whose state is failed: cells, fields, and the half, module and herd words. The buck's herd word has children
of its own (`Chip.judgeHerdWord`). -/
def Chip.failedUnits (c : Chip) (d : DieId) : List Nat × List Nat × List Nat :=
  let u := c.unitView d
  let m := c.moduleState d == 4
  ((u.defects.map (·.1)).filter (u.cell · == 4), (List.range 32).filter (u.field · == 4),
   (if u.half == 4 then [0] else []) ++ (if m then (if c.herd.role == .buck then [1] else [1, 2]) else []))

/-- After a change of views or enables: a unit whose state becomes 4 gets its fault bit (SYS_UNIT bit 31). -/
def Chip.noteFaults (before after : Chip) : Chip :=
  after.forEach after.dies fun c d =>
    let a := before.failedUnits d
    let b := c.failedUnits d
    c.onDie d (·.failUnits (cellBits (b.1.filter fun i => !a.1.contains i))
      (BitVec.ofNat 32 (bitmapOf (b.2.1.filter fun i => !a.2.1.contains i)))
      (BitVec.ofNat 3 (bitmapOf (b.2.2.filter fun i => !a.2.2.contains i))))

/-- Any bit of a cell map among the cells of a field. -/
def anyCell (m : BitVec 2048) (f : Nat) : Bool := (cellsOfField f).any fun i => m.getLsbD i

/-- The live word of a unit (R31, R33, R34): the enable bit of the chosen copy is stored, so it is not part of this. -/
def Chip.unitWord (c : Chip) (d : DieId) (off : Nat) : Nat :=
  let u := c.unitView d
  let x := c.die d
  let make (state count : Nat) (pend fault : Bool) : Nat :=
    state * 2 + count % 2 ^ 22 * 256 + b2n pend * 2 ^ 30 + b2n fault * 2 ^ 31
  let dieAny (x : Die) : Bool × Bool :=
    (x.cellPend != 0 || x.fieldPend != 0 || x.topPend.getLsbD 0, x.cellFault != 0 || x.fieldFault != 0 || x.topFault.getLsbD 0)
  if off < 0x006000 then
    let i := (off - 0x004000) / 4
    make (u.cell i) (u.count i) (x.cellPend.getLsbD i) (x.cellFault.getLsbD i)
  else if off < halfUnit then
    let f := (off - 0x006000) / 4
    make (u.field f) (u.fieldCount f) (x.fieldPend.getLsbD f || anyCell x.cellPend f)
      (x.fieldFault.getLsbD f || anyCell x.cellFault f)
  else if off = halfUnit then make u.half u.total (dieAny x).1 (dieAny x).2
  else
    let i := if off = moduleUnit then 1 else 2
    let pend := (c.dies.any fun y => (dieAny (c.die y)).1) || x.topPend.getLsbD 1 || (i == 2 && x.topPend.getLsbD 2)
    let fault := (c.dies.any fun y => (dieAny (c.die y)).2) || x.topFault.getLsbD 1 || (i == 2 && x.topFault.getLsbD 2)
    make (c.moduleState d) ((c.dies.map fun y => (c.unitView y).total).sum) pend fault

/-! ### The map check (R138) -/

/-- The first step of a walk that breaks R129 in a copy. Of two steps that hold one pair it is the later; which of them is
fail_index, the spec does not say (R138; DESIGN CHOICE, log entry 66). -/
def Geo.badStep (g : Geo) : Option Nat :=
  (List.range g.L).find? fun s =>
    let w := g.walk s
    g.Sx ≤ w.1 || g.Sy ≤ w.2 || (List.range s).any fun r => g.walk r == w

/-- The lowest of a list of indices. -/
def lowest (l : List Nat) : Option Nat := l.foldl (fun m i => some (match m with | none => i | some j => min i j)) none

/-- Remap entries with a reserved bit set or a wrong die bit (R136). -/
def badRemap (d : DieId) (copy : List (Nat × Word)) : List Nat :=
  (remapped copy).filter fun b =>
    let w := tblIn d copy (0x800000 + 4 * b)
    bits w 23 18 != 0 || bits w 31 25 != 0 || bits w 17 17 != dieNo d

/-- The higher beam of each pair of remap entries that name one p (R136); a beam not listed maps to itself. -/
def dupRemap (d : DieId) (copy : List (Nat × Word)) : List Nat :=
  let m := remapped copy
  m.flatMap fun b =>
    let p := physOf d copy b
    (if p ≠ b && !m.contains p then [max b p] else []) ++
      ((m.filter fun b' => b' < b && physOf d copy b' == p).map fun _ => b)

/-- SLOT_RATE_LIMIT that the map check uses: a herd member takes the buck's shadow value from its STATUS (R138). -/
def Chip.checkLimit (c : Chip) : Nat :=
  let own := c.fld .w F.SLOT_RATE_LIMIT_limit_khz
  if c.herd.role == .member then
    match (c.herd.peers.find? (·.id == c.herd.buckId)).bind (·.status) with
    | some s => s.rateLimit
    | none => own
  else own

/-- The failure of the map check over the shadow copies, by the lowest kind and then the lowest index. -/
def Chip.mapFailure (c : Chip) (d : DieId) : Option (Nat × Nat) :=
  let g := c.shadowGeo d
  let copy := g.tables
  let W := c.fld d F.MAP_WINDOW_window_ns
  let limit := c.checkLimit
  let ds := defectsIn copy
  let dosed := (copy.filter fun p => 0x900000 ≤ p.1 && p.1 < 0x902000 && p.1 % 8 == 4 && p.2 != 0).map fun p => (p.1 - 0x900000) / 8
  let bad7 := (ds.filter fun x => x.kind == 3).map (·.index) ++
    dosed.filter fun i => bits (tblIn .w copy (0x900000 + 8 * i)) 29 28 != 2
  let bad8 := ds.flatMap fun x => (ds.filter fun y => y.index < x.index && y.beam == x.beam).map fun _ => x.index
  if 4 < g.pLog2 || 4 < g.sxLog2 || 4 < g.syLog2 then some (1, 0)
  else match g.badStep with
  | some s => some (2, s)
  | none =>
    if W < 40 || 240 < W then some (3, 0)
    else if 1000000 < (W + 17) * limit then some (4, 0)
    else match lowest (badRemap d copy) with
    | some b => some (5, b)
    | none =>
      match lowest (dupRemap d copy) with
      | some b => some (6, b)
      | none =>
        match lowest bad7 with
        | some i => some (7, i)
        | none => (lowest bad8).map fun i => (8, i)

/-- A write to something the map check reads restarts it (R138). -/
def Chip.restartMapCheck (c : Chip) (d : DieId) : Chip :=
  c.onDie d fun x => { x with mapCheck := { x.mapCheck with busy := true } }

/-! ### Meanings -/

/-- MAP_CHECK_COMPLETE (R138). -/
def execMapCheckComplete (d : DieId) (s : State) : Res :=
  s.nextChip fun c =>
    if !c.hasDie d || !(c.die d).mapCheck.busy then c
    else match c.mapFailure d with
    | none => c.onDie d fun x => { x with mapCheck := .passed0 }
    | some (k, i) => (c.onDie d fun x => { x with mapCheck := ⟨false, false, k, i⟩ }).raise d 74

end Sys2Proof.Machine
end

