-- ==== Sys2Proof/Machine/Cask.lean ====
section
/-! DEFINITION. The Cask stripe cache (chapter 5, R148 to R165). -/

namespace Sys2Proof.Machine

/-! ### Rows (R149, R154) -/

/-- A row's Tun slot becomes free (R116): a store whose compressor has not taken the row fails (R154). -/
def Chip.tunRowFreed (c : Chip) (d : DieId) (id y : Nat) : Chip :=
  let c1 := match c.stripe? d id with
    | some t =>
      match t.store with
      | some n =>
        let c2 := c.caskTake d
        if ((c2.die d).cask.entry n).taken ≤ y then c2.storeFail d n 0x5 (y / 16) else c2
      | none => c
    | none => c
  c1.onStripe d id (·.onRow y fun r => { r with gray := none })

/-! ### Records (R151) -/

/-- Bytes of a record (R151): head, stream, and zeros to a multiple of 64. -/
def recordBytes (compLen : Nat) : Nat := (16 + compLen + 63) / 64 * 64

/-- The 16-byte head of a chunk record (R151). -/
def chunkHead (i rows holeMask compLen origCrc : Nat) : List Nat :=
  let b := leBytes 4 (i + 2 ^ 28 * (rows - 1)) ++ leBytes 4 (holeMask + 65536 * compLen) ++ leBytes 4 origCrc ++ [0, 0]
  b ++ leBytes 2 (crc16 b)

/-- Fields of a head (R151). -/
def headIndex (h : List Nat) : Nat := leAt h 0 4 % 2 ^ 28
def headRows (h : List Nat) : Nat := leAt h 0 4 / 2 ^ 28 + 1
def headHoles (h : List Nat) : Nat := leAt h 4 2
def headLen (h : List Nat) : Nat := leAt h 6 2
def headOrigCrc (h : List Nat) : Nat := leAt h 8 4
def headCrcOk (h : List Nat) : Bool := leAt h 14 2 == crc16 (h.take 14)

/-- Data rows of a chunk, by its head. -/
def headData (h : List Nat) : Nat := headRows h - popcount 16 (headHoles h)

/-- Bytes as they are read back, where they differ from what was written: an offset and the bits that differ. -/
def flipBytes (flips : List (Nat × Nat)) (off : Nat) (b : List Nat) : List Nat :=
  b.zipIdx.map fun x => flips.foldl (fun v f => if f.1 == off + x.2 then v ^^^ (f.2 % 256) else v) x.1

/-- A record as it is read back. -/
def Chunk.flipped (ch : Chunk) (flips : List (Nat × Nat)) : Chunk :=
  ⟨flipBytes flips 0 ch.head, flipBytes flips 16 ch.stream⟩

/-- The original of a record, for rows of `rowBytes` bytes, if the record passes its checks (R153, R161): head_crc and
chunk_index, the decode of its stream, and the CRC-32C of the original. -/
def Chunk.original (ch : Chunk) (i rowBytes : Nat) : Option (List Nat) :=
  let h := ch.head
  if !headCrcOk h || headIndex h ≠ i then none
  else if headData h = 0 then (if headLen h = 0 && headOrigCrc h = crc32c [] then some [] else none)
  else match mashDecode (ch.stream.take (headLen h)) (headData h * rowBytes) with
  | .error _ => none
  | .ok l => if crc32c l == headOrigCrc h then some l else none

/-- Lines of a record. -/
def Chunk.lines (ch : Chunk) : Nat := recordBytes ch.stream.length / 64

/-! ### Committing a chunk (R153 to R156) -/

/-- Granules that hold `bytes` of records, 4,032 in each (R156). -/
def granulesFor (bytes : Nat) : Nat := (bytes + 4031) / 4032

/-- Granules free at the start of this clock (R156). -/
def Chip.granulesAtStart (c : Chip) (d : DieId) : Nat :=
  let k := (c.die d).cask
  k.freeGranules - (if k.freedAt = c.now then k.freed else 0)

/-- The packed originals of staged data rows, in row order (R150). -/
def chunkOriginal (n : Nat) (rows : List (Option (List Nat))) : List Nat :=
  rows.flatMap fun r => match r with
    | none => []
    | some g => packRow n g

/-- Hole mask of a chunk's rows (R151). -/
def holeMaskOf (rows : List (Option (List Nat))) : Nat := ofBitList (rows.map (·.isNone))

/-- The rows of an entry's next chunk, as they are staged. -/
def CaskEntry.nextRows (e : CaskEntry) : List (Option (List Nat)) := e.staged.take 16

/-- The record that the compressor makes of rows: no stream where no row has data (R151). -/
def chunkOf (i rowBytes : Nat) (rows : List (Option (List Nat))) (stream : List Nat) : Chunk :=
  let data := rows.any (·.isSome)
  let s := if data then stream else []
  ⟨chunkHead i rows.length (holeMaskOf rows) s.length (if data then crc32c (chunkOriginal rowBytes rows) else 0), s⟩

/-- The oldest store with a whole chunk staged. -/
def Chip.chunkReady (c : Chip) (d : DieId) : Option Nat :=
  let k := (c.die d).cask
  k.storing.find? fun n =>
    let e := k.entry n
    e.chunks.length * 16 < e.rows && min 16 (e.rows - e.chunks.length * 16) ≤ e.staged.length

/-- The next chunk of a store is written (R153), in granules of its own or new ones (R154, R156), through the Cask write
client (R48). -/
def Chip.writeChunk (c : Chip) (d : DieId) (n : Nat) (stream : List Nat) : Chip :=
  let e := (c.die d).cask.entry n
  let i := e.chunks.length
  let ch := chunkOf i (caskRowBytes c d e.sxLog2) e.nextRows stream
  let want := granulesFor (64 * (e.units + ch.lines)) - e.granules
  if c.granulesAtStart d < want then c.storeFail d n 0x4 i
  else
    (c.onCask d fun k => { k.onEntry n fun e => { e with granules := e.granules + want } with
      freeGranules := k.freeGranules - want, writing := some ⟨n, ch, false⟩ }).askLines d 5 ch.lines

/-- A chunk that passed its checks is committed (R153); with the stripe's last one the entry is ready, unless the host has
freed it in this clock (R163). -/
def Chip.commitChunk (c : Chip) (d : DieId) (n : Nat) (ch : Chunk) : Chip :=
  let e := (c.die d).cask.entry n
  if e.rows ≤ (e.chunks.length + 1) * 16 then
    let after : EntryState := if (c.die d).cask.asked.contains n then .ending else .ready
    (c.onCask d fun k => { k.onEntry n fun e => { e with
        chunks := e.chunks ++ [ch], units := e.units + ch.lines, staged := [], state := after, askedAt := c.now } with
      storing := k.storing.filter (· != n) }).onGrist d fun g => { g with
        stripes := g.stripes.map fun t => if t.store == some n then { t with store := none } else t }
  else
    c.onCask d (·.onEntry n fun e => { e with
      chunks := e.chunks ++ [ch], units := e.units + ch.lines, staged := e.staged.drop 16 })

/-- The record read back is checked against the staged original, and committed, or the store fails (R153). -/
def Chip.verifyChunk (c : Chip) (d : DieId) (w : CaskWrite) (read : MemRead) (flips : List (Nat × Nat)) : Chip :=
  let e := (c.die d).cask.entry w.entry
  let i := e.chunks.length
  let n := caskRowBytes c d e.sxLog2
  let c1 := c.onCask d fun k => { k with writing := none }
  let mismatch (reason : Nat) : Chip := (c1.bump d F.CASK_VERIFY_MISMATCH_COUNT_count).storeFail d w.entry reason i
  if read != .clean then (mismatch 0x7).dramReadError d read 4
  else if (w.chunk.flipped flips).original i n == some (chunkOriginal n e.nextRows) then c1.commitChunk d w.entry w.chunk
  else mismatch 0x6

/-- A record goes on: once written it is read back through the Cask read client, and once read it is judged (R153). -/
def Chip.goOnWriting (c : Chip) (d : DieId) (read : MemRead) (flips : List (Nat × Nat)) : Chip :=
  match (c.die d).cask.writing with
  | none => c
  | some w =>
    if (c.die d).dram.waiting 5 ≠ 0 then c
    else
      let c1 := if w.reading then c
        else (c.onCask d fun k => { k with writing := some { w with reading := true } }).askLines d 4 w.chunk.lines
      if (c1.die d).dram.waiting 4 ≠ 0 then c1 else c1.verifyChunk d w read flips

/-! ### Playing (R157 to R161) -/

/-- A stripe plays an entry and is bound to it. -/
def Stripe.playsEntry (t : Stripe) (n : Nat) : Bool :=
  match t.play with
  | some p => p.bound && p.entry == n
  | none => false

/-- A played stripe bound to the entry is held. -/
def Chip.entryPlayed (c : Chip) (d : DieId) (n : Nat) : Bool := (c.stripes d).any (·.playsEntry n)

/-- The state code of an entry in the directory (R165). -/
def Chip.entryStateCode (c : Chip) (d : DieId) (n : Nat) : Nat :=
  match ((c.die d).cask.entry n).state with
  | .free => 0
  | .storing => 1
  | .ready => if c.entryPlayed d n then 3 else 2
  | .freeing => 4
  | .ending => 2

/-- The eight words of a directory entry (R165), with the rows that the compressor takes now (R150). -/
def Chip.entryWords (c : Chip) (d : DieId) (n : Nat) : List Word :=
  let e := ((c.caskTake d).die d).cask.entry n
  [word (c.entryStateCode d n + 8 * e.effort + 64 * e.sxLog2 + 512 * b2n (e.holeRows != 0) + 1024 * min 255 e.plays),
   word e.job, word e.stripe, word e.rows, word e.granules, word e.units, word e.meas, word e.holeRows]

/-- The entry takes a new play in this clock: ready or playing at its start, and the Cask enabled (R158, R163). -/
def Chip.entryPlayable (c : Chip) (d : DieId) (n : Nat) : Bool :=
  let x := c.startDie d
  x.fld F.CASK_CTRL_enable == 1 && (x.cask.entry n).state == .ready && ((c.die d).cask.entry n).state != .free

/-- A play that fails at its binding (R158). -/
def Chip.playRefused (c : Chip) (d : DieId) (t : Stripe) (p : Play) (reason : Nat) : Chip :=
  ((c.onStripe d t.id fun t => { t.markRest 0x14 with play := some { p with failed := true } }).caskFail d
    F.CASK_PLAY_ERR_COUNT_count 77 reason p.entry 0 t.id t.job).dropFinished d

/-- A played stripe binds to its entry, or is refused (R118, R158, R300). -/
def Chip.playBinds (c : Chip) (d : DieId) (t : Stripe) (p : Play) (dir : MemRead) : Chip :=
  let e := (c.die d).cask.entry p.entry
  let c1 := c.onCask d fun k => { k with playEntry := p.entry }
  let dir : MemRead := if (c.die d).cask.badDir.contains p.entry then .poison else dir
  if dir != .clean then
    ((c1.onCask d (·.spoil p.entry)).playRefused d t p 0xA).sramReadError d dir 7
  else if !c.entryPlayable d p.entry then c1.playRefused d t p 0xA
  else if e.sxLog2 ≠ c.act d F.MAP_GEOM_sx_log2 || e.rows ≠ t.count then c1.playRefused d t p 0xB
  else
    (c1.onStripe d t.id fun t => { t with
      binding := some (c.bindingNow d (some e.sxLog2)), play := some { p with bound := true } }).onCask d fun k =>
        k.onEntry p.entry fun e => { e with
          plays := satAdd 255 e.plays 1, state := if e.state == .ending then .freeing else e.state }

/-- A row of a played stripe is filled: stored content, or untrusted for a hole (R160). -/
def Chip.fillRow (c : Chip) (d : DieId) (id y : Nat) (g : Option (List Nat)) : Chip :=
  match g, c.stripe? d id with
  | _, none => c
  | none, some _ => c.onStripe d id (·.markPlain y y 0x14)
  | some l, some t => if t.untrusted y || t.count ≤ y then c else c.fillTun d t y l []

/-- The rows of a chunk, each with its content or as a hole, from its decoded original. -/
def chunkRows (rowBytes holeMask : Nat) : Nat → Nat → List Nat → List (Option (List Nat))
  | 0, _, _ => []
  | rows + 1, j, orig =>
    if nbit holeMask j then none :: chunkRows rowBytes holeMask rows (j + 1) orig
    else some (unpackRow (orig.take rowBytes)) :: chunkRows rowBytes holeMask rows (j + 1) (orig.drop rowBytes)

/-- A chunk has been read for a play (R160, R161). -/
def Chip.readChunk (c : Chip) (d : DieId) (t : Stripe) (p : Play) (i : Nat) (ch : Chunk) (read : MemRead) : Chip :=
  let n := caskRowBytes c d ((c.die d).cask.entry p.entry).sxLog2
  let lo := 16 * i
  let done := c.onStripe d t.id fun t => { t with play := some { p with chunks := p.chunks ++ [i] } }
  let fail (cause : Nat) (r : MemRead) : Chip :=
    (((done.onStripe d t.id (·.markPlain lo (lo + 15) cause)).caskFail d F.CASK_READ_ERR_COUNT_count 78 0xD
      p.entry i t.id t.job).dramReadError d r 4).dropFinished d
  match read with
  | .ue => fail 0x06 .ue
  | .poison => fail 0x04 .poison
  | .clean =>
    match ch.original i n with
    | none => fail 0x14 .clean
    | some l =>
      let rows := chunkRows n (headHoles ch.head) (headRows ch.head) 0 l
      (done.forEach (rows.zipIdx.map fun r => (lo + r.2, r.1)) fun c r => c.fillRow d t.id r.1 r.2).dropFinished d

/-- The lines of a chunk that was being read leave the Tun-fill buffer, or are no longer asked for (R284). -/
def Chip.endFetching (c : Chip) (d : DieId) : Chip :=
  match (c.die d).cask.fetching with
  | none => c
  | some x =>
    let left := (c.die d).dram.playWaits
    ((c.onCask d fun k => { k with fetching := none }).onDram d fun y =>
      { y with playLeft := 0, owed := smErase playKey y.owed }).consume d (x.2.2 - left)

/-- A chunk is asked for through the Cask read client (R48, R160); one asked for earlier for another play is given up. -/
def Chip.fetchChunk (c : Chip) (d : DieId) (stripe i : Nat) (ch : Chunk) : Chip :=
  if (c.die d).cask.fetching == some (stripe, i, ch.lines) then c
  else ((c.endFetching d).onCask d fun k => { k with fetching := some (stripe, i, ch.lines) }).beginPlayFetch d ch.lines

/-! ### Freeing, enable and disable (R162) -/

/-- The host frees an entry (R162). A store fails at the end of the clock, so that a commit of its last chunk in the same
clock comes first (R163). -/
def Chip.freeByHost (c : Chip) (d : DieId) (n : Nat) : Chip :=
  match ((c.die d).cask.entry n).state with
  | .free | .freeing | .ending => c
  | .storing => c.onCask d fun k => { k with asked := k.asked ++ [n] }
  | .ready =>
    let after : EntryState := if c.entryPlayed d n then .freeing else .ending
    c.onCask d (·.onEntry n fun e => { e with state := after, askedAt := c.now })

/-- Free all (R162). -/
def Chip.freeAllByHost (c : Chip) (d : DieId) : Chip :=
  c.forEach ((c.die d).cask.entries.map (·.1)) fun c n => c.freeByHost d n

/-- Write of CASK_CMD. -/
def Chip.writeCaskCmd (c : Chip) (d : DieId) (v : Word) : Chip :=
  match bits v 9 8 with
  | 1 => c.freeByHost d (bits v 5 0)
  | 2 => c.freeAllByHost d
  | _ => c

/-- The Cask area may be used (CASK_CTRL.enable). -/
def Chip.caskAreaOk (c : Chip) (d : DieId) : Bool :=
  let b := c.fld d F.CASK_BASE_base_64k
  let n := c.fld d F.CASK_SIZE_size_64k
  let rb := c.fld d F.GRIST_RX_BASE_base_64k
  let rn := c.fld d F.GRIST_RX_SIZE_size_64k
  n ≠ 0 && b + n ≤ 524160 && (b + n ≤ rb || rb + rn ≤ b)

/-- Write of CASK_CTRL. -/
def Chip.writeCaskCtrl (c : Chip) (d : DieId) (v : Word) : Chip :=
  let c1 := c.put d F.CASK_CTRL_effort (bits v 3 1)
  if bit v 0 then
    if c.flag d F.CASK_CTRL_enable then c1
    else if c.caskAreaOk d then
      ((c1.put d F.CASK_CTRL_enable 1).openArea d (c.fld d F.CASK_BASE_base_64k) (c.fld d F.CASK_SIZE_size_64k)).onCask d
        fun k => { k with freeGranules := caskGranules (c.fld d F.CASK_SIZE_size_64k) }
    else c1.raise d 79
  else
    let c2 := c1.put d F.CASK_CTRL_enable 0
    (c2.forEach ((c.die d).cask.entries.map (·.1)) fun c n => c.storeFail d n 0x1 0).freeAllByHost d

/-- The end of a clock: stores that the host has freed in it fail, unless their last chunk was committed (R162, R163). -/
def Chip.caskEnd (c : Chip) (d : DieId) : Chip :=
  let k := (c.die d).cask
  if k.asked.isEmpty then c
  else (c.forEach k.asked fun c n =>
    if ((c.die d).cask.entry n).state == .storing then c.storeFail d n 0x8 0 else c).onCask d fun k => { k with asked := [] }

/-- Ready entries that the host freed in the clock before become free (R162). -/
def Chip.caskTick (c : Chip) (d : DieId) : Chip :=
  c.forEach (((c.die d).cask.entries.filter fun p => p.2.state == .ending && p.2.askedAt < c.now).map (·.1)) fun c n =>
    c.freeCaskEntry d n

/-- CASK_BASE and CASK_SIZE while the Cask is enabled: ignored, and the configuration event is raised. -/
def Chip.writeCaskArea (c : Chip) (d : DieId) (f : Fld) (v : Word) : Chip :=
  if c.flag d F.CASK_CTRL_enable then c.raise d 79 else c.put d f (bits v 18 0)

/-- Write of CASK_PLAY_n (R157): an arming counts from the next clock on. -/
def Chip.writeCaskPlay (c : Chip) (d : DieId) (n : Nat) (v : Word) : Chip :=
  let c1 := c.onDie d (·.setReg (0x070020 + 4 * n) (v &&& 0xBFFFFFFF))
  if bit v 31 then c1.onCask d fun k => { k with armedAt := smInsert n c.now k.armedAt } else c1

/-- Read of word `i` of directory entry `n` (R165). -/
def Chip.readDirectory (c : Chip) (d : DieId) (n i : Nat) : Word × Chip :=
  let r := captureRead (c.die d).cask.capture n i (c.entryWords d n)
  (r.1, c.onCask d fun k => { k with capture := r.2 })

/-- CASK_STATUS. -/
def Chip.caskStatus (c : Chip) (d : DieId) : Nat :=
  let k := (c.die d).cask
  b2n (!k.storing.isEmpty) + 2 * b2n ((c.stripes d).any (·.play.isSome)) + 4 * k.storeEntry + 256 * k.playEntry +
    2 ^ 14 * k.entries.length

/-! ### Meanings -/

/-- CASK_CHUNK_COMMIT (R150 to R156): `stream` is what the compressor makes of the chunk that is staged; `read` and
`flips` say how the record reads back. -/
def execCaskChunkCommit (d : DieId) (stream : List Nat) (read : MemRead) (flips : List (Nat × Nat)) (s : State) : Res :=
  s.nextChip fun c0 =>
    let c := c0.caskTake d
    if (c.die d).cask.writing.isSome then c.goOnWriting d read flips
    else match c.chunkReady d with
    | none => c
    | some n => if stream.length < 65536 then (c.writeChunk d n stream).goOnWriting d read flips else c

/-- CASK_PLAY_BIND (R117, R158): the stripes before it have filled the Tun, and no swap is armed. Whether its first row must be
closed by then, as the Kiln's work on a row must (R115), the spec does not say: R160 asks it of the release alone, and the
binding does not (DESIGN CHOICE, log entry 76). -/
def execCaskPlayBind (d : DieId) (stripe : Nat) (dir : MemRead) (s : State) : Res :=
  s.nextChip fun c =>
    match c.stripe? d stripe with
    | none => c
    | some t =>
      match t.play with
      | none => c
      | some p =>
        if !p.bound && !p.failed && !c.swapArmed && c.tunFree d (c.act d F.MAP_GEOM_sx_log2) &&
          ((c.stripes d).takeWhile (·.id != stripe)).all fun o => o.rowsDone 0 (o.count - 1)
        then c.playBinds d t p dir else c

/-- CASK_CHUNK_READ (R160, R161): the next chunk of a bound play, in row order, once the Tun has room for its data rows. It
is judged when all its lines have been read. -/
def execCaskChunkRead (d : DieId) (stripe chunk : Nat) (read : MemRead) (flips : List (Nat × Nat)) (s : State) : Res :=
  s.nextChip fun c =>
    match c.stripe? d stripe with
    | none => c
    | some t =>
      match t.play with
      | none => c
      | some p =>
        match ((c.die d).cask.entry p.entry).chunks[chunk]? with
        | none => c
        | some ch =>
          if p.bound && p.chunks.length == chunk && c.tunFreeFor d (c.sxOf d t) (headData ch.head) then
            let c1 := c.fetchChunk d stripe chunk ch
            if (c1.die d).dram.playWaits ≠ 0 then c1
            else (c1.readChunk d t p chunk (ch.flipped flips) read).endFetching d
          else c

/-- CASK_FREE_ENTRY (R162). -/
def execCaskFreeEntry (_m : Master) (d : DieId) (entry : Nat) (s : State) : Res :=
  s.nextBus fun c => if c.hasDie d && entry < 64 then c.writeCaskCmd d (word (256 + entry)) else c

/-- CASK_FREE_ALL (R162). -/
def execCaskFreeAll (_m : Master) (d : DieId) (s : State) : Res :=
  s.nextBus fun c => if c.hasDie d then c.writeCaskCmd d 512 else c

/-- CASK_ENABLE (R162). -/
def execCaskEnable (_m : Master) (d : DieId) (effort : Nat) (s : State) : Res :=
  s.nextBus fun c => if c.hasDie d then c.writeCaskCtrl d (word (1 + 2 * (effort % 8))) else c

/-- CASK_DISABLE (R154, R162). -/
def execCaskDisable (_m : Master) (d : DieId) (effort : Nat) (s : State) : Res :=
  s.nextBus fun c => if c.hasDie d then c.writeCaskCtrl d (word (2 * (effort % 8))) else c

/-- CASK_ENTRY_FREED (R162): an entry in state freeing is freed once no played stripe bound to it is held. -/
def execCaskEntryFreed (d : DieId) (entry : Nat) (s : State) : Res :=
  s.nextChip fun c =>
    let e := (c.die d).cask.entry entry
    if e.state == .freeing && !c.entryPlayed d entry then c.freeCaskEntry d entry else c

/-- CASK_DIRECTORY_CAPTURE_READ (R165). -/
def execCaskDirectoryCaptureRead (m : Master) (d : DieId) (idx : Nat) (s : State) : Res :=
  s.nextBus fun c =>
    if c.hasDie d && idx < 64 then
      let r := c.readDirectory d idx 0
      r.2.emit (.readData m r.1)
    else c

end Sys2Proof.Machine
end

