-- ==== Sys2Proof/Machine/Lanes.lean ====
section
/-! DEFINITION. The lane map and the parameter banks of a die's blanker lanes (R219 to R235), and the receivers' state
(R224, R245). -/

namespace Sys2Proof.Machine

/-! ### Lanes and receivers -/

/-- Change a die's blanker lanes. -/
def Chip.onBlnk (c : Chip) (d : DieId) (f : Blnk → Blnk) : Chip := c.onDie d fun x => { x with blnk := f x.blnk }

/-- Change a die's Grist lanes. -/
def Chip.onGr (c : Chip) (d : DieId) (f : GrLanes → GrLanes) : Chip := c.onDie d fun x => { x with gr := f x.gr }

/-- Spare group of a local lane (R220). -/
def groupOf (l : Nat) : Nat := l / 17

/-- A local lane is its group's spare. -/
def isSpare (l : Nat) : Bool := l % 17 == 16

/-- The logical lane whose home a local lane is. -/
def homeOf (l : Nat) : Nat := 16 * (l / 17) + l % 17

/-- Where a logical lane is carried. -/
def Blnk.place (x : Blnk) (lam : Nat) : LaneMap := smGet ⟨homeLane lam, .home, 0⟩ lam x.map

/-- Move a logical lane, or change its state. -/
def Blnk.setPlace (x : Blnk) (lam : Nat) (p : LaneMap) : Blnk :=
  { x with map := smSet ⟨homeLane lam, .home, 0⟩ lam p x.map }

/-- The logical lane that a local lane carries as primary, if any. -/
def Blnk.carried (x : Blnk) (l : Nat) : Option Nat :=
  ((List.range 16).map (16 * groupOf l + ·)).find? fun lam =>
    (x.place lam).lane == l && (x.place lam).state != .failed

/-- The handover of a spare group. -/
def Blnk.hoOf (x : Blnk) (q : Nat) : Option Handover := x.hos.find? fun h => groupOf h.fromLane == q

/-- Change the handover of a spare group. -/
def Blnk.onHo (x : Blnk) (q : Nat) (f : Handover → Handover) : Blnk :=
  { x with hos := x.hos.map fun h => if groupOf h.fromLane == q then f h else h }

/-- Drop the handover of a spare group. -/
def Blnk.dropHo (x : Blnk) (q : Nat) : Blnk := { x with hos := x.hos.filter fun h => groupOf h.fromLane != q }

/-- A training sequence of a local lane runs. -/
def Blnk.trains (x : Blnk) (l : Nat) : Bool := x.training.any (·.lane == l)

/-- The spare of a group is free (R240). -/
def Blnk.spareFree (x : Blnk) (q : Nat) : Bool :=
  let b := spareLane q
  !(x.phy b).failed && !x.trains b && (x.carried b).isNone && (x.hoOf q).isNone

/-- Logical lanes failed with no spare (R139). -/
def Blnk.failedLanes (x : Blnk) : List Nat := (x.map.filter fun p => p.2.state == .failed).map (·.1)

/-- A local lane carries frames: as primary, or in a handover. -/
def Blnk.busyLane (x : Blnk) (l : Nat) : Bool :=
  (x.carried l).isSome || x.hos.any fun h => h.toLane == l || h.fromLane == l

/-- The lanes have been brought up: boot has come to its lanes stage (R344, R361; that this is when they wake is DEDUCED, log entry
44). -/
def Chip.lanesUp (c : Chip) : Bool :=
  match c.cfg.stage with
  | .lanes | .ready => true
  | .held | .image | .dram | .configuration | .recovery => false

/-- A BL_TX sleeps: its lane carries nothing and does not train, and BLNK_CTRL.spare_sleep is 1 (R244); before boot brings the
lanes up, one that carries lanes sleeps too (R361). -/
def Chip.blAsleep (c : Chip) (d : DieId) (l : Nat) : Bool :=
  !(c.die d).blnk.trains l &&
  (!c.lanesUp || (!(c.die d).blnk.busyLane l && c.flag d F.BLNK_CTRL_spare_sleep))

/-- The transmitters that are to be awake wake as boot brings the lanes up (R244, R361). -/
def Chip.wakeLanes (before c : Chip) : Chip :=
  if before.lanesUp || !c.lanesUp then c
  else c.forEach c.dies fun c d => c.onBlnk d fun x =>
    ((List.range 68).filter fun l => before.blAsleep d l && !c.blAsleep d l).foldl (fun x l => x.onPhy l (·.wake c.now)) x

/-- A BL_TX that sleeps wakes (R244). -/
def Chip.wakeLane (c : Chip) (d : DieId) (l : Nat) : Chip :=
  if c.blAsleep d l then c.onBlnk d (·.onPhy l (·.wake c.now)) else c

/-- State code of a blanker lane (PHY_BL_n). -/
def Chip.laneState (c : Chip) (d : DieId) (l : Nat) : Nat :=
  let x := (c.die d).blnk
  if x.trains l then 3
  else if (x.phy l).failed then 4
  else if c.blAsleep d l then 0
  else if x.hos.any fun h => h.toLane == l && h.phase == .wake then 1
  else if 0 < (x.phy l).wakes && c.now < (x.phy l).readyAt c.now then 1 else 2

/-- State and lane of a spare (BLNK_SPARE_q). -/
def Chip.spareWord (c : Chip) (d : DieId) (q : Nat) : Nat :=
  let x := (c.die d).blnk
  let b := spareLane q
  if x.trains b then 6
  else if (x.phy b).failed then 5
  else match x.hoOf q with
  | some h => 2 + 8 * h.lam
  | none =>
    match x.carried b with
    | some lam => (if (x.place lam).state == .spareTemp then 3 else 4) + 8 * lam
    | none => if c.flag d F.BLNK_CTRL_spare_sleep then 0 else 1

/-- State code of a logical lane (BLNK_MAP_n). -/
def MapState.code : MapState → Nat
  | .home => 0 | .handover => 1 | .spareTemp => 2 | .sparePerm => 3 | .inPlace => 4 | .failed => 5

/-- BLNK_MAP_n. -/
def Chip.mapWord (c : Chip) (d : DieId) (lam : Nat) : Nat :=
  let x := (c.die d).blnk
  let p := x.place lam
  let s := if x.hos.any (·.lam == lam) then 1 else p.state.code
  p.lane + 128 * s

/-! ### Frames (R225, R226) -/

/-- A frame header (R226). -/
def frameHeader (slotLow epoch type lam : Nat) (mirror : Bool) (bank : Nat) (stripe : Bool) (seg aux : Nat) : List Nat :=
  leBytes 8 (slotLow % 2 ^ 32 + epoch * 2 ^ 32 + type * 2 ^ 40 + lam * 2 ^ 44 + b2n mirror * 2 ^ 50 + bank * 2 ^ 51 +
    b2n stripe * 2 ^ 52 + seg * 2 ^ 53 + aux * 2 ^ 56)

/-- A frame leaves on a local lane at a place of its line. -/
def Chip.emitAt (c : Chip) (d : DieId) (l : Nat) (pos : LinePos) (header : List Nat) (payload : List (Nat × Nat)) : Chip :=
  c.emit (.lane d l header payload pos)

/-- A frame leaves on a local lane now. -/
def Chip.emitLane (c : Chip) (d : DieId) (l : Nat) (header : List Nat) (payload : List (Nat × Nat)) : Chip :=
  c.emitAt d l (((c.die d).blnk.phy l).linePos c.now) header payload

/-- A good message has the length of its form, a good CRC and zeros at its end (R225). -/
def frameGood (n : Nat) (bytes : List Nat) : Bool :=
  bytes.length == n && leAt bytes (n - 8) 4 == crc32 (bytes.take (n - 8)) && leAt bytes (n - 4) 4 == 0

/-- The lanes of a slot: logical lane, local lane, mirror role. A failed lane and one that trains in place send nothing (R228,
R240, R248, R250). -/
def Blnk.carriers (x : Blnk) : List (Nat × Nat × Bool) :=
  (List.range 64).flatMap fun lam =>
    let p := x.place lam
    if p.state == .failed || p.state == .inPlace then []
    else
      (lam, p.lane, false) :: (match x.hos.find? (·.lam == lam) with
        | some h =>
          match h.phase with
          | .mirror => [(lam, h.toLane, true)]
          | .switch => [(lam, h.fromLane, true)]
          | .wake | .release => []
        | none => [])

/-! ### Banks (R232 to R235) -/

/-- A bank by its number. -/
def Blnk.bank (x : Blnk) (n : Nat) : Bank := if n = 0 then x.bank0 else x.bank1

/-- Change a bank. -/
def Blnk.onBank (x : Blnk) (n : Nat) (f : Bank → Bank) : Blnk :=
  if n = 0 then { x with bank0 := f x.bank0 } else { x with bank1 := f x.bank1 }

/-- Trim and remap entries among a table copy, as a bank holds them: a prime of each beam, placed by its remap entry. -/
def bankTables (copy : List (Nat × Word)) : List (Nat × Word) :=
  ((copy.filter fun p => 0x800000 ≤ p.1 && p.1 < 0x900000).map fun p =>
    if p.1 < 0x880000 then (p.1, p.2 &&& 0x1FFFF) else (p.1, p.2 &&& 0x700)).filter fun p =>
      p.2.toNat != (if p.1 < 0x880000 then (p.1 - 0x800000) / 4 else 0)

/-- Window and tables of the active or the shadow copies. -/
def Chip.bankValues (c : Chip) (d : DieId) (active : Bool) : Nat × List (Nat × Word) :=
  ((if active then c.act d F.MAP_WINDOW_window_ns else c.fld d F.MAP_WINDOW_window_ns),
   bankTables ((c.die d).tableCopy active))

/-- A bank's content equals these values. -/
def Bank.holds (b : Bank) (v : Nat × List (Nat × Word)) : Bool := b.loaded && b.window == v.1 && b.tables == v.2

/-- Every logical lane that is not failed has confirmed the bank's load. -/
def Blnk.confirmed (x : Blnk) (n : Nat) : Bool :=
  let b := x.bank n
  b.loaded && b.nextSeg == 8 && (List.range 64).all fun lam =>
    b.confirmed.contains lam || (x.place lam).state == .failed

/-- The spare bank. -/
def Blnk.spareBank (x : Blnk) : Nat := 1 - x.named

/-- The spare bank holds the shadow values and its load is confirmed (R234). -/
def Chip.spareConfirmed (c : Chip) (d : DieId) : Bool :=
  let x := (c.die d).blnk
  (x.bank x.spareBank).holds (c.bankValues d false) && x.confirmed x.spareBank

/-- Start a load of bank `n` under a new tag (R233). -/
def Chip.loadBank (c : Chip) (d : DieId) (n : Nat) (v : Nat × List (Nat × Word)) : Chip :=
  c.onBlnk d fun x => { x.onBank n fun _ => ⟨true, x.nextTag, v.1, v.2, 0, 0, [], false⟩ with
    nextTag := (x.nextTag + 1) % 256 }

/-- The map check of a die has passed (R138). -/
def Chip.mapCheckPassed (c : Chip) (d : DieId) : Bool := (c.die d).mapCheck.passed && !(c.die d).mapCheck.busy

/-- At enable, bank 0 is loaded from the active copies and bank 1 from the shadow copies (R233). -/
def Chip.loadAtEnable (c : Chip) (d : DieId) : Chip :=
  ((c.loadBank d 0 (c.bankValues d true)).loadBank d 1 (c.bankValues d false)).onBlnk d fun x =>
    { x with named := 0, bankInUse := 0 }

/-- After a swap, the bank that holds the new active values is the one the next stripe names (R234). -/
def Chip.nameBank (c : Chip) (d : DieId) : Chip :=
  let x := (c.die d).blnk
  let v := c.bankValues d true
  if (x.bank x.named).holds v then c
  else if (x.bank (1 - x.named)).holds v then c.onBlnk d fun x => { x with named := 1 - x.named } else c

/-- The payload position and prime of every beam with a prime, in a logical lane, of a bank (R232). -/
def bankPrimes (d : DieId) (tables : List (Nat × Word)) (lam : Nat) : List (Nat × Nat) :=
  (tables.filter fun p => 0x880000 ≤ p.1).filterMap fun p =>
    let q := physOf d tables ((p.1 - 0x880000) / 4)
    if laneOfPhys q == lam then some (posOfPhys q, bits p.2 10 8) else none

end Sys2Proof.Machine
end

