-- ==== Sys2Proof/Machine/Expose.lean ====
section
/-! DEFINITION. What a slot exposes on a die: the codes of its pixels (R38, R140, R144), the rows that are blanked and
logged (R35, R36, R141, R434), and the DATA and trigger frames that carry it (R228 to R230). -/

namespace Sys2Proof.Machine

/-! ### Units, lanes and entries that blank a beam within a stripe (R142, R143, R299) -/

/-- A beam lies in a unit. -/
def unitHas (off b : Nat) : Bool :=
  if off < 0x006000 then (off - 0x004000) / 4 == cellOf b
  else if off < halfUnit then (off - 0x006000) / 4 == fieldOfCell (cellOf b)
  else true

/-- An active remap or trim entry of a beam cannot be read (R299). -/
def Die.beamBad (x : Die) (b : Nat) : Bool := x.badTables.any fun p => p.1 == 0x800000 + 4 * b || p.1 == 0x880000 + 4 * b

/-- An active cell-walk or defect entry cannot be read: the die's whole map is blanked (R299). -/
def Die.mapDead (x : Die) : Bool := x.badTables.any fun p => 0x900000 ≤ p.1

/-- The unit words of a die's pending copy, as active words. -/
def Die.pendingUnits (x : Die) : List (Nat × Word) :=
  match x.pendingCopy with
  | none => x.activeUnits
  | some p => (p.regs.filter fun q => 0x004000 ≤ q.1 && q.1 < 0x00608C).map fun q => (q.1 + 0x8000, q.2)

/-! ### Armed swaps (R142, R347) -/

/-- Reason codes of CFG_SWAP_STATUS, as bit positions of its `reasons` field. -/
def reasonMap : Nat := 0
def reasonDefl : Nat := 1
def reasonBank : Nat := 2
def reasonReady : Nat := 3
def reasonSlot : Nat := 4
def reasonHerd : Nat := 5
def reasonArmed : Nat := 6

/-- A member that is present, or was at the start of the tick (R385). -/
def Peer.presentAtStart (p : Peer) (now : Nat) : Bool := p.admitted || (p.gone && p.goneAt == now)

/-- The checks that would refuse a swap now (R347). -/
def Chip.swapChecks (c : Chip) : List Nat :=
  (if c.dies.all c.mapCheckPassed then [] else [reasonMap]) ++
  (if c.defl.check.passed && !c.defl.check.busy then [] else [reasonDefl])

/-- Reasons to refuse the armed swap at its swap point (R347). -/
def Chip.swapReasons (c : Chip) (s : Swap) : List Nat :=
  (if s.ending.isSome then s.checks else c.swapChecks) ++
  (if c.dies.all fun d => !c.flag d F.BLNK_CTRL_en || c.spareConfirmed d then [] else [reasonBank]) ++
  (if s.readyW && s.readyE && (c.herd.role != .buck || (c.herd.peers.filter (·.presentAtStart c.now)).all fun p =>
      s.members.contains p.id || (p.status.map (·.swapReady)) == some true) then [] else [reasonReady])

/-- A swap that would not be refused now takes effect at a slot. Its DATA leaves before that slot, so the units that the
pending copies disable are off in it already (R142; DESIGN CHOICE, log entry 66); what a swap that is refused after all has left
dark is logged (`Chip.reportSwapDark`). -/
def Chip.swapsAt (c : Chip) (slot : Nat) : Bool :=
  match c.cfg.swap with
  | some s => s.slot == some slot && s.ending.isNone && (c.swapReasons s).isEmpty
  | none => false

/-- A beam receives code 0 in stripe slot k for what happened within the stripe (R142, R143), or because an entry of its
cannot be read (R299). -/
def Chip.beamOff (c : Chip) (d : DieId) (v : View) (k b : Nat) : Bool :=
  v.disabledAt.any (fun u => u.2 ≤ k && unitHas u.1 b) ||
  (1 ≤ k && c.swapsAt ((v.s0 + k) % m48) && cellOn (c.die d).activeUnits c.cfg.herdEnable (cellOf b) &&
    !cellOn (c.die d).pendingUnits c.cfg.herdEnable (cellOf b)) ||
  v.failedAt.any (fun f => f.2 ≤ k && laneOfPhys (physOf d v.tables b) == f.1) || (c.die d).beamBad b

/-! ### Pixels of a slot (R24, R131, R132) -/

/-- The rows of a stripe slot: pass group, stripe row, beam row. -/
def View.rowsOf (v : View) (k : Nat) : List (Nat × Nat × Nat) :=
  (List.range v.geo.P).flatMap fun p => (v.geo.rowsAt v.rows k p).map fun r => (p, r.1, r.2)

/-- Stripe column that the die's beam column exposes in a stripe slot. -/
def View.columnOf (v : View) (d : DieId) (k cc : Nat) : Nat :=
  ((if d = .w then 0 else 256) + cc) * v.geo.Sx + (v.geo.walk (k % v.geo.L)).1

/-- Die W's eight columns nearest the seam are blanked while the link is down (R29) and in seam-unchecked rows (R434). -/
def Chip.seamBlank (c : Chip) (d : DieId) (v : View) (r : Row) (x : Nat) : Bool :=
  c.two && d == .w && 256 * v.geo.Sx ≤ x + 8 && (r.seamUnchecked || !c.evuneUp)

/-- A pixel of a trusted row is blanked all the same: seam columns, or a bad Tun word (R299). -/
def Chip.pixelBlank (c : Chip) (d : DieId) (v : View) (r : Row) (x : Nat) : Bool :=
  c.seamBlank d v r x || r.bad.any (·.1 == x / 32)

/-- Codes of one row in a stripe slot: payload place and code of every beam whose code is not 0, and the number of codes
capped at 63. -/
def Chip.rowCodes (c : Chip) (d : DieId) (v : View) (r : Row) (k beamRow : Nat) : List (Nat × Nat × Nat × Bool) :=
  if r.gray.getD [] == [] && v.openBeams = 0 then []
  else (List.range 256).filterMap fun cc =>
    let x := v.columnOf d k cc
    let q := r.level (x - rasterFirst c d v.sxLog2)
    let b := beamRow * 256 + cc
    if c.pixelBlank d v r x || v.isClosed d b || (v.openDose b).isSome || c.beamOff d v k b then none
    else
      let w := v.verdict d q (beamRow % v.geo.G) cc
      let code := v.codeOf d w.t b
      if !w.ok || code = 0 then none
      else
        let p := physOf d v.tables b
        some (laneOfPhys p, posOfPhys p, code, 63 < codeRaw w.t (gainIn d v.tables b))

/-- Codes of a stripe slot on a die. Rows not released, and untrusted rows, carry none (R35, R36). -/
def Chip.slotCodes (c : Chip) (d : DieId) (v : View) (t : Stripe) (k : Nat) : List (Nat × Nat × Nat × Bool) :=
  (v.rowsOf k).flatMap fun x =>
    let r := t.row x.2.1
    if t.untrusted x.2.1 || !r.released then [] else c.rowCodes d v r k x.2.2

/-! ### Units that a swap disables (R142) -/

/-- Beam rows and beam columns of a unit, within the die. -/
def unitExtent (off : Nat) : (Nat × Nat) × (Nat × Nat) :=
  if off < 0x006000 then
    let i := (off - 0x004000) / 4
    ((i / 32 * 8, i / 32 * 8 + 7), (i % 32 * 8, i % 32 * 8 + 7))
  else if off < halfUnit then
    let f := (off - 0x006000) / 4
    ((f / 4 * 64, f / 4 * 64 + 63), (f % 4 * 64, f % 4 * 64 + 63))
  else ((0, 511), (0, 255))

/-- The units above a unit on its die, itself not among them. -/
def unitParents (off : Nat) : List Nat :=
  let top := [halfUnit, moduleUnit, herdUnit]
  if off < 0x006000 then fieldUnit (fieldOfCell ((off - 0x004000) / 4)) :: top
  else if off < halfUnit then top
  else top.filter (off < ·)

/-- Effective enable of a unit (R32). -/
def unitEffective (units : List (Nat × Word)) (herdEnable : Bool) (off : Nat) : Bool :=
  herdEnable && unitOn units off && (unitParents off).all (unitOn units)

/-- The units whose effective enable goes from 1 to 0 when `after` becomes active, without those inside another of them: R142
does not say whether the units inside a disabled one get entries of their own, and the topmost one's is written for all
(DESIGN CHOICE, log entry 66). A herd enable that the commit takes away disables the herd unit (R377). -/
def unitsDisabled (before after : List (Nat × Word)) (herdBefore herdAfter : Bool) : List Nat :=
  if herdBefore && !herdAfter then (if unitEffective before true herdUnit then [herdUnit] else [])
  else
    let cleared := (after.filter fun p => !bit p.2 0).map fun p => p.1 - 0x8000
    cleared.filter fun off =>
      unitEffective before herdBefore off && !unitEffective after herdAfter off && !(unitParents off).any cleared.contains

/-- Beam rows of a unit that expose a stripe row in stripe slot k, with the row. -/
def View.unitRows (v : View) (off k : Nat) : List (Nat × Nat) :=
  let e := (unitExtent off).1
  ((v.rowsOf k).map fun r => (r.2.2, r.2.1)).filter fun r => e.1 ≤ r.1 && r.1 ≤ e.2

/-- The span of a unit whose beams are off in the stripe slots from `ka` to `kb`; `none` when it has no pixel to expose there. To
the stripe's last slot, it goes to the stripe's last row (R142). -/
def Chip.unitSpan (c : Chip) (d : DieId) (v : View) (off ka kb : Nat) : Option Span :=
  let ks := (List.range (kb + 1 - ka)).map (ka + ·)
  match ks.find? fun k => !(v.unitRows off k).isEmpty with
  | none => none
  | some k =>
    let rows := ks.flatMap fun k => (v.unitRows off k).map (·.2)
    let ext := unitExtent off
    let base := if d = .w then 0 else 256
    let groups := ((List.range (ext.1.2 + 1 - ext.1.1)).map fun i => (ext.1.1 + i) / v.geo.G).eraseDups
    some
      { job := v.job, stripe := v.stripe, cause := 0x08, vFirst := v.vFirst + (rows.foldl min (v.rows - 1))
        vLast := v.vFirst + (if kb + 1 = v.slots then v.rows - 1 else rows.foldl max 0)
        set := if off < 0x006000 then .cell else if off < halfUnit then .field else .all
        die := d, moduleId := c.moduleId
        setIndex := if off < 0x006000 then (off - 0x004000) / 4 else if off < halfUnit then (off - 0x006000) / 4 else 0
        setSpan := 0, uFirst := (base + ext.2.1) * v.geo.Sx, uLast := (base + ext.2.2 + 1) * v.geo.Sx - 1
        slot := (v.s0 + k) % m48, slotLast := (v.s0 + kb) % m48, passMask := bitmapOf groups }

/-! ### Rows that are not ready (R35, R36) -/

/-- Rows that stripe slot k exposes and that are neither released nor untrusted. -/
def Stripe.missing (t : Stripe) (v : View) (k : Nat) : List Nat :=
  ((v.rowsOf k).map (·.2.1)).filter fun y => !t.settled y

/-- Those rows are untrusted, with cause 0x13 (R35). -/
def Chip.markMissing (c : Chip) (d : DieId) (id : Nat) (ys : List Nat) : Chip :=
  c.onStripe d id fun t => ys.foldl (fun t y => if t.settled y then t else t.markPlain y y 0x13) t

/-- First pass group in which a row still has a slot at or after stripe slot k; P where it has none. -/
def Geo.passFrom (g : Geo) (y k : Nat) : Nat := if g.lastSlot y < k then g.P else g.P - 1 - (g.lastSlot y - k) / g.L

/-- Last row of the consecutive rows that meet `ok`, from y upward; and the first, from y downward. -/
def upWhile (ok : Nat → Bool) : Nat → Nat → Nat
  | 0, y => y
  | n + 1, y => if ok (y + 1) then upWhile ok n (y + 1) else y

def downWhile (ok : Nat → Bool) : Nat → Nat
  | 0 => 0
  | y + 1 => if ok y then downWhile ok y else y + 1

/-- A row, or its seam columns, lies in a run of rows already reported. -/
def Stripe.wasReported (t : Stripe) (key : Nat) : Bool := t.reported.any fun r => r.1 ≤ key && key ≤ r.2

/-- The maximal run of consecutive rows around y that meet `ok`, are not reported yet (`key` numbers them among the rows
reported), and have the same passes left in stripe slot k. -/
def Stripe.runAround (t : Stripe) (g : Geo) (key : Nat → Nat) (ok : Nat → Bool) (k y : Nat) : Nat × Nat :=
  let also (z : Nat) : Bool := z < t.count && ok z && !t.wasReported (key z) && g.passFrom z k == g.passFrom y k
  (downWhile also y, upWhile also t.count y)

/-- The last slot of a run of rows. -/
def Geo.lastOfRun (g : Geo) (r : Nat × Nat) : Nat :=
  (List.range g.Sy).foldl (fun n i => if r.1 + i ≤ r.2 then max n (g.lastSlot (r.2 - i)) else n) 0

/-- Passes from a first one on. -/
def Geo.passesFrom (g : Geo) (p : Nat) : Nat := g.allPasses - (2 ^ p - 1)

/-- The untrusted rows of a stripe slot are reported: the run of consecutive rows of the same cause, at its first blanked
slot (R36, R42). -/
def Chip.reportRows (c : Chip) (d : DieId) (v : View) (k : Nat) : Chip :=
  c.forEach (v.rowsOf k) fun c x =>
    match c.stripe? d v.stripe with
    | none => c
    | some t =>
      let y := x.2.1
      match t.causeOf y with
      | none => c
      | some cause =>
        if t.wasReported y then c
        else
          let r := t.runAround v.geo id (fun z => t.causeOf z == some cause) k y
          let s : Span :=
            { job := v.job, stripe := v.stripe, cause := cause, vFirst := v.vFirst + r.1, vLast := v.vFirst + r.2
              set := .all, die := d, moduleId := c.moduleId, setIndex := 0, setSpan := 0
              uFirst := uFirst d v.sxLog2, uLast := uLast d v.sxLog2
              slot := (v.s0 + k) % m48, slotLast := (v.s0 + v.geo.lastOfRun r) % m48, passMask := v.geo.passesFrom x.1 }
          (c.reportSpan d s).onStripe d v.stripe fun t => { t with reported := t.reported ++ [r] }

/-! ### Pixels that are not compensable (R141), and capped codes -/

/-- Columns of a trusted row in its first pass whose verdict fails, but for those of a Tun word that cannot be read. -/
def uncompensable (c : Chip) (d : DieId) (v : View) (r : Row) (k beamRow : Nat) : List Nat :=
  if v.closed = 0 && v.openBeams = 0 then []
  else ((List.range 256).filter fun cc =>
    let x := v.columnOf d k cc
    !(r.bad.any (·.1 == x / 32)) &&
    !(v.verdict d (r.level (x - rasterFirst c d v.sxLog2)) (beamRow % v.geo.G) cc).ok).map (v.columnOf d k)

/-- Pixels found not compensable at their first pass are counted, logged and reported (R141). -/
def Chip.reportPixels (c : Chip) (d : DieId) (v : View) (k : Nat) : Chip :=
  c.forEach ((v.rowsOf k).filter (·.1 = 0)) fun c x =>
    match c.stripe? d v.stripe with
    | none => c
    | some t =>
      let y := x.2.1
      let r := t.row y
      if t.untrusted y || !r.released then c
      else c.forEach (uncompensable c d v r k x.2.2) fun c u =>
        let s : Span :=
          { job := v.job, stripe := v.stripe, cause := 0x08, vFirst := v.vFirst + y, vLast := v.vFirst + y
            set := .pixel, die := d, moduleId := c.moduleId, setIndex := 0, setSpan := 0, uFirst := u, uLast := u
            slot := (v.s0 + k) % m48, slotLast := (v.s0 + v.geo.lastSlot y) % m48, passMask := v.geo.allPasses }
        ((c.reportSpan d s).bump d F.MAP_UNCOMP_COUNT_pixels).raise d 75

/-! ### Die W's seam columns (R29, R434) -/

/-- A span of die W's eight columns nearest the seam: a range of beam columns, with the stripe columns themselves in
u_first and u_last. -/
def Chip.seamSpan (c : Chip) (v : View) (vFirst vLast slot last mask : Nat) : Span :=
  let n := (8 + v.geo.Sx - 1) / v.geo.Sx
  { job := v.job, stripe := v.stripe, cause := 0x16, vFirst := vFirst, vLast := vLast, set := .columns, die := .w
    moduleId := c.moduleId, setIndex := 256 - n, setSpan := n - 1
    uFirst := 256 * v.geo.Sx - 8, uLast := 256 * v.geo.Sx - 1, slot := slot, slotLast := last, passMask := mask }

/-- Key of a row's seam report among the rows reported. -/
def seamKey (y : Nat) : Nat := y + 2 ^ 40

/-- What stands for all beams of a die, and for the seam columns, in the keys of `Blnk.cov`, beside the lanes. -/
def covDie : DieId → Nat
  | .w => 66
  | .e => 64
def covSeam : Nat := 65

/-- A span of one stripe slot is reported when it goes on to a row not reported for the set and cause yet: else it would
add no row to the entry. -/
def Chip.reportCycle (c : Chip) (d : DieId) (v : View) (set cause : Nat) (s : Span) : Chip :=
  let key := 256 * set + cause
  let n := s.vLast - v.vFirst + 1
  if n ≤ smGet 0 key (c.die d).blnk.cov then c
  else (c.reportSpan d s).onBlnk d fun x => { x with cov := smInsert key n x.cov }

/-- Seam columns left blank in a stripe slot are reported: the slot's rows when its DATA was built while the link was down,
and otherwise the run of trusted seam-unchecked rows, at its first blanked slot. -/
def Chip.reportSeam (c : Chip) (v : View) (k : Nat) : Chip :=
  if !c.two then c
  else if c.w.blnk.seamDark == some ((v.s0 + k) % m48) then
    let r := v.geo.rowsOfSlots v.rows k k
    c.reportCycle .w v covSeam 0x16
      (c.seamSpan v (v.vFirst + r.1) (v.vFirst + r.2) ((v.s0 + k) % m48) ((v.s0 + k) % m48) v.geo.allPasses)
  else
    c.forEach (v.rowsOf k) fun c x =>
      match c.stripe? .w v.stripe with
      | none => c
      | some t =>
        let y := x.2.1
        let open' (z : Nat) : Bool := !t.untrusted z && (t.row z).seamUnchecked
        if !open' y || t.wasReported (seamKey y) then c
        else
          let r := t.runAround v.geo seamKey open' k y
          (c.reportSpan .w (c.seamSpan v (v.vFirst + r.1) (v.vFirst + r.2) ((v.s0 + k) % m48)
            ((v.s0 + v.geo.lastOfRun r) % m48) (v.geo.passesFrom x.1))).onStripe .w v.stripe fun t =>
              { t with reported := t.reported ++ [(seamKey r.1, seamKey r.2)] }

/-! ### Lane entries (R188, R238) -/

/-- Pass groups that hold a beam whose physical index lies in a logical lane. -/
def View.laneMask (v : View) (d : DieId) (lam : Nat) : Nat :=
  bitmapOf (((laneCells d v.tables lam).flatMap fun i =>
    ((beamsOfCell i).filter (laneHas d v.tables lam)).map fun b => b / 256 / v.geo.G).eraseDups)

/-- The span of stripe slots `ka` to `kb` for a logical lane. -/
def Chip.laneSpan (c : Chip) (d : DieId) (v : View) (cause lam ka kb : Nat) : Span :=
  { c.slotSpan d v cause ka kb with set := .lane, setIndex := lam, passMask := v.laneMask d lam }

/-- A stripe slot of a lane is blanked: reported when it goes on to a row not reported for the lane and cause yet. -/
def Chip.reportLane (c : Chip) (d : DieId) (v : View) (cause lam k : Nat) : Chip :=
  c.reportCycle d v lam cause (c.laneSpan d v cause lam k k)

/-! ### DATA frames (R228, R230) -/

/-- Ticks of a DATA frame, and from a trigger's start to the end of the DATA frame that follows it (R228). -/
def frameTicks : Nat := 228
def dataTicks : Nat := 230

/-- Tick at which the DATA of a slot is launched: as launched last, or now. -/
def Blnk.launchOf (x : Blnk) (slot now : Nat) : Nat := if x.dataSlot == some slot then x.dataEnd - frameTicks else now

/-- The DATA frames of a slot leave on every lane of it, naming a bank; `behind` puts them behind the trigger sent last (R228,
R230). Nothing is sent while BLNK_CTRL.en is 0. -/
def Chip.emitData (c : Chip) (d : DieId) (slot : Nat) (stripe : Bool) (codes : List (Nat × Nat × Nat × Bool))
    (bank : Nat) (behind : Bool) : Chip :=
  let x := (c.die d).blnk
  if !c.flag d F.BLNK_CTRL_en then c
  else c.forEach x.carriers fun c l =>
    c.emitAt d l.2.1 (if behind then (x.phy l.2.1).behind x.trigAt else (x.phy l.2.1).linePos c.now)
      (frameHeader slot x.epoch 1 l.1 l.2.2 bank stripe 0 0) ((codes.filter (·.1 == l.1)).map fun q => (q.2.1, q.2.2.1))

/-- Codes of a slot's DATA that are capped at 63 are counted (MAP_CAPPED_COUNT). -/
def Chip.countCapped (c : Chip) (d : DieId) (codes : List (Nat × Nat × Nat × Bool)) : Chip :=
  let n := (codes.filter (·.2.2.2)).length
  if n = 0 then c else c.onDie d (·.bumpBy F.MAP_CAPPED_COUNT_codes n)

/-- The lanes launch the DATA of a slot until a tick, with die W's seam columns blank while the link is down (R29). While
BLNK_CTRL.en is 0 they launch none. -/
def Chip.noteLaunch (c : Chip) (d : DieId) (slot endsAt : Nat) : Chip :=
  if c.flag d F.BLNK_CTRL_en then c.onBlnk d fun x => { x with
    dataSlot := some slot, dataEnd := endsAt, seamDark := if c.two && !c.evuneUp then some slot else none, swapDark := none }
  else c

/-- The units that the DATA frames of a slot leave dark for a swap that is to act at it are noted (R142). -/
def Chip.noteSwapDark (c : Chip) (d : DieId) (slot : Nat) : Chip :=
  if c.flag d F.BLNK_CTRL_en && c.swapsAt slot then c.onBlnk d fun x => { x with
    swapDark := some (slot, unitsDisabled (c.die d).activeUnits (c.die d).pendingUnits c.cfg.herdEnable c.cfg.herdEnable) }
  else c

/-- What a die's DATA frames carry: nothing while the die is held blanked (R29, R39). -/
def Chip.dataCodes (c : Chip) (d : DieId) (v : View) (t : Stripe) (k : Nat) : List (Nat × Nat × Nat × Bool) :=
  if (c.die d).hold ≠ 0 || (c.die d).clockFault then [] else c.slotCodes d v t k

/-- The DATA frames of stripe slot `k` are built and launched on a die, behind a trigger; their launch ends at a tick. -/
def Chip.launchData (c : Chip) (d : DieId) (v : View) (k endsAt : Nat) : Chip :=
  match c.stripe? d v.stripe with
  | none => c
  | some t =>
    let c1 := c.markMissing d v.stripe (t.missing v k)
    let slot := (v.s0 + k) % m48
    let codes := c.dataCodes d v t k
    let c2 := c1.emitData d slot true codes (c.die d).blnk.bankInUse true
    ((c2.countCapped d codes).noteLaunch d slot endsAt).noteSwapDark d slot

/-! ### Firing a slot on a die (R228, R237) -/

/-- Change the echo group of a slot, making it if it is new. -/
def Blnk.onGroup (x : Blnk) (base : Nat) (f : EchoGroup → EchoGroup) : Blnk :=
  if x.groups.any (·.base == base) then { x with groups := x.groups.map fun g => if g.base == base then f g else g }
  else { x with groups := x.groups ++ [f ⟨base, [], [], none⟩] }

/-- First slot number of a slot's echo group (R237). -/
def groupBase (slot : Nat) : Nat := slot / 64 * 64

/-- The slot just fired is recorded on a die; its trigger follows 80 ticks later. -/
def Chip.recordSlot (c : Chip) (d : DieId) (slot : Nat) (k : Option Nat) (go : List Nat) : Chip :=
  c.onBlnk d fun x =>
    let r : SlotRec := ⟨slot, k, go, x.carriers, c.now, false, x.epoch, x.bankInUse⟩
    x.onGroup (groupBase slot) fun g => { g with slots := g.slots ++ [r] }

/-! ### Triggers (R228, R229, R312) -/

/-- The view that a stripe slot was exposed under: the one bound, or one before it. -/
def Chip.viewOfSlot (c : Chip) (d : DieId) (slot k : Nat) : Option View :=
  ((c.die d).view.toList ++ (c.die d).pastViews).find? fun v => (v.s0 + k) % m48 == slot

/-- Lanes that have begun to train in place since a stripe slot fired send no trigger for it, and it is logged for those that
were to expose (R248). -/
def Chip.reportTraining (c : Chip) (d : DieId) (r : SlotRec) (lams : List Nat) : Chip :=
  match r.k with
  | some k =>
    match c.viewOfSlot d r.slot k with
    | some v => c.forEach lams fun c lam => c.reportLane d v 0x17 lam k
    | none => c
  | none => c

/-- A lane of a slot that fired does not train now, and where it was the mirror, its handover still lasts or it carries the logical
lane itself (R240, R249). -/
def Blnk.stillCarries (x : Blnk) (l : Nat × Nat × Bool) : Bool :=
  !x.trains l.2.1 && (!l.2.2 || (x.place l.1).lane == l.2.1 ||
    x.hos.any fun h => h.lam == l.1 && (h.fromLane == l.2.1 || h.toLane == l.2.1))

/-- Every beam of the die is off in a stripe slot: a swap has disabled its half, the module or the herd (R142). -/
def Chip.unitsOff (c : Chip) (d : DieId) (r : SlotRec) : Bool :=
  match r.k with
  | some k => (c.viewOfSlot d r.slot k).any fun v => v.disabledAt.any fun u => halfUnit ≤ u.1 && u.2 ≤ k
  | none => false

/-- Units left dark in the slot of a swap that has not disabled them after all are logged for that slot (R41, R142). -/
def Chip.reportSwapDark (c : Chip) (d : DieId) (r : SlotRec) : Chip :=
  match r.k, (c.die d).blnk.swapDark with
  | some k, some (slot, units) =>
    match c.viewOfSlot d r.slot k with
    | some v =>
      if slot ≠ r.slot then c
      else c.forEach (units.filter fun off => !(v.disabledAt.any fun u => u.1 == off || (unitParents off).contains u.1)) fun c off =>
        match c.unitSpan d v off k k with
        | some s => c.reportSpan d s
        | none => c
    | none => c
  | _, _ => c

/-- The trigger of a slot that fired 80 ticks ago leaves on every lane of the slot (R228): GO on the lanes that expose,
unless the gate is closed, the die is held blanked, the slot's DATA is not complete (R229), or a swap has disabled the die's
half, the module or the herd within the stripe (R142). A lane that trains by then, or has stopped mirroring, sends none (R240,
R248, R249). -/
def Chip.launchTrigger (c : Chip) (d : DieId) (r : SlotRec) : Chip :=
  let x := (c.die d).blnk
  let mark (c : Chip) (go : List Nat) (on : List (Nat × Nat × Bool)) : Chip := c.onBlnk d fun x => x.onGroup (groupBase r.slot) fun g =>
    { g with
      slots := g.slots.map fun q => if q.slot == r.slot then { q with sent := true, go := go, carriers := on } else q
      launched := if r.slot % 64 = 63 then some c.now else g.launched }
  if !c.flag d F.BLNK_CTRL_en then mark c [] []
  else
    let due := !r.go.isEmpty || r.k.isSome
    let whole := !due || (x.dataSlot == some r.slot && x.dataEnd ≤ c.now)
    let blocked := !whole || !(c.die d).ilk.gateOpen || (c.die d).hold != 0 || (c.die d).clockFault || c.unitsOff d r
    let trains (lam : Nat) : Bool := (x.place lam).state == .inPlace
    let on := r.carriers.filter fun l => !trains l.1 && x.stillCarries l
    let go := if blocked then [] else r.go.filter fun lam => on.any (·.1 == lam)
    let c0 := (c.reportTraining d r (r.go.filter fun lam => trains lam && r.carriers.any (·.1 == lam))).onBlnk d fun x =>
      { x with trigAt := c.now }
    let c1 := c0.forEach on fun c l =>
      let goes := go.contains l.1
      c.emitLane d l.2.1 (frameHeader r.slot r.epoch (if goes then 2 else 3) l.1 l.2.2 (if goes then r.bank else 0)
        r.k.isSome 0 0) []
    let c2 := if whole then c1 else c1.onDie d (·.bumpBy F.BLNK_ABORT_COUNT_count on.length)
    mark (if go.isEmpty then c2 else c2.reportSwapDark d r) go on

end Sys2Proof.Machine
end

