-- ==== Sys2Proof/Machine/Blnk.lean ====
section
/-! DEFINITION. Blanker lane protocol (chapter 8, R233 to R251): bank loads, echoes, spare handover and the lane-map
epoch, and lane training; and what lane recalibration makes of a training's outcome (R399 to R401). -/

namespace Sys2Proof.Machine

/-! ### Training (R247 to R250) -/

/-- measure_ms and adapt_ms act as 1 when 0; a report is awaited 1 ms longer (R249). -/
def Chip.trainWait (c : Chip) (d : DieId) : Nat :=
  (max 1 (c.fld d F.PHY_TRAIN_CFG_measure_ms) + max 1 (c.fld d F.PHY_TRAIN_CFG_adapt_ms) + 1) * msTicks

/-- Figures of a receiver meet the limits of PHY_TRAIN_CFG (R249). -/
def Chip.eyeOk (c : Chip) (d : DieId) (eyeH eyeW errors : Nat) : Bool :=
  c.fld d F.PHY_TRAIN_CFG_eye_h_min ≤ eyeH && c.fld d F.PHY_TRAIN_CFG_eye_w_min ≤ eyeW &&
  errors ≤ c.fld d F.PHY_TRAIN_CFG_err_max

/-- A TRAIN frame leaves on a blanker lane, under its preset (R249). -/
def Chip.emitTrain (c : Chip) (d : DieId) (l preset : Nat) : Chip :=
  (c.onBlnk d (·.onPhy l fun p => { p with preset := preset })).emitLane d l
    (frameHeader 0 (c.die d).blnk.epoch 5 0 false 0 false 0 preset) []

/-- TRAIN frames of lanes that slept leave once 2 µs of idle have been sent (R244). -/
def Chip.flushTrain (c : Chip) (d : DieId) : Chip :=
  let due := (c.die d).blnk.training.filter fun t => !t.sent && t.at_ ≤ c.now
  if due.isEmpty then c
  else (c.forEach due fun c t => c.emitTrain d t.lane t.preset).onBlnk d fun x => { x with
    training := x.training.map fun t => if t.at_ ≤ c.now then { t with sent := true } else t }

/-- A training sequence starts on a local lane, which wakes if it sleeps; in place, its logical lane goes dark (R248). What
its echoes have told before is forgotten (DEDUCED, log entry 68). -/
def Chip.startTraining (c : Chip) (d : DieId) (l : Nat) (inPlace : Option Nat) (retry recal : Bool) : Chip :=
  let c1 := c.wakeLane d l
  let p := (c1.die d).blnk.phy l
  let t : LaneTrain :=
    { lane := l, preset := 0, at_ := if 0 < p.wakes then p.readyAt c.now else c.now, sent := false, txOk := 0, rxOk := false
      best := none, inPlace := inPlace, was := ((inPlace.map (c.die d).blnk.place).map (·.state)).getD .home, retry := retry
      begun := c.now, had := p.preset, recal := recal }
  (c1.onBlnk d fun x =>
    let y := { x.onPhy l fun p => { p with passed := false } with
      training := x.training ++ [t], waiting := x.waiting.filter (·.1 != l), badHist := smErase l x.badHist
      missed := smErase l x.missed }
    match inPlace with
    | some lam => y.setPlace lam { x.place lam with state := .inPlace }
    | none => y).flushTrain d

/-- A handover of a logical lane starts with its wake phase (R240). -/
def Chip.startHandover (c : Chip) (d : DieId) (lam toLane : Nat) (train : Option Bool)
    (soft : Bool) : Chip :=
  (c.wakeLane d toLane).onBlnk d fun x => { x with
    hos := x.hos ++ [⟨lam, (x.place lam).lane, toLane, .wake, c.now, 0, 0, false, train, false, soft⟩] }

/-- A lane waits for its turn to be trained. -/
def Chip.addWaiting (c : Chip) (d : DieId) (l : Nat) (recal : Bool) : Chip :=
  c.onBlnk d fun x => if x.waiting.any (·.1 == l) then x else { x with waiting := x.waiting ++ [(l, recal)] }

/-- The home lane of a logical lane can take it back. -/
def Blnk.homeUsable (x : Blnk) (lam : Nat) : Bool :=
  let l := homeLane lam
  !(x.phy l).failed && !x.trains l && (x.carried l).isNone

/-- The lane whose turn follows: the blanker lanes, and with grist_en the Grist lanes after them (R399). -/
def Chip.nextTurn (c : Chip) (d : DieId) (l : Nat) : Nat :=
  if l + 1 < (if c.flag d F.CAL_LANE_CTRL_grist_en then 84 else 68) then l + 1 else 0

/-- A scheduled recalibration ends with an outcome (R399, R401); `keep` leaves the lane its turn, which comes at a turnaround
window (R400). -/
def Chip.recalEnds (c : Chip) (d : DieId) (outcome : Nat) (keep : Bool) : Chip :=
  let next := c.nextTurn d (c.die d).laneCal.next
  (c.onDie d fun x => { x with laneCal := { x.laneCal with
    busy := false, outcome := outcome, due := keep, yielded := keep, counts := false
    endedAt := if keep then x.laneCal.endedAt else c.now
    next := if keep then x.laneCal.next else next } }).raise d 238

/-- A recalibration yields its spare (R400). -/
def Chip.recalYields (c : Chip) (d : DieId) (l : Nat) : Chip :=
  (c.onBlnk d fun x => { x with lastTrain := (l, 3, 0, false, 0) }).recalEnds d 3 true

/-- The recalibration for which a group's spare carries a logical lane, or is to: its handover, or its training. -/
def Blnk.recalHo (x : Blnk) (q : Nat) : Option Handover := (x.hoOf q).filter fun h => h.train == some true
def Blnk.recalOf (x : Blnk) (q : Nat) : Option LaneTrain :=
  x.training.find? fun t => t.recal && groupOf t.lane == q && !isSpare t.lane

/-- A recalibration whose handover is under way yields (R400): before the switch the handover is dropped; after it the logical
lane goes back to its home lane. -/
def Chip.yieldHandover (c : Chip) (d : DieId) (h : Handover) : Chip :=
  let q := groupOf h.fromLane
  (match h.phase with
   | .switch | .release => c.onBlnk d (·.onHo q fun h => { h with train := none, back := true, ready := true })
   | .wake | .mirror => c.onBlnk d (·.dropHo q)).recalYields d h.fromLane

/-- A recalibration whose lane trains yields (R400): the training is abandoned, the lane keeps the preset it had, and the
logical lane is handed back. -/
def Chip.yieldTraining (c : Chip) (d : DieId) (t : LaneTrain) : Chip :=
  let c1 := (c.onBlnk d fun x => { x.onPhy t.lane fun p => { p with preset := t.had } with
    training := x.training.filter (·.lane != t.lane) }).recalYields d t.lane
  let lam := homeOf t.lane
  let x := (c1.die d).blnk
  if x.homeUsable lam && (x.hoOf (groupOf t.lane)).isNone then c1.startHandover d lam t.lane none false else c1

/-- A handover to the spare that R247 began in this tick for a higher lane of the group: the lower lane takes the spare
(R251). -/
def Blnk.outranked (x : Blnk) (l now : Nat) : Option Handover :=
  (x.hoOf (groupOf l)).filter fun h => h.train == some false && h.phase == .wake && h.at_ == now && l.blt h.fromLane

/-- A lane that carries a logical lane finds no spare: it waits if only its bad frames called (`soft`), else it trains in place
(R248). -/
def Chip.withoutSpare (c : Chip) (d : DieId) (l lam : Nat) (soft : Bool) : Chip :=
  if soft then c.addWaiting d l false else c.startTraining d l (some lam) false false

/-- A home lane that carries a logical lane calls for its group's spare (R247, R248, R251, R400). -/
def Chip.callSpare (c : Chip) (d : DieId) (l lam : Nat) (soft : Bool) : Chip :=
  let x := (c.die d).blnk
  let q := groupOf l
  let take (c : Chip) : Chip := c.startHandover d lam (spareLane q) (some false) soft
  if x.spareFree q then take c
  else match x.outranked l c.now, x.recalHo q, x.recalOf q with
  | some h, _, _ => (take (c.onBlnk d (·.dropHo q))).withoutSpare d h.fromLane h.lam h.soft
  | none, some h, _ =>
    let c1 := c.yieldHandover d h
    if (c1.die d).blnk.spareFree q then take c1 else c1.addWaiting d l false
  | none, none, some t => (c.yieldTraining d t).addWaiting d l false
  | none, none, none => c.withoutSpare d l lam soft

/-- A lane is to be retrained (R247, R248, R251). `soft` is the bad-frame count, which never trains in place; `cmd` a
command, which alone retries a failed lane. -/
def Chip.callTraining (c : Chip) (d : DieId) (l : Nat) (soft cmd : Bool) : Chip :=
  let x := (c.die d).blnk
  if x.trains l then c
  else if (x.phy l).failed then (if cmd then c.startTraining d l none true false else c)
  else match x.carried l with
  | none => if x.hos.any fun h => h.toLane == l || h.fromLane == l then c.addWaiting d l false
            else c.startTraining d l none false false
  | some lam =>
    if x.hos.any (·.lam == lam) then c.addWaiting d l false
    else if isSpare l then
      if (x.place lam).state == .spareTemp && (x.phy (homeLane lam)).passed && x.homeUsable lam then
        (c.startHandover d lam (homeLane lam) none false).addWaiting d l false
      else c.withoutSpare d l lam soft
    else c.callSpare d l lam soft

/-- R247 has begun to retrain a lane in this tick: it trains, or is handed over for it. -/
def Chip.retrainsNow (c : Chip) (d : DieId) (l : Nat) : Bool :=
  let x := (c.die d).blnk
  x.training.any (fun t => t.lane == l && !t.recal && t.begun == c.now) ||
  x.hos.any (fun h => h.fromLane == l && h.train == some false && h.phase == .wake && h.at_ == c.now)

/-- The lowest waiting lane whose turn has come is served (R247, R251): one that carries nothing trains, one whose
spare is free is handed over. -/
def Chip.serveWaiting (c : Chip) (d : DieId) : Chip :=
  let x := (c.die d).blnk
  let ready := x.waiting.filter fun w =>
    !x.trains w.1 && (x.hoOf (groupOf w.1)).isNone &&
    match x.carried w.1 with
    | none => true
    | some _ => !isSpare w.1 && x.spareFree (groupOf w.1)
  match ready.mergeSort (fun a b => a.1 ≤ b.1) with
  | [] => c
  | w :: _ =>
    match x.carried w.1 with
    | none => c.startTraining d w.1 none false w.2
    | some lam =>
      (c.startHandover d lam (spareLane (groupOf w.1)) (some w.2) true).onBlnk d fun x =>
        { x with waiting := x.waiting.filter (·.1 != w.1) }

/-- A training outcome updates the lane's entry and may flag a low margin (R401). -/
def Chip.noteQuality (c : Chip) (d : DieId) (l eyeH eyeW : Nat) (pass : Bool) : Chip :=
  let c1 := (c.puts d [(F.CAL_LANE_eye_h.at l, min 255 eyeH), (F.CAL_LANE_eye_w.at l, min 63 eyeW)]).onDie d fun x =>
    { x with laneCal := { x.laneCal with trainedAt := smInsert l c.now x.laneCal.trainedAt } }
  if pass && (eyeH < c.fld d F.PHY_TRAIN_CFG_eye_h_min + c.fld d F.CAL_LANE_MARGIN_h_margin ||
    eyeW < c.fld d F.PHY_TRAIN_CFG_eye_w_min + c.fld d F.CAL_LANE_MARGIN_w_margin)
  then (c1.setBit d (F.CAL_LANE_margin_low.at l)).raise d 239 else c1

/-- A lane fails (R250). -/
def Chip.failLane (c : Chip) (d : DieId) (l : Nat) : Chip :=
  (c.onBlnk d fun x => x.onPhy l fun p => { p with failed := true }).raise d 132

/-- The state that a logical lane takes up again when the spare that carries it has been retrained in place. -/
def Blnk.spareWas (x : Blnk) (lam : Nat) (s : MapState) : Blnk :=
  { x with training := x.training.map fun t => if t.inPlace == some lam then { t with was := s } else t }

/-- The outcome of a training sequence is applied (R250). While the spare that carries the logical lane trains in place, what
the home lane's outcome makes of the logical lane waits for the spare's verdict. -/
def Chip.applyOutcome (c : Chip) (d : DieId) (t : LaneTrain) (pass : Bool) : Chip :=
  let x := (c.die d).blnk
  let l := t.lane
  let lam := homeOf l
  match t.inPlace with
  | some la =>
    if pass then
      let c1 := c.onBlnk d fun x => (x.onPhy l fun p => { p with passed := true }).setPlace la
        { x.place la with state := t.was, resumeAfter := c.now + 2 * usTicks }
      let y := { (c1.die d).blnk with training := (c1.die d).blnk.training.filter (·.lane != l) }
      if isSpare l && t.was == .spareTemp && (y.phy (homeLane la)).passed && y.homeUsable la && (y.hoOf (groupOf l)).isNone then
        c1.startHandover d la (homeLane la) none false
      else c1
    else (c.failLane d l).onBlnk d fun x => { x.setPlace la { x.place la with state := .failed } with
      verdicts := x.verdicts ++ [la] }
  | none =>
    let p := x.place lam
    let onSpare := !isSpare l && p.lane != l && p.state != .failed
    let retrains := p.state == .inPlace
    if pass then
      let c1 := c.onBlnk d fun x => x.onPhy l fun p => { p with failed := false, passed := true }
      if onSpare && !retrains && (x.hoOf (groupOf l)).isNone then c1.startHandover d lam l none false
      else if onSpare && retrains then c1.onBlnk d (·.spareWas lam .spareTemp)
      else c1
    else
      let c1 := c.failLane d l
      if !onSpare || t.retry then c1
      else if retrains then c1.onBlnk d (·.spareWas lam .sparePerm)
      else c1.onBlnk d fun x => x.setPlace lam { x.place lam with state := .sparePerm }

/-- A training sequence reaches its verdict (R249, R250, R401). A lane that fails keeps the preset of its last step (DESIGN
CHOICE, log entry 68). -/
def Chip.trainVerdict (c : Chip) (d : DieId) (t : LaneTrain) : Chip :=
  let pass := t.rxOk && t.best.isSome
  let b := t.best.getD (0, 0, 0)
  let c1 := (c.onBlnk d fun x => { x with
    lastTrain := (t.lane, if pass then 1 else 2, if pass then b.2.2 else 0, t.rxOk, t.txOk) }).onBlnk d fun x =>
      if pass then x.onPhy t.lane fun p => { p with preset := b.2.2, eyeH := min 255 b.1, eyeW := min 63 b.2.1 } else x
  let c2 := ((((c1.applyOutcome d t pass).onBlnk d fun x => { x with
    training := x.training.filter (·.lane != t.lane) }).raise d 131).noteQuality d t.lane b.1 b.2.1 pass)
  (if t.recal || ((c2.die d).laneCal.counts && (c2.die d).laneCal.next == t.lane) then c2.recalEnds d 1 false else c2).serveWaiting d

/-- A preset's step ends: the blanker's verdict on it, and the module's own (R249). -/
def Chip.trainStep (c : Chip) (d : DieId) (t : LaneTrain) (txOk : Bool) (eyeH eyeW : Nat) (rxOk : Bool) : Chip :=
  let better := txOk && (match t.best with
    | none => true
    | some b => b.1 < eyeH)
  let t1 := { t with
    txOk := if txOk then t.txOk + 2 ^ t.preset else t.txOk
    rxOk := t.rxOk || rxOk
    best := if better then some (eyeH, eyeW, t.preset) else t.best }
  if t.preset = 7 then c.trainVerdict d t1
  else
    (c.onBlnk d fun x => { x with training := x.training.map fun y =>
      if y.lane == t.lane then { t1 with preset := t.preset + 1, at_ := c.now } else y }).emitTrain d t.lane (t.preset + 1)

/-! ### Handover (R240, R241) -/

/-- A handover ends with its release: lane A carries nothing, and is trained if that was its purpose. -/
def Chip.releaseHandover (c : Chip) (d : DieId) (h : Handover) : Chip :=
  let c1 := match h.train with
    | some r => c.startTraining d h.fromLane none false r
    | none => c
  (c1.onBlnk d (·.dropHo (groupOf h.fromLane))).serveWaiting d

/-- A handover has been given up: lane A is trained in place if it was started to retrain A (R241); a scheduled
recalibration is given up instead (R399). -/
def Chip.afterAbandon (c : Chip) (d : DieId) (h : Handover) : Chip :=
  (match h.train with
   | some false => c.startTraining d h.fromLane (some h.lam) false false
   | some true => (c.onBlnk d fun x => { x with lastTrain := (h.fromLane, 3, 0, false, 0) }).recalEnds d 2 false
   | none => c).serveWaiting d

/-- A handover that is not confirmed is abandoned (R241). -/
def Chip.abandonHandover (c : Chip) (d : DieId) (h : Handover) : Chip :=
  let q := groupOf h.fromLane
  let c1 := c.raise d 129
  let spareToo (c : Chip) : Chip := if isSpare h.toLane then c.addWaiting d h.toLane false else c
  match h.phase with
  | .switch => spareToo (c1.onBlnk d (·.onHo q fun h => { h with back := true, ready := true }))
  | _ => (spareToo (c1.onBlnk d (·.dropHo q))).afterAbandon d h

/-- The switch of a handover that is ready, decided with the last slot of an echo group: it acts from the next slot, the
first of the next group, and no other switch of the die falls into that group (R240, R241). -/
def Chip.switchAt (c : Chip) (d : DieId) (slot : Nat) : Chip :=
  if slot % 64 ≠ 63 then c
  else match (c.die d).blnk.hos.find? (·.ready) with
  | none => c
  | some h =>
    let q := groupOf h.fromLane
    let c1 := c.onBlnk d fun x => { x with epoch := (x.epoch + 1) % 256 }
    if h.back then
      (c1.onBlnk d fun x => (x.setPlace h.lam
        ⟨h.fromLane, if isSpare h.fromLane then .spareTemp else .home, 0⟩).dropHo q).afterAbandon d h
    else c1.onBlnk d fun x =>
      (x.setPlace h.lam ⟨h.toLane, if isSpare h.toLane then .spareTemp else .home, 0⟩).onHo q fun h =>
        { h with phase := .switch, slot := (slot + 1) % m48, groups := 0, ready := false }

/-- Start a handover to the spare on command, or refuse it (BLNK_HANDOVER op 1). -/
def Chip.handoverToSpare (c : Chip) (d : DieId) (lam : Nat) : Chip :=
  let x := (c.die d).blnk
  if (x.place lam).state == .home && x.spareFree (lam / 16) && (x.hoOf (lam / 16)).isNone then
    c.startHandover d lam (spareLane (lam / 16)) none false
  else c.raise d 130

/-- Start a handback on command, or refuse it (BLNK_HANDOVER op 2). -/
def Chip.handback (c : Chip) (d : DieId) (lam : Nat) : Chip :=
  let x := (c.die d).blnk
  if (x.place lam).state == .spareTemp && x.homeUsable lam && (x.hoOf (lam / 16)).isNone then
    c.startHandover d lam (homeLane lam) none false
  else c.raise d 130

/-- Write of BLNK_HANDOVER. -/
def Chip.writeHandover (c : Chip) (d : DieId) (v : Word) : Chip :=
  match bits v 9 8 with
  | 1 => c.handoverToSpare d (bits v 5 0)
  | 2 => c.handback d (bits v 5 0)
  | _ => c

/-! ### Echoes (R237 to R239) -/

/-- Epoch at slot 64g + 63 of a group. -/
def EchoGroup.epoch (g : EchoGroup) : Option Nat :=
  (g.slots.find? fun r => r.slot == (g.base + 63) % m48).map (·.epoch)

/-- All 64 slots of a group are good in an echo. -/
def allGood : Nat := 2 ^ 64 - 1

/-- What an echo says of a bank (R233): a complete bank with the load's tag confirms it for the lane; anything else voids
the confirmation, and of the spare bank the whole load's, unless the slots that it covers had all fired before the last segment
was sent: an echo leaves after the last slot of its group. -/
def Chip.echoBank (c : Chip) (d : DieId) (base lam n tag : Nat) (ok : Bool) : Chip :=
  let b := (c.die d).blnk.bank n
  if !b.loaded || b.nextSeg < 8 then c
  else if ok && tag == b.tag then c.onBlnk d fun x =>
    let y := x.onBank n fun b => { b with confirmed := if b.confirmed.contains lam then b.confirmed else lam :: b.confirmed }
    if n = x.bankInUse then { y with bankWait := y.bankWait.filter (· != lam) } else y
  else if sdiff 48 ((base + 63) % m48) b.sentSlot < 0 then c
  else c.onBlnk d fun x => x.onBank n fun b =>
    if n = x.spareBank then { b with confirmed := [], lost := true }
    else { b with confirmed := b.confirmed.filter (· != lam) }

/-- What a good echo does to a handover: it confirms the mirror phase, or the switch phase (R240). -/
def Chip.echoHandover (c : Chip) (d : DieId) (base : Nat) (e : Echo) : Chip :=
  match (c.die d).blnk.hoOf (groupOf e.lane) with
  | none => c
  | some h =>
    if e.lane != h.toLane || e.lam != h.lam || e.good != allGood || sdiff 48 base h.slot < 0 then c
    else match h.phase with
    | .mirror => if e.mirror then c.onBlnk d (·.onHo (groupOf e.lane) fun h => { h with ready := true }) else c
    | .switch => if e.mirror || h.back then c else c.releaseHandover d h
    | .wake | .release => c

/-- A good echo is taken (R237 to R239). Of one with another epoch the bitmap is not used: it confirms no slot and no phase. -/
def Chip.takeEcho (c : Chip) (d : DieId) (g : EchoGroup) (e : Echo) (b : List Nat) : Chip :=
  let known := g.slots.any fun r => r.carriers.any fun l => l.1 == e.lam && l.2.1 == e.lane
  let c1 := c.onBlnk d fun x => x.onGroup g.base fun g => { g with echoes := g.echoes ++ [e] }
  let c2 := if known then
      (c1.echoBank d g.base e.lam 0 (leAt b 16 1) (nbit (leAt b 18 1) 0)).echoBank d g.base e.lam 1 (leAt b 17 1)
        (nbit (leAt b 18 1) 1)
    else c1
  if some e.epoch == g.epoch then c2.echoHandover d g.base e else c2.bump d F.BLNK_EPOCH_ERR_COUNT_count

/-- Reserved parts of an echo are 0 (R226, R237). -/
def echoForm (h : Nat) (b : List Nat) : Bool :=
  h / 2 ^ 40 % 16 == 8 && h / 2 ^ 51 == 0 && leAt b 18 1 < 4 && leAt b 21 3 == 0

/-- A message arrives on BL_RX of a lane (R238, R239). -/
def Chip.echoArrives (c : Chip) (d : DieId) (l : Nat) (b : List Nat) : Chip :=
  let h := leAt b 0 8
  if !frameGood 32 b || !echoForm h b || !((c.die d).blnk.phy l).usable c.now then c
  else match (c.die d).blnk.groups.find? fun g => g.base % 2 ^ 32 == h % 2 ^ 32 with
  | none => c
  | some g =>
    let e : Echo := ⟨l, h / 2 ^ 44 % 64, nbit h 50, h / 2 ^ 32 % 256, leAt b 8 8, leAt b 20 1⟩
    match g.launched with
    | some t => if max 1 (c.fld d F.BLNK_CTRL_echo_timeout_us) * usTicks ≤ c.now - t then c else c.takeEcho d g e b
    | none => c

/-- A lane carried the logical lane in the slot with the role the echo reports. -/
def SlotRec.matches (r : SlotRec) (e : Echo) : Bool := r.carriers.contains (e.lam, e.lane, e.mirror)

/-- Verdict on a GO slot of a lane (R238): `none` is confirmed, otherwise the cause. -/
def EchoGroup.verdict (g : EchoGroup) (r : SlotRec) (lam : Nat) : Option Nat :=
  let es := g.echoes.filter fun e => e.lam == lam && some e.epoch == g.epoch && r.matches e
  if es.any fun e => nbit e.good (r.slot % 64) then none else if es.isEmpty then some 0x0B else some 0x0A

/-- Consecutive stripe slots of one cause, as ranges, from verdicts in ascending order of k. -/
def rangesOf : List (Nat × Nat) → List (Nat × Nat × Nat)
  | [] => []
  | (k, cause) :: l =>
    match rangesOf l with
    | (a, b, q) :: rest => if a = k + 1 && q = cause then (k, b, cause) :: rest else (k, k, cause) :: (a, b, q) :: rest
    | [] => [(k, k, cause)]

/-- Unconfirmed slots of a lane in a group are counted and logged (R238). -/
def Chip.judgeLane (c : Chip) (d : DieId) (g : EchoGroup) (lam : Nat) : Chip :=
  let bad := g.slots.filterMap fun r =>
    match r.k with
    | some k => if r.go.contains lam then (g.verdict r lam).map fun q => (r.slot, k, q) else none
    | none => none
  let c1 := (c.onDie d (·.bumpBy F.BLNK_ECHO_BAD_COUNT_count (bad.filter (·.2.2 == 0x0A)).length)).onDie d
    (·.bumpBy F.BLNK_ECHO_MISS_COUNT_count (bad.filter (·.2.2 == 0x0B)).length)
  c1.forEach (rangesOf (bad.map (·.2))) fun c r =>
    match (bad.find? (·.2.1 == r.1)).bind fun b => c.viewOfSlot d b.1 b.2.1 with
    | some v => c.reportSpan d (c.laneSpan d v r.2.2 lam r.1 r.2.1)
    | none => c

/-- The retraining triggers that echo results give for a local lane that had slots in the group (R247): of the bad frames, those
of the last 16 groups count. -/
def Chip.judgeTriggers (c : Chip) (d : DieId) (g : EchoGroup) (l : Nat) : Chip :=
  let echo := g.echoes.find? (·.lane == l)
  let x := (c.die d).blnk
  let hist := (g.base, (echo.map (·.bad)).getD 0) :: (smGet [] l x.badHist).filter fun p => sdiff 48 g.base p.1 < 16 * 64
  let missed := if echo.isNone then smGet 0 l x.missed + 1 else 0
  let c1 := c.onBlnk d fun x => { x with badHist := smInsert l hist x.badHist, missed := smSet 0 l missed x.missed }
  if !c.flag d F.BLNK_CTRL_auto_retrain then c1
  else if 2 ≤ missed then c1.callTraining d l false false
  else if max 1 (c.fld d F.BLNK_CTRL_crc_retrain) ≤ (hist.map (·.2)).sum then c1.callTraining d l true false
  else c1

/-- Handovers whose phase this group could have confirmed count it (R241). -/
def Blnk.countGroups (x : Blnk) (base : Nat) : Blnk :=
  { x with hos := x.hos.map fun h =>
      match h.phase with
      | .mirror | .switch =>
        if !h.ready && 0 ≤ sdiff 48 base h.slot then { h with groups := h.groups + 1 } else h
      | .wake | .release => h }

/-- GO slots of a calibration burst in a group: judged for R393 by the same test. -/
def Chip.judgeBurst (c : Chip) (g : EchoGroup) : Chip :=
  let burst := g.slots.filter fun r => r.k.isNone && !r.go.isEmpty
  if burst.isEmpty then c
  else
    let bad := burst.filter fun r => r.go.any fun lam => (g.verdict r lam).isSome
    let good := burst.filter fun r => !bad.any (·.slot == r.slot)
    { c with cal := { c.cal with
        badEcho := c.cal.badEcho ++ bad.map (·.slot), goSlots := c.cal.goSlots.filter fun s => !good.any (·.slot == s.1) } }

/-- The deadline of an echo group: everything unconfirmed is judged (R238). -/
def Chip.judgeGroup (c : Chip) (d : DieId) (g : EchoGroup) : Chip :=
  let lams := (List.range 64).filter fun lam => g.slots.any fun r => r.k.isSome && r.go.contains lam
  let lanes := (g.slots.flatMap fun r => r.carriers.map (·.2.1)).eraseDups
  let dark := lams.any fun lam => g.slots.any fun r => r.k.isSome && r.go.contains lam && (g.verdict r lam).isSome
  let c1 := c.onBlnk d fun x => { x.countGroups g.base with groups := x.groups.filter (·.base != g.base) }
  let c2 := (c1.forEach lams fun c lam => c.judgeLane d g lam).judgeBurst g
  let c3 := if dark then c2.raise d 128 else c2
  c3.forEach lanes fun c l => c.judgeTriggers d g l

/-! ### Bank loads (R231, R233) -/

/-- A bank that a load is due for, with the values to load: the spare bank when it differs from the shadow copies or has
been reported lost, and the bank in use when a stripe started without it (R233, R235). -/
def Chip.loadDue (c : Chip) (d : DieId) : Option (Nat × Nat × List (Nat × Word)) :=
  let x := (c.die d).blnk
  let s := x.spareBank
  let shadow := c.bankValues d false
  let exposingIt := c.sched.mode == .exposing && x.bankInUse == s
  let inUse := x.bank x.bankInUse
  if x.bankInUse != s && inUse.lost then some (x.bankInUse, inUse.window, inUse.tables)
  else if exposingIt || !c.mapCheckPassed d then none
  else if !(x.bank s).holds shadow then some (s, shadow)
  else if (x.bank s).lost then some (s, shadow) else none

/-- The bank whose segments are still to be sent. -/
def Blnk.loading (x : Blnk) : Option Nat :=
  if x.bank0.loaded && x.bank0.nextSeg < 8 then some 0
  else if x.bank1.loaded && x.bank1.nextSeg < 8 then some 1 else none

/-- Ticks of a PARAM segment, and of it with the block time that must remain after it (R228, R231). -/
def paramTicks : Nat := 17
def paramRoom : Nat := 18

/-- A segment may start now (R231): the lanes are free of a trigger, DATA and an earlier segment; it ends before the earliest
next trigger, and in idle mode before the next idle slot. -/
def Chip.paramRoomNow (c : Chip) (d : DieId) : Bool :=
  let x := (c.die d).blnk
  let khz := if c.sched.mode == .exposing then c.sched.limitKhz else c.act .w F.SLOT_RATE_LIMIT_limit_khz
  let tMin := (1000000 + khz - 1) / khz
  let idle := min (c.fld .w F.SLOT_IDLE_idle_khz) khz
  let waiting := x.groups.any fun g => g.slots.any fun r => !r.sent && r.firedAt + 80 < c.now + paramRoom
  x.dataEnd ≤ c.now && x.paramEnd ≤ c.now && (x.trigAt = 0 || x.trigAt + 3 ≤ c.now) && !waiting &&
  match c.sched.mode with
  | .exposing => c.now + paramRoom ≤ c.sched.slotAt + tMin + 80
  | .armed => true
  | .idle =>
    idle == 0 || c.now + paramTicks ≤ max c.sched.slotAt c.sched.idleAt + (1000000 + idle - 1) / idle

/-- One segment leaves on every lane that carries a logical lane, mirrors too (R232, R240). -/
def Chip.sendSegment (c : Chip) (d : DieId) (n : Nat) : Chip :=
  let x := (c.die d).blnk
  let b := x.bank n
  let c1 := c.forEach x.carriers fun c l =>
    c.emitLane d l.2.1 (frameHeader b.tag x.epoch 4 l.1 l.2.2 n false b.nextSeg b.window)
      (((bankPrimes d b.tables l.1).filter fun p => p.1 / 256 == b.nextSeg).map fun p => (p.1 % 256, p.2))
  c1.onBlnk d fun x => { x.onBank n fun b => { b with nextSeg := b.nextSeg + 1, sentSlot := (c.sched.slot + 1) % m48 } with
    paramEnd := c.now + paramTicks }

/-! ### Enable and disable -/

/-- Write of BLNK_CTRL (R228, R233). With spare_sleep 0 every lane that sleeps wakes (R244). -/
def Chip.writeBlnkCtrl (c : Chip) (d : DieId) (v : Word) : Chip :=
  let was := c.flag d F.BLNK_CTRL_en
  let c0 := if bit v 1 then c else c.forEach (List.range 68) fun c l => c.wakeLane d l
  let c1 := c0.onDie d (·.setReg 0x0B0000 (v &&& 0x00FFFF07))
  if bit v 0 && !was then c1.loadAtEnable d else c1

/-! ### Meanings -/

/-- PARAM_SEGMENT_SEND (R231, R232). -/
def execParamSegmentSend (d : DieId) (s : State) : Res :=
  s.nextChip fun c =>
    if !c.hasDie d || !c.flag d F.BLNK_CTRL_en || !c.paramRoomNow d then c
    else match (c.die d).blnk.loading with
    | none => c
    | some n => c.sendSegment d n

/-- BANK_LOAD_START (R233, R235). -/
def execBankLoadStart (d : DieId) (s : State) : Res :=
  s.nextChip fun c =>
    if !c.hasDie d || !c.flag d F.BLNK_CTRL_en || (c.die d).blnk.loading.isSome then c
    else match c.loadDue d with
    | none => c
    | some (n, v) => c.loadBank d n v

/-- ECHO_RECEIVE (R237 to R239). -/
def execEchoReceive (d : DieId) (lane : Nat) (bytes : List Nat) (s : State) : Res :=
  s.nextChip fun c => if c.hasDie d && lane < 68 then c.echoArrives d lane bytes else c

/-- ECHO_DEADLINE (R238, R247): the oldest group whose deadline has come. -/
def execEchoDeadline (d : DieId) (s : State) : Res :=
  s.nextChip fun c =>
    match (c.die d).blnk.groups.find? fun g => match g.launched with
      | some t => max 1 (c.fld d F.BLNK_CTRL_echo_timeout_us) * usTicks ≤ c.now - t
      | none => false with
    | none => c
    | some g => c.judgeGroup d g

/-- HANDOVER_TO_SPARE (R240). -/
def execHandoverToSpare (_m : Master) (d : DieId) (lam : Nat) (s : State) : Res :=
  s.nextBus fun c => if c.hasDie d && lam < 64 then c.handoverToSpare d lam else c

/-- HANDBACK (R240). -/
def execHandback (_m : Master) (d : DieId) (lam : Nat) (s : State) : Res :=
  s.nextBus fun c => if c.hasDie d && lam < 64 then c.handback d lam else c

/-- HANDOVER_WAKE_END (R240, R244): 2 µs of idle have been sent on lane B. -/
def execHandoverWakeEnd (d : DieId) (group : Nat) (s : State) : Res :=
  s.nextChip fun c =>
    match (c.die d).blnk.hoOf group with
    | none => c
    | some h =>
      if h.phase == .wake && 2 * usTicks ≤ c.sinceTick h.at_ then
        c.onBlnk d (·.onHo group fun h => { h with
          phase := .mirror, at_ := c.now, slot := (c.sched.slot + 1) % m48, groups := 0 })
      else c

/-- HANDOVER_ABANDON (R241): not confirmed within 4 echo groups. -/
def execHandoverAbandon (d : DieId) (group : Nat) (s : State) : Res :=
  s.nextChip fun c =>
    match (c.die d).blnk.hoOf group with
    | none => c
    | some h =>
      if (h.phase == .mirror || h.phase == .switch) && !h.ready && 4 ≤ h.groups then c.abandonHandover d h else c

/-- BLNK_ENABLE (R233). -/
def execBlnkEnable (_m : Master) (d : DieId) (v : Word) (s : State) : Res :=
  s.nextBus fun c => if c.hasDie d then c.writeBlnkCtrl d (v ||| 1) else c

/-- BLNK_DISABLE (R228). -/
def execBlnkDisable (_m : Master) (d : DieId) (v : Word) (s : State) : Res :=
  s.nextBus fun c => if c.hasDie d then c.writeBlnkCtrl d (v &&& 0xFFFFFFFE) else c

/-- LANE_TRAIN_COMMAND (R247): a failed lane is retried; other values than local lanes are ignored. -/
def execLaneTrainCommand (_m : Master) (d : DieId) (lane : Nat) (s : State) : Res :=
  s.nextBus fun c => if c.hasDie d && lane < 68 then c.callTraining d lane false true else c

/-- TRAIN_REPORT_RECEIVE (R249): a good report for the preset under way, in time. -/
def execTrainReportReceive (d : DieId) (lane : Nat) (bytes : List Nat) (eyeH eyeW errors : Nat) (s : State) : Res :=
  s.nextChip fun c =>
    match (c.die d).blnk.training.find? (·.lane == lane) with
    | none => c
    | some t =>
      let h := leAt bytes 0 8
      if frameGood 32 bytes && h % 2 ^ 32 == 0 && h / 2 ^ 40 % 2 ^ 16 == 9 && h / 2 ^ 56 == t.preset &&
        leAt bytes 16 8 == 0 && t.sent && c.now - t.at_ ≤ c.trainWait d && ((c.die d).blnk.phy lane).usable c.now
      then
        let rh := leAt bytes 8 2
        let rw := leAt bytes 10 2
        c.trainStep d t (c.eyeOk d rh rw (leAt bytes 12 4)) rh rw (c.eyeOk d eyeH eyeW errors)
      else c

/-- TRAIN_REPORT_TIMEOUT (R249). -/
def execTrainReportTimeout (d : DieId) (lane eyeH eyeW errors : Nat) (s : State) : Res :=
  s.nextChip fun c =>
    match (c.die d).blnk.training.find? (·.lane == lane) with
    | none => c
    | some t => if c.trainWait d < c.now - t.at_ then c.trainStep d t false 0 0 (c.eyeOk d eyeH eyeW errors) else c

end Sys2Proof.Machine
end

