-- ==== Sys2Proof/Machine/GrLane.lean ====
section
/-! DEFINITION. Grist lanes (chapter 9, R252 to R263), and the lock and freeze events of every lane receiver (R224,
R245). -/

namespace Sys2Proof.Machine

/-! ### The lane set (R260, R261) -/

/-- The lanes that a new set takes: enabled, not failed, and not training (R260, R263). -/
def Chip.newMask (c : Chip) (d : DieId) : Nat :=
  let g := (c.die d).gr
  bitmapOf ((onesOf 16 (c.fld d F.PHY_GR_CTRL_lane_en)).filter fun l =>
    !(g.phy l).failed && !g.training.any (·.lane == l))

/-- The LANE message of the set in force (R260). -/
def Chip.laneWords (c : Chip) (d : DieId) : List Nat :=
  let g := (c.die d).gr
  let p := (c.die d).grist.last.getD (0, 0, 0)
  [4 + g.reason * 256 + b2n (c.die d).grist.last.isSome * 2 ^ 16, g.mask + g.setId * 2 ^ 16, p.1, p.2.1, p.2.2]

/-- The LANE message leaves on the return lane, before any CREDIT, ACK or NACK that is due (R276), or waits for the lane behind
the LANE messages before it. -/
def Chip.sendLane (c : Chip) (d : DieId) : Chip :=
  let m : ReturnMsg := ⟨c.laneWords d, none⟩
  let c1 := c.onGr d fun g => { g with laneMsgAt := c.now }
  if c.returnReady d then c1.emitMessage d m else c1.queueReturn d m

/-- A block in progress whose header passes every check is the last one accepted (R68, R261). -/
def Chip.noteCut (c : Chip) (d : DieId) : Chip :=
  match (c.die d).gr.rxHeader with
  | none => c
  | some b =>
    let h := parseHeader b
    if hdrCrcOk b && (c.earlyReason d h).isNone && ((c.die d).grist.duplicate h).isNone && (c.headerReason d h).isNone
    then c.noteLast d h else c

/-- The block that was in progress ends at a set change (R261): it fails check 13, or is discarded without a NACK while its
header is not complete. -/
def Chip.cutBlock (c : Chip) (d : DieId) (rx : Option (List Nat)) : Chip :=
  match rx with
  | none => c
  | some ws =>
    let c1 := c.bump d F.PHY_GR_FRAME_ERR_cut
    if 5 ≤ ws.length then c1.blockArrives d (deliveredBytes ws 8) true else c1

/-- The return lane moves with the set (R258): another lane than before has to wake first (R244). -/
def Chip.moveReturn (c : Chip) (d : DieId) (was : Nat) : Chip :=
  let g := (c.die d).gr
  if g.returnLane = was || !g.returnAwake then c
  else c.onGr d fun g => (g.onPhy g.returnLane fun p => p.wake c.now) |> fun g => { g with wokeAt := c.now }

/-- The die forms a new set (R260, R261): it is announced, and then what the cut block comes to is. -/
def Chip.changeSet (c : Chip) (d : DieId) (reason : Nat) : Chip :=
  let rx := (c.die d).gr.rx
  let was := (c.die d).gr.returnLane
  let c0 := c.noteCut d
  let c1 := c0.onGr d fun g => { g with
    setId := (g.setId + 1) % 256, mask := c0.newMask d, aligned := false, alignCount := none, reason := reason
    setDue := false, rx := none }
  let c2 := c1.moveReturn d was
  ((if c0.newMask d = 0 then c2.raise d 35 else c2).sendLane d).cutBlock d rx

/-- Deskew is lost (R256). -/
def Chip.deskewLost (c : Chip) (d : DieId) : Chip := (c.bump d F.PHY_GR_FRAME_ERR_deskew).changeSet d 3

/-- Skew that the deskew tolerates: 32 block times, in symbols (R256). -/
def skewLimit : Nat := 32 * 33

/-- An ALIGN round meets the conditions of R256: every lane of the set carries an ALIGN that names its own l, with the
current set_id and one round count, within the skew tolerance. A lane's content is used while it is usable (R224). -/
def GrLanes.roundGood (g : GrLanes) (now : Nat) (blocks : List AlignBlock) : Bool :=
  let got (l : Nat) := blocks.find? fun b => b.lane == l && (g.phy l).usable now
  let lanes := onesOf 16 g.mask
  let first := lanes.head?.bind got
  lanes.all fun l =>
    match got l, first with
    | some b, some f => b.l == l && b.setId == g.setId && b.count == f.count &&
        (lanes.filterMap got).all fun x => x.at_ ≤ b.at_ + skewLimit
    | _, _ => false

/-- An ALIGN round arrives (R256); once aligned, a CREDIT that has waited for it may leave (R261). -/
def Chip.alignRound (c : Chip) (d : DieId) (blocks : List AlignBlock) : Chip :=
  let g := (c.die d).gr
  if g.mask = 0 || g.setDue then c
  else if g.roundGood c.now blocks then
    (c.onGr d fun g => { g with
      aligned := true, alignAt := c.now, alignCount := blocks.head?.map (·.count) }).tryCredit d
  else if g.aligned then c.deskewLost d
  else c

/-- The ALIGN rounds of a tick are judged at its end: they are ignored if a lane of the set has lost lock in it (R276). -/
def Chip.judgeAlign (c : Chip) (d : DieId) : Chip :=
  let due := (c.die d).gr.alignDue
  if due.isEmpty then c
  else (c.onGr d fun g => { g with alignDue := [] }).forEach due fun c blocks => c.alignRound d blocks

/-! ### Training (R263) -/

/-- A TRAIN frame is to leave on a GR_TX lane. A lane that is not the return lane sleeps between TRAIN frames, and wakes 2 µs
before (R244, R258); the tick at which it leaves is answered too. -/
def Chip.sendGrTrain (c : Chip) (d : DieId) (l aux : Nat) : Nat × Chip :=
  let g := (c.die d).gr
  let awake := l = g.returnLane && g.returnAwake
  let at' := if awake then max c.now (g.wokeAt + 2 * usTicks) else c.now + 2 * usTicks
  (at', c.onGr d fun g => { (if awake then g else g.onPhy l fun p => p.wake c.now) with
    trainOut := g.trainOut ++ [(l, aux, at')] })

/-- TRAIN frames leave as they fall due, once a set change that is due has been announced. -/
def Chip.flushGrTrain (c : Chip) (d : DieId) : Chip :=
  let g := (c.die d).gr
  if g.trainOut.isEmpty || g.setDue then c
  else
    let due := g.trainOut.filter fun f => f.2.2 ≤ c.now
    (c.onGr d fun g => { g with trainOut := g.trainOut.filter fun f => c.now < f.2.2 }).forEach due fun c f =>
      c.emit (.grTrain d f.1 (frameHeader 0 0 5 0 false 0 false 0 f.2.1) (c.grPos d f.1))

/-- A GR_RX is to be trained; a lane of the set is removed from it first, with `reason`, or by the set change that is due
after a loss of lock. -/
def Chip.startGrTrain (c : Chip) (d : DieId) (l : Nat) (recal : Bool) (reason : Option Nat) : Chip :=
  let g := (c.die d).gr
  if g.training.any (·.lane == l) then c
  else
    let c1 := c.onGr d fun g => { g with training := g.training ++ [⟨l, 0, c.now, none, recal⟩] }
    let c2 := match reason with
      | some r => if nbit g.mask l then c1.changeSet d r else c1
      | none => c1
    let r := c2.sendGrTrain d l 0
    r.2.onGr d fun g => { g with training := g.training.map fun y => if y.lane == l then { y with at_ := r.1 } else y }

/-- The verdict on a lane's training. -/
def Chip.grVerdict (c : Chip) (d : DieId) (t : GrTrain) : Chip :=
  let c1 := (c.onGr d fun g => { g with training := g.training.filter (·.lane != t.lane) })
  let c2 := match t.best with
    | some b => ((c1.onGr d fun g => g.onPhy t.lane fun p =>
        { p with failed := false, preset := b.2.2, eyeH := min 255 b.1, eyeW := min 63 b.2.1 }).sendGrTrain d t.lane
          (0x80 + b.2.2)).2
    | none => ((c1.onGr d fun g => g.onPhy t.lane fun p => { p with failed := true }).sendGrTrain d t.lane 0xFF).2
  let c3 := c2.changeSet d 5
  if t.recal then c3.recalEnds d 1 false else c3

/-- The measurement of a preset ends (R249, R263). -/
def Chip.grTrainStep (c : Chip) (d : DieId) (t : GrTrain) (eyeH eyeW errors : Nat) : Chip :=
  let better := c.eyeOk d eyeH eyeW errors && (match t.best with
    | none => true
    | some b => b.1 < eyeH)
  let t1 := { t with best := if better then some (eyeH, eyeW, t.preset) else t.best }
  if t.preset = 7 then c.grVerdict d t1
  else
    let r := c.sendGrTrain d t.lane (t.preset + 1)
    r.2.onGr d fun g => { g with training := g.training.map fun y =>
      if y.lane == t.lane then { t1 with preset := t.preset + 1, at_ := r.1 } else y }

/-- A command trains a lane, a failed one too. -/
def Chip.grTrainCommand (c : Chip) (d : DieId) (l : Nat) : Chip := c.startGrTrain d l false (some 4)

/-- A GR_TX lane other than the return lane sleeps except while it carries TRAIN frames (R258). -/
def GrLanes.txAsleep (g : GrLanes) (l : Nat) : Bool :=
  if l = g.returnLane then !g.returnAwake else !(g.trainOut.any (·.1 == l))

/-! ### Receivers (R224, R245) -/

/-- Change the PHY of a blanker or Grist lane of a die. -/
def Chip.onPhy (c : Chip) (d : DieId) (grist : Bool) (l : Nat) (f : Phy → Phy) : Chip :=
  if grist then c.onGr d (·.onPhy l f) else c.onBlnk d (·.onPhy l f)

/-- The PHY of a blanker or Grist lane of a die. -/
def Chip.phy (c : Chip) (d : DieId) (grist : Bool) (l : Nat) : Phy :=
  if grist then (c.die d).gr.phy l else (c.die d).blnk.phy l

/-- A local lane exists. -/
def Chip.hasLane (c : Chip) (d : DieId) (grist : Bool) (l : Nat) : Bool :=
  c.hasDie d && l < (if grist then 16 else 68)

/-- A GR_RX has lost a lock outside settling: the set is to change, and the lane is trained (R260, R263). -/
def Chip.grLockLost (c : Chip) (d : DieId) (l : Nat) : Chip :=
  let g := (c.die d).gr
  let c1 := if nbit g.mask l then c.onGr d fun g => { g with setDue := true } else c
  if c.flag d F.PHY_GR_CTRL_auto_retrain && !(g.phy l).failed then c1.startGrTrain d l false none else c1

/-! ### The return lane (R258, R259) -/

/-- Every GR_RX of the set has its adaptation frozen. -/
def GrLanes.allFrozen (g : GrLanes) : Bool := (onesOf 16 g.mask).all fun l => (g.phy l).frozen

/-- No round passes while every GR_RX of the set is frozen: the host's lanes sleep (R256, R259). -/
def Chip.holdRounds (c : Chip) (d : DieId) : Chip :=
  let g := (c.die d).gr
  if g.aligned && g.allFrozen then c.onGr d fun g => { g with alignAt := g.alignAt + 1 } else c

/-- A FIGURES block waits for its verify outcome. -/
def Grist.verifyPending (g : Grist) : Bool :=
  (g.stripes ++ g.gone).any fun t => t.blocks.any fun b => b.held && (b.state == .waiting || b.state == .verifying)

/-- A message waits, or a CREDIT has become due (R76). -/
def Chip.messageDue (c : Chip) (d : DieId) : Bool :=
  let g := (c.die d).grist
  !g.returnQ.isEmpty || (g.creditDirty && c.flag d F.GRIST_CTRL_enable && ((c.die d).gr.aligned || !g.restart) &&
    usTicks ≤ c.sinceTick g.creditAt)

/-! ### What a receiver sees (R224, R246) -/

/-- Idle blocks in error are counted (R246). -/
def Chip.countIdle (c : Chip) (d : DieId) (grist : Bool) (l blocks bits : Nat) : Chip :=
  if blocks = 0 then c
  else if grist then
    (c.onDie d (·.bumpBy (F.PHY_GR_PRBS_blocks.at l) blocks)).onDie d (·.bumpBy (F.PHY_GR_PRBS_bits.at l) bits)
  else (c.onDie d (·.bumpBy (F.PHY_BL_PRBS_blocks.at l) blocks)).onDie d (·.bumpBy (F.PHY_BL_PRBS_bits.at l) bits)

/-- Blocks reach a receiver that neither is frozen nor settles (R224, R245): its locks follow from them, idle blocks in error
are counted, and a lock lost has its consequences (R247, R260). On a GR_RX every block with header 0b01 outside a Grist
block is idle (R253): a START or END counts from the next block of the lane that carries it, and on the other lanes from the next
run of blocks (log entry 44). -/
def Chip.receiveLine (c : Chip) (d : DieId) (grist : Bool) (l skip : Nat) (blocks : List LineBlock) : Chip :=
  let p := c.phy d grist l
  if !c.hasLane d grist l || !p.steady c.now then c
  else
    let r := p.receive grist (!grist || (c.die d).gr.rx.isNone) skip blocks
    let q := r.phy
    let c1 := (c.onPhy d grist l fun _ => q).countIdle d grist l r.blocks r.bits
    if grist then if (p.blockLock && !q.blockLock) || (p.descLock && !q.descLock) then c1.grLockLost d l else c1
    else if p.blockLock && !q.blockLock && c.flag d F.BLNK_CTRL_auto_retrain then c1.callTraining d l false false else c1

/-! ### Registers -/

/-- Write of PHY_GR_CTRL (R260). -/
def Chip.writeGrCtrl (c : Chip) (d : DieId) (v : Word) : Chip :=
  let was := c.fld d F.PHY_GR_CTRL_lane_en
  let c1 := c.onDie d (·.setReg 0x0C0800 (v &&& 0x0017FFFF))
  if bit v 19 || bits v 15 0 != was then c1.changeSet d 4 else c1

/-! ### Meanings -/

/-- RX_BLOCK_LOCK_GAIN (R224, R245). -/
def execRxBlockLockGain (d : DieId) (grist : Bool) (lane skip : Nat) (blocks : List LineBlock) (s : State) : Res :=
  s.nextChip fun c => c.receiveLine d grist lane skip blocks

/-- RX_BLOCK_LOCK_LOSS (R224, R247, R260). -/
def execRxBlockLockLoss (d : DieId) (grist : Bool) (lane skip : Nat) (blocks : List LineBlock) (s : State) : Res :=
  s.nextChip fun c => c.receiveLine d grist lane skip blocks

/-- DESCRAMBLER_LOCK_GAIN (R224). -/
def execDescramblerLockGain (d : DieId) (grist : Bool) (lane skip : Nat) (blocks : List LineBlock) (s : State) : Res :=
  s.nextChip fun c => c.receiveLine d grist lane skip blocks

/-- DESCRAMBLER_LOCK_LOSS (R224, R260). -/
def execDescramblerLockLoss (d : DieId) (grist : Bool) (lane skip : Nat) (blocks : List LineBlock) (s : State) : Res :=
  s.nextChip fun c => c.receiveLine d grist lane skip blocks

/-- TRANSITION_WINDOW_END (R245, R246): trans_min acts as 1 when 0. -/
def execTransitionWindowEnd (d : DieId) (grist : Bool) (lane transitions skip : Nat) (blocks : List LineBlock) (s : State) :
    Res :=
  s.nextChip fun c =>
    if !c.hasLane d grist lane then c
    else
      (c.receiveLine d grist lane skip blocks).onPhy d grist lane
        (·.window (max 1 (c.fld d F.PHY_DFE_CFG_trans_min) ≤ transitions) c.now)

/-- ALIGN_ROUND (R256): judged at the end of the tick (R276). -/
def execAlignRound (d : DieId) (blocks : List AlignBlock) (s : State) : Res :=
  s.nextChip fun c => if c.hasDie d then c.onGr d fun g => { g with alignDue := g.alignDue ++ [blocks] } else c

/-- Ticks in which 4,096 rounds of 33 symbols have passed (R221, R256). -/
def alignTicks : Nat := 4806

/-- DESKEW_TIMEOUT (R256): no ALIGN round in 4,096. -/
def execDeskewTimeout (d : DieId) (s : State) : Res :=
  s.nextChip fun c =>
    if (c.die d).gr.aligned && alignTicks ≤ c.sinceTick (c.die d).gr.alignAt then c.deskewLost d else c

/-- LANE_SET_CHANGE (R260, R261): a lane of the set has lost lock. -/
def execLaneSetChange (d : DieId) (s : State) : Res :=
  s.nextChip fun c => if (c.die d).gr.setDue then c.changeSet d 2 else c

/-- LANE_MESSAGE_RESEND (R260): every 100 µs until the die is aligned on a set that it has announced. -/
def execLaneMessageResend (d : DieId) (s : State) : Res :=
  s.nextChip fun c =>
    let g := (c.die d).gr
    if g.reason ≠ 0 && !g.aligned && 100 * usTicks ≤ c.sinceTick g.laneMsgAt then c.sendLane d else c

/-- RETURN_LANE_SLEEP (R259). -/
def execReturnLaneSleep (d : DieId) (s : State) : Res :=
  s.nextChip fun c =>
    if (c.die d).gr.returnAwake && (c.die d).gr.allFrozen && !c.messageDue d && !(c.die d).grist.verifyPending then
      c.onGr d fun g => { g with returnAwake := false }
    else c

/-- RETURN_LANE_WAKE (R259). -/
def execReturnLaneWake (d : DieId) (s : State) : Res :=
  s.nextChip fun c =>
    if !(c.die d).gr.returnAwake && (!(c.die d).gr.allFrozen || c.messageDue d) then
      c.onGr d fun g => { (g.onPhy g.returnLane fun p => p.wake c.now) with
        returnAwake := true, wokeAt := c.now, creditFirst := true }
    else c

/-- GRIST_RESYNC (R260): the write of PHY_GR_CTRL with resync = 1. -/
def execGristResync (_m : Master) (d : DieId) (v : Word) (s : State) : Res :=
  s.nextBus fun c => if c.hasDie d then c.writeGrCtrl d (v ||| 0x00080000) else c

/-- GRIST_LANE_EN_WRITE (R260). -/
def execGristLaneEnWrite (_m : Master) (d : DieId) (v : Word) (s : State) : Res :=
  s.nextBus fun c => if c.hasDie d then c.writeGrCtrl d v else c

/-- GRIST_LANE_TRAIN_COMMAND (R263). -/
def execGristLaneTrainCommand (_m : Master) (d : DieId) (lane : Nat) (s : State) : Res :=
  s.nextBus fun c => if c.hasDie d && lane < 16 then c.grTrainCommand d lane else c

/-- GRIST_TRAIN_STEP_END (R263): adapt_ms and measure_ms act as 1 when 0. -/
def execGristTrainStepEnd (d : DieId) (lane eyeH eyeW errors : Nat) (s : State) : Res :=
  s.nextChip fun c =>
    match (c.die d).gr.training.find? (·.lane == lane) with
    | none => c
    | some t =>
      if (max 1 (c.fld d F.PHY_TRAIN_CFG_adapt_ms) + max 1 (c.fld d F.PHY_TRAIN_CFG_measure_ms)) * msTicks ≤
        c.sinceTick t.at_
      then c.grTrainStep d t eyeH eyeW errors else c

end Sys2Proof.Machine
end

