-- ==== Sys2Proof/Machine/Position.lean ====
section
/-! DEFINITION. The position channels of die W (chapter 6, R166 to R174): word checks, channel states, velocity and speed
estimators, and the extrapolated position. -/

namespace Sys2Proof.Machine

/-! ### Speed states (R173), shared by the position channels and the auxiliary encoders (R216) -/

/-- +1 or -1. -/
def dirSign (fwd : Bool) : Int := if fwd then 1 else -1

/-- The longest run of latest words, newest first, whose positions lie within a band of one value: their spread is at
most twice the band. -/
def restRun (n band : Nat) : List (Nat × Nat) → List (Nat × Nat)
  | [] => []
  | (p, t) :: l =>
    let rec go (lo hi : Int) : List (Nat × Nat) → List (Nat × Nat)
      | [] => []
      | (q, u) :: l =>
        let x := sdiff n q p
        let lo' := min lo x
        let hi' := max hi x
        if hi' - lo' ≤ 2 * (band : Int) then (q, u) :: go lo' hi' l else []
    (p, t) :: go 0 0 l

/-- Entry to moving, with e at the position; the time of the timeout counts from here (log entry 31). -/
def SpeedTrack.move (s : SpeedTrack) (fwd : Bool) (p : Nat) : SpeedTrack :=
  { s with speed := .moving fwd, ref := p, beyond := 0, reports := 0, rest := [] }

/-- A word beyond the band in a direction is counted; a second one in a row in that direction moves (R173). -/
def SpeedTrack.count (s : SpeedTrack) (fwd : Bool) (p : Nat) : SpeedTrack :=
  if 1 ≤ s.beyond && s.beyondFwd == fwd then s.move fwd p else { s with beyond := 1, beyondFwd := fwd }

/-- The table of R173 at an accepted word of `n` bits, but for the timeout. -/
def SpeedTrack.word (s : SpeedTrack) (n band p t : Nat) : SpeedTrack :=
  let d := sdiff n p s.ref
  let s1 := match s.speed with
    | .still => if (band : Int) < d then s.count true p else if d < -(band : Int) then s.count false p else { s with beyond := 0 }
    | .moving fwd =>
      let f := dirSign fwd * d
      if 0 < f then { s with ref := p, beyond := 0 }
      else if f < -(band : Int) then s.count (!fwd) p
      else { s with beyond := 0 }
  { s1 with rest := restRun n band ((p, t) :: s1.rest) }

/-- v_s of R173: v_raw while its sign is that of the movement, otherwise 0. -/
def SpeedTrack.speedOf (s : SpeedTrack) (raw : Int) : Int :=
  match s.speed with
  | .still => 0
  | .moving fwd => if 0 < dirSign fwd * raw then raw else 0

/-- The provisional flag of the report at this word, and the report counted. -/
def SpeedTrack.report (s : SpeedTrack) : Bool × SpeedTrack :=
  match s.speed with
  | .still => (false, s)
  | .moving _ => (s.reports < 8, { s with reports := s.reports + 1 })

/-- The position has stayed within the band for a time (R173). -/
def SpeedTrack.rested (s : SpeedTrack) (n timeout : Nat) : Bool :=
  match s.rest with
  | [] => false
  | (_, t) :: l => (timeout : Int) ≤ sdiff n t (((t, t) :: l).getLast?.map (·.2) |>.getD t)

/-- To still, with ref at the position. -/
def SpeedTrack.settle (s : SpeedTrack) (p : Nat) : SpeedTrack := { s with speed := .still, ref := p, beyond := 0 }

/-- speed_state code (SLOT_POS_STATE_n). -/
def Speed.code : Speed → Nat
  | .still => 0
  | .moving true => 1
  | .moving false => 2

/-! ### Channels -/

/-- A position channel: 0 PX, 1 PY, 2 PYAW. -/
def Chip.chan (c : Chip) (n : Nat) : Chan :=
  match n with
  | 0 => c.chans.px
  | 1 => c.chans.py
  | _ => c.chans.pyaw

/-- Change a position channel. -/
def Chip.onChan (c : Chip) (n : Nat) (f : Chan → Chan) : Chip :=
  match n with
  | 0 => { c with chans := { c.chans with px := f c.chans.px } }
  | 1 => { c with chans := { c.chans with py := f c.chans.py } }
  | _ => { c with chans := { c.chans with pyaw := f c.chans.pyaw } }

/-- Change the scheduler. -/
def Chip.onSched (c : Chip) (f : Sched → Sched) : Chip := { c with sched := f c.sched }

/-- The scheduler of this module is in use: standalone, or the buck of a herd (R364). -/
def Chip.schedHere (c : Chip) : Bool := c.herd.role == .standalone || c.herd.role == .buck

/-- The channel's state at the start of this tick (R190). -/
def Chan.stateAtStart (x : Chan) (now : Nat) : ChanState := if x.changedAt == some now then x.was else x.state

/-- The channel was valid at the start of this tick. -/
def Chan.validStart (x : Chan) (now : Nat) : Bool := x.stateAtStart now == .valid

/-- The channel's speed state at the start of this tick (R190). -/
def Chan.speedAtStart (x : Chan) (now : Nat) : Speed := if x.trackedAt == some now then x.speedWas else x.track.speed

/-- A new state, with what it was at the start of the tick. -/
def Chan.toState (x : Chan) (now : Nat) (s : ChanState) : Chan :=
  { x with
    state := s, rearmed := false
    was := x.stateAtStart now, changedAt := some now
    prevSeq := if s == .noLock then none else x.prevSeq }

/-- The stripe being exposed ends early in this tick; a first cause stands, but a closing gate replaces it (R318). -/
def Chip.endEarly (c : Chip) (cause : Nat) : Chip :=
  if c.sched.mode == .exposing && (c.sched.ending.isNone || cause == 0x0C) then
    c.onSched fun x => { x with ending := some cause }
  else c

/-- A channel changes its state: the position-channel event, and an early end when it leaves valid (R169, R187). -/
def Chip.setChan (c : Chip) (n : Nat) (s : ChanState) : Chip :=
  let was := (c.chan n).state
  if was == s then c
  else
    let c1 := (c.onChan n (·.toState c.now s)).raise .w 110
    if was == .valid then c1.endEarly 0x0F else c1

/-- Effective time of a word stamped now (R168). -/
def Chip.wordTime (c : Chip) : Nat := (c.tick48 + m48 - c.fld .w F.SLOT_POS_CTRL_pos_lat_ns) % m48

/-- Position in 2^-32 counts that an extrapolation gives at a time (R174). -/
def Extrap.at' (e : Extrap) (t : Nat) : Int := (e.pos : Int) * 2 ^ 32 + e.v * sdiff 48 t e.t

/-- The extrapolation in force: a word acts from the tick after its stamp. -/
def Chan.inForce (x : Chan) (now : Nat) : Extrap := if x.cur.since ≤ now then x.cur else x.old

/-- The extrapolated position p̂ of a channel (R174). In state lost, which begins coast_ns after the last accepted word, R171 has
it go on for up to coast_ns; the model sets it no end there (DESIGN CHOICE, log entry 77). -/
def Chip.pHat (c : Chip) (n : Nat) : Int := ((c.chan n).inForce c.now).at' c.tick48

/-- v_s in force. -/
def Chip.vS (c : Chip) (n : Nat) : Int := ((c.chan n).inForce c.now).v

/-- Integer part of p̂, modulo 2^48. -/
def Chip.pInt (c : Chip) (n : Nat) : Nat := toBits 48 (asr (c.pHat n) 32)

/-! ### Word checks (R169) -/

/-- Fields of a position word (R167). -/
def wordPos (b : List Nat) : Nat := leAt b 0 6
def wordFlag (b : List Nat) (i : Nat) : Bool := nbit (leAt b 6 1) i
def wordSeq (b : List Nat) : Nat := leAt b 6 1 / 16

/-- Check 6: the position differs from the extrapolated one by more than jump_limit. R169 does not say how a fraction of a count
in the extrapolated position counts: its integer part is compared (DESIGN CHOICE, log entry 77). -/
def Chip.jumps (c : Chip) (n p : Nat) : Bool :=
  let x := c.chan n
  match x.track.speed with
  | .still => false
  | .moving _ =>
    (x.state == .valid || x.state == .lost) &&
    c.fld .w F.SLOT_LIMITS_jump_limit < (sdiff 48 p (toBits 48 (asr (x.cur.at' c.wordTime) 32))).natAbs

/-- The raw velocity of R172 over the words of a span, newest first. -/
def rawVelocity (span : Nat) (words : List (Nat × Nat)) : Option Int :=
  match words.head?, (words.take (span + 1)).getLast? with
  | some (p, t), some (q, u) =>
    if words.length ≤ 1 then some 0
    else if sdiff 48 t u = 0 then none
    else some (divZ (sdiff 48 p q * 2 ^ 32) (sdiff 48 t u))
  | _, _ => some 0

/-- dmax and reversal (R180): an accepted scan word while exposing. -/
def Chip.scanWord (c : Chip) (n p : Nat) : Chip :=
  let x := c.sched
  if x.mode != .exposing || x.axis != n then c
  else
    let d := dirSign (x.sense == 0) * sdiff 48 p x.start
    match x.dmax with
    | none => c.onSched fun y => { y with dmax := some d }
    | some m =>
      if m < d then c.onSched fun y => { y with dmax := some d }
      else if (c.fld .w F.SLOT_LIMITS_rev_thresh : Int) < m - d then c.endEarly 0x0E
      else c

/-- A new speed state, with what it was at the start of the tick (R190). -/
def Chan.toTrack (x : Chan) (now : Nat) (s : SpeedTrack) : Chan :=
  { x with track := s, speedWas := x.speedAtStart now, trackedAt := some now }

/-- An accepted word of a valid channel is tracked (R172, R173); equal times give no quotient, and the value is open. -/
def Chip.trackWord (c : Chip) (n p t : Nat) : Chip :=
  let x := c.chan n
  let words := ((p, t) :: x.words).take 65
  let raw := rawVelocity (c.fld .w F.SLOT_TRACK_vel_span_m1 + 1) words
  let v := (raw.getD (toSigned 64 c.fresh.1))
  let c1 := if raw.isNone then c.fresh.2 else c
  let tr := (x.track.word 48 (c.fld .w F.SLOT_SPEED_CFG_hyst) p t).report
  c1.onChan n fun x => { x.toTrack c.now tr.2 with
    words := words, provisional := tr.1
    old := x.inForce c.now, cur := ⟨p, t, tr.2.speedOf v, c.now + 1⟩ }

/-- The speed state and the span start afresh (R170). -/
def Chan.afresh (x : Chan) (p : Nat) : Chan := { x with words := [], track := { SpeedTrack.reset with ref := p } }

/-- A word that passed every check is accepted (R169, R170). One accepted in no lock or invalid that does not take the channel to
valid is not fed to the estimators of R172 and R173, which R170 has start afresh at the entry to valid: SLOT_SPEED_n and the
speed state stay as they were (DESIGN CHOICE, log entry 77). -/
def Chip.acceptWord (c : Chip) (n : Nat) (b : List Nat) : Chip :=
  let p := wordPos b
  let c1 := (if wordFlag b 1 then c.bump .w (F.SLOT_POS_ERR_weak.at n) else c).onChan n fun x =>
    { x with pos := p, stamp := c.tick48, status := leAt b 6 1 % 16, seq := wordSeq b }
  let track (c : Chip) : Chip := (c.trackWord n p c.wordTime).scanWord n p
  match (c.chan n).state with
  | .valid => track c1
  | .lost => track (c1.setChan n .valid)
  | .noLock => if wordFlag b 2 then track ((c1.setChan n .valid).onChan n (·.afresh p)) else c1
  | .invalid =>
    if wordFlag b 2 && (c.chan n).rearmed then track ((c1.setChan n .valid).onChan n (·.afresh p)) else c1
  | .off => c1

/-- A word that passed checks 1 to 3 is received (R169). A word that fails check 4 counts its gap and is judged by checks 5 and 6
all the same, though R169 has the first failing check give the outcome, which for check 4 is 'word accepted' (DEDUCED, log
entry 77). -/
def Chip.receiveWord (c : Chip) (n : Nat) (b : List Nat) : Chip :=
  let x := c.chan n
  let seq := wordSeq b
  let missing := match x.prevSeq with
    | some q => (seq + 31 - q) % 16
    | none => 0
  let c1 := (c.onDie .w (·.bumpBy (F.SLOT_POS_ERR_gaps.at n) missing)).onChan n fun x =>
    { x with prevSeq := some seq, refSeen := x.refSeen || wordFlag b 2 }
  if wordFlag b 0 || (!wordFlag b 2 && x.refSeen) || c.jumps n (wordPos b) then
    (c1.bump .w F.SLOT_POS_FAULT_COUNT_count).setChan n .invalid
  else c1.acceptWord n b

/-- A complete word on a channel (R169): `errors` are the places of its symbols with coding errors, 0 for the start symbol;
`control` says that a control symbol falls among its data symbols. -/
def Chip.positionWord (c : Chip) (n : Nat) (errors : List Nat) (control : Bool) (b : List Nat) : Chip :=
  if !errors.isEmpty || control || b.length ≠ 9 then (c.bump .w (F.SLOT_POS_ERR_coding.at n)).raise .w 110
  else if leAt b 7 2 ≠ crc16 (b.take 7) || wordFlag b 3 then (c.bump .w (F.SLOT_POS_ERR_crc.at n)).raise .w 110
  else c.receiveWord n b

/-! ### Enables (SLOT_POS_CTRL, R170) -/

/-- Write of SLOT_POS_CTRL. -/
def Chip.writePosCtrl (c : Chip) (v : Word) : Chip :=
  let c1 := c.onDie .w (·.setReg 0x08001C (v &&& 0x0FFF0007))
  c1.forEach [0, 1, 2] fun c n =>
    let x := c.chan n
    if !bit v n then c.setChan n .off
    else
      let c2 := if x.state == .off then
          (c.setChan n .noLock).onChan n fun x => { x with refSeen := false, prevSeq := none }
        else c
      if bit v (4 + n) && x.state == .invalid then c2.onChan n fun x => { x with rearmed := true } else c2

/-- SLOT_POS_CTRL with some bits changed. -/
def Chip.posCtrlWith (c : Chip) (lo : Nat) (b : Bool) : Chip :=
  c.writePosCtrl (word (setNbit (c.w.reg 0x08001C).toNat lo b))

/-- Symbols seen by a receiver, the last of them in this tick and the others 5 ns apart before it (R166): coding errors among
its last 64, and the last K28.1 or K28.5. -/
def Chan.hear (x : Chan) (l : List PosSymbol) (now : Nat) : Chan :=
  { x with
    errors := ((l.map (· == .error)).reverse ++ x.errors).take 64
    commaAt := match l.reverse.findIdx? (· == .comma) with
      | some i => now - 5 * i
      | none => x.commaAt }

/-- The symbols of a word with coding errors at some places. -/
def wordSymbols (errors : List Nat) : List PosSymbol :=
  (List.range 10).map fun i => if errors.contains i then .error else if i = 0 then .comma else .data

/-- The receiver leaves lock: 4 coding errors in 64 symbols, or 1 µs without K28.1 or K28.5 (R166). -/
def Chan.unlocks (x : Chan) (now : Nat) : Bool := 4 ≤ (x.errors.filter id).length || x.commaAt + usTicks ≤ now

/-- The receiver of a channel leaves lock (R166, R170). -/
def Chip.loseLock (c : Chip) (n : Nat) : Chip :=
  let c1 := c.onChan n fun x => { x with lock := false }
  if (c.chan n).state == .valid || (c.chan n).state == .lost then c1.setChan n .noLock else c1

/-! ### Meanings -/

/-- The receiver of a channel has seen symbols, and leaves lock if they call for it (R166). -/
def Chip.hearSymbols (c : Chip) (n : Nat) (l : List PosSymbol) : Chip :=
  let c1 := c.onChan n (·.hear l c.now)
  if (c1.chan n).unlocks c.now then c1.loseLock n else c1

/-- POSITION_WORD (R166, R169): words of a channel that is off or in a clock fault (R40) are not checked; a receiver in lock
hears their symbols all the same. -/
def execPositionWord (ch : Nat) (errors : List Nat) (control : Bool) (bytes : List Nat) (s : State) : Res :=
  s.nextChip fun c =>
    if ch < 3 && (c.chan ch).lock then
      (if c.schedHere && (c.chan ch).state != .off && !c.w.clockFault then c.positionWord ch errors control bytes
        else c).hearSymbols ch (wordSymbols errors)
    else c

/-- POSITION_LOCK_ACQUIRE (R166): a first K28.1 or K28.5 at a consistent symbol boundary. -/
def execPositionLockAcquire (ch : Nat) (s : State) : Res :=
  s.nextChip fun c =>
    if ch < 3 && !(c.chan ch).lock then
      c.onChan ch fun x => { x with lock := true, errors := [], commaAt := c.now }
    else c

/-- POSITION_LOCK_LOSS (R166, R170): symbols between words, or none of them, take the receiver out of lock. -/
def execPositionLockLoss (ch : Nat) (symbols : List PosSymbol) (s : State) : Res :=
  s.nextChip fun c => if ch < 3 && (c.chan ch).lock then c.hearSymbols ch symbols else c

/-- COAST_EXPIRY (R170, R171): coast_ns below 100 acts as 100. -/
def execCoastExpiry (ch : Nat) (s : State) : Res :=
  s.nextChip fun c =>
    if ch < 3 && (c.chan ch).state == .valid &&
      (max 100 (c.fld .w F.SLOT_TRACK_coast_ns) : Nat) ≤ sdiff 48 c.tick48 (c.chan ch).stamp
    then c.setChan ch .lost else c

/-- STILL_TIMEOUT (R173): still_timeout_us of 0 acts as 1. -/
def execStillTimeout (ch : Nat) (s : State) : Res :=
  s.nextChip fun c =>
    let x := c.chan ch
    if ch < 3 && x.state == .valid && x.track.speed != .still &&
      x.track.rested 48 (max 1 (c.fld .w F.SLOT_SPEED_CFG_still_timeout_us) * usTicks)
    then c.onChan ch fun x => { x.toTrack c.now (x.track.settle x.pos) with
      old := x.inForce c.now, cur := { x.cur with v := 0, since := c.now + 1 } }
    else c

/-- CHANNEL_ENABLE (R170): the write of SLOT_POS_CTRL that sets the channel's enable, the other fields as they are. -/
def execChannelEnable (_m : Master) (ch : Nat) (s : State) : Res :=
  s.nextBus fun c => if ch < 3 && c.schedHere then c.posCtrlWith ch true else c

/-- CHANNEL_DISABLE (R170). -/
def execChannelDisable (_m : Master) (ch : Nat) (s : State) : Res :=
  s.nextBus fun c => if ch < 3 && c.schedHere then c.posCtrlWith ch false else c

/-- CHANNEL_REARM (R170). -/
def execChannelRearm (_m : Master) (ch : Nat) (s : State) : Res :=
  s.nextBus fun c => if ch < 3 && c.schedHere then c.posCtrlWith (4 + ch) true else c

end Sys2Proof.Machine
end

