-- ==== Sys2Proof/Machine/Slot.lean ====
section
/-! DEFINITION. What a slot does on the dies of a module (chapter 6, R181 to R189, with R29, R39, R86, R137, R142, R143,
R230, R235 and R375): the start of a stripe, the firing of a slot, and the end of a stripe. The scheduler, or the buck's
SLOT message, says what happens; `Chip.actSlot` carries it out. -/

namespace Sys2Proof.Machine

/-! ### Sync messages (R366) -/

/-- A sync message leaves on both sync links under the module's next sequence number. -/
def Chip.sendSync (c : Chip) (m : SyncMsg) : Chip :=
  let seq := c.herd.seq
  let c1 := { c with herd := { c.herd with seq := seq + 1 } }
  (c1.emit (.sync false c.herd.addr seq 0 m)).emit (.sync true c.herd.addr seq 0 m)

/-! ### Die E (R29, R40) -/

/-- Die W's slots reach a die. -/
def Chip.slotsReach (c : Chip) (d : DieId) : Bool := d == .w || c.evuneUp

/-- The cause under which a die stays blanked until a stripe start (R29, R39), if it does. -/
def Die.holdCause (x : Die) : Option Nat := if x.hold = 0 then none else some x.hold

/-- Die E's beams are covered by die W's log: the cause, of the lost link before that of a clock fault (R29, R40). -/
def Chip.eCause (c : Chip) : Option Nat :=
  if !c.two then none
  else if !c.evuneUp then some 0x11
  else if c.e.clockFault then some 0x18
  else c.e.holdCause

/-- The cause under which a die is held blanked, while it is. -/
def Chip.heldCause (c : Chip) (d : DieId) : Option Nat :=
  match d with
  | .w => c.w.holdCause
  | .e => c.eCause

/-- Slots of die E's stripe that have fired and whose trigger has not left are dark once die E is held blanked: die W's log
covers them (R29, R40, R41). -/
def Chip.reportUnsent (c : Chip) : Chip :=
  match c.heldCause .e, c.w.view with
  | some q, some v =>
    c.forEach ((c.e.blnk.groups.flatMap (·.slots)).filter fun r => !r.sent && !r.go.isEmpty) fun c r =>
      match r.k with
      | some k =>
        if (v.s0 + k) % m48 == r.slot then c.reportCycle .w v (covDie .e) q (c.slotSpan .e v q k k) else c
      | none => c
  | _, _ => c

/-- All-zero frames leave on die E's lanes while no slot of die W reaches it (R29). When they leave is not specified: the
model sends one DATA frame on each lane as the link goes down, and one at each slot that die W fires (DESIGN CHOICE, log
entry 16); which slot number they carry is an open value. -/
def Chip.zeroFrames (c : Chip) : Chip :=
  let r := c.freshBelow (2 ^ 32)
  r.2.emitData .e r.1 false [] c.e.blnk.bankInUse false

/-! ### Unreadable table entries (R299) -/

/-- The span of an active table entry that cannot be read, from stripe slot `ka` on. -/
def Chip.badTableSpan (c : Chip) (d : DieId) (v : View) (a cause ka : Nat) : Span :=
  let s := c.slotSpan d v cause ka (v.slots - 1)
  if 0x900000 ≤ a then s
  else
    let b := if a < 0x880000 then (a - 0x800000) / 4 else (a - 0x880000) / 4
    { s with set := .beam, setIndex := b + 131072 * dieNo d }

/-- The entries of a die that cannot be read are logged for the stripe, each once. -/
def Chip.reportBadTables (c : Chip) (d : DieId) (v : View) (ka : Nat) : Chip :=
  c.forEach (c.die d).badTables fun c p =>
    if (c.die d).badLogged.contains p.1 then c
    else (c.reportSpan d (c.badTableSpan d v p.1 p.2 ka)).onDie d fun x => { x with badLogged := p.1 :: x.badLogged }

/-- The beam map meets the entries that are poison again in a new stripe (R293, R299): each is reported, and logged for the
stripe. -/
def Chip.meetBadTables (c : Chip) (d : DieId) (v : View) : Chip :=
  let c1 := (c.forEach (c.die d).badTables fun c _ => c.sramReadError d .poison 6).onDie d fun x =>
    { x with badTables := x.badTables.map fun p => (p.1, 0x04) }
  c1.reportBadTables d v 0

/-! ### The start of a stripe (R137, R181, R235) -/

/-- Logical lanes that are not failed and for which a bank is not confirmed complete. -/
def Blnk.unconfirmed (x : Blnk) (n : Nat) : List Nat :=
  let b := x.bank n
  (List.range 64).filter fun lam =>
    (x.place lam).state != .failed && !(b.loaded && b.nextSeg == 8 && b.confirmed.contains lam)

/-- The bank that the stripe's frames name: lanes without it stay dark until it is loaded again (R235). While BLNK_CTRL.en
is 0 no trigger is sent and no bank can be loaded, so R235 has nothing to say (R228, R234; DEDUCED, log entry 61). A load that
an echo of this tick completes is not confirmed yet (R251). -/
def Chip.bindBank (c : Chip) (d : DieId) : Chip :=
  c.onBlnk d fun x =>
    let wait := if c.flag d F.BLNK_CTRL_en then (c.startDie d).blnk.unconfirmed x.named else []
    let y := { x with bankInUse := x.named, bankWait := wait, cov := [] }
    if wait.isEmpty then y else y.onBank x.named fun b => { b with lost := true }

/-- A stripe is started on a die that S0 does not reach (R29): its rows stay unwritten. -/
def Chip.startBlind (c : Chip) (d : DieId) (t : Stripe) : Chip :=
  (c.onStripe d t.id fun t => { t with started := true }.markRest 0x11).onJob d t.job fun j => { j with started := j.started + 1 }

/-- The views before the one that binds now: the last, and those that a slot under judgement belongs to (R238). -/
def Die.viewsKept (x : Die) : List View :=
  let slots := x.blnk.groups.flatMap (·.slots)
  x.view.toList ++ x.pastViews.filter fun v => slots.any fun r => match r.k with
    | some k => (v.s0 + k) % m48 == r.slot
    | none => false

/-- S0 on a die: the view binds, the row deadlines up to S0 are judged (R86), and rows that were missing from the frames
of stripe slot 0 are marked (R35, R230). A die that does not hold the stripe keeps the view most recently bound (R139). -/
def Chip.startOn (c : Chip) (d : DieId) (stripe n number : Nat) : Chip :=
  match c.stripe? d stripe with
  | none => c.onDie d fun x => { x with view := x.view.map fun v => { v with exposing := false } }
  | some t =>
    if !c.slotsReach d then c.startBlind d t
    else
      let x := (c.die d).blnk
      let v := c.viewNow d t.id t.job t.vFirst t.count number n x.failedLanes x.named
      let missing := if d = .w then c.sched.missingW else c.sched.missingE
      let c1 := c.onDie d fun x => { x with
        pastViews := x.viewsKept, view := some v, badLogged := [], hold := if x.clockFault || c.w.clockFault then 0x18 else 0
        evl := { x.evl with whole := x.evl.whole.filter fun s => some s.stripe == x.view.map (·.stripe) } }
      let c2 := ((c1.onStripe d t.id fun t => { t with started := true }).onJob d t.job fun j =>
        { j with started := j.started + 1 }).bindBank d
      let c3 := (c2.judgeAtStart d v).onStripe d t.id fun t => missing.foldl (fun t y => t.markRow y 0x13) t
      (c3.meetBadTables d v).dropFinished d

/-! ### The firing of a slot -/

/-- Stripe rows whose last pass ends with stripe slot k. -/
def View.rowsDone (v : View) (k : Nat) : List Nat :=
  let g := v.geo
  if k / g.L + 1 < g.P then []
  else
    ((List.range g.Sy).filter fun wy => g.smax wy == k % g.L).flatMap fun wy =>
      ((List.range g.G).map fun i => ((k / g.L + 1 - g.P) * g.G + i) * g.Sy + wy).filter (· < v.rows)

/-- Lanes whose failure was found since the last slot act from this one (R143, R250). -/
def Chip.applyVerdicts (c : Chip) (d : DieId) (v : View) (k : Option Nat) : Chip :=
  let lams := (c.die d).blnk.verdicts
  let c1 := c.onBlnk d fun x => { x with verdicts := [] }
  match k with
  | none => c1
  | some k =>
    c1.forEach lams fun c lam =>
      (c.reportSpan d (c.laneSpan d v 0x09 lam k (v.slots - 1))).onDie d fun x =>
        { x with view := x.view.map fun v => { v with failedAt := v.failedAt ++ [(lam, k)] } }

/-- Lanes that stay dark in a stripe slot, each with its cause: those without a confirmed bank (R235), and those that train
in place or have not resumed (R248). -/
def Blnk.darkLanes (x : Blnk) (launch : Nat) : List (Nat × Nat) :=
  (x.bankWait.filter fun lam => (x.place lam).state != .failed).map (·, 0x0B) ++
    (x.map.filter fun p => p.2.state == .inPlace || (p.2.state != .failed && launch < p.2.resumeAfter)).map (·.1, 0x17)

/-- The dark lanes of a stripe slot are logged; those of R235 count as missing and raise source 128. -/
def Chip.reportDark (c : Chip) (d : DieId) (v : View) (k launch : Nat) : Chip :=
  let dark := (c.die d).blnk.darkLanes launch
  let waits := (dark.filter (·.2 == 0x0B)).length
  let c1 := c.forEach dark fun c p => c.reportLane d v p.2 p.1 k
  if waits = 0 then c1 else (c1.onDie d (·.bumpBy F.BLNK_ECHO_MISS_COUNT_count waits)).raise d 128

/-- Rows left unwritten in a stripe slot, whatever their kind, are reported (R35, R36, R141, R434, R235, R248). -/
def Chip.reportSlot (c : Chip) (d : DieId) (v : View) (k : Nat) : Chip :=
  let launch := (c.die d).blnk.launchOf ((v.s0 + k) % m48) c.now
  let c1 := (c.reportRows d v k).reportPixels d v k
  let c2 := if d = .w then c1.reportSeam v k else c1
  c2.reportDark d v k launch

/-- Stripe slot 0 of a die has no DATA: its lanes could not launch it after the arming. Like one that comes too soon after the
arming (R230), it is blanked and logged under cause 0x10 (R41). -/
def Chip.noData (c : Chip) (d : DieId) (v : View) (k : Nat) : Bool :=
  k == 0 && c.flag d F.BLNK_CTRL_en && (c.die d).blnk.dataSlot != some v.s0

/-- A stripe slot fires on a die; the deadlines of slot 0 have been judged at S0. Pixels that are not compensable count in a slot
that is blanked whole, too (R141). -/
def Chip.fireStripe (c : Chip) (d : DieId) (v : View) (k : Nat) (blanked : List Nat) : Chip :=
  let held := (c.heldCause d).isSome
  let why := if c.noData d v k && !blanked.contains 0x10 then blanked ++ [0x10] else blanked
  let c1 := (if k = 0 then c else c.judgeSlot d v k).applyVerdicts d v (some k)
  let c2 := c1.forEach (if held then [] else why) fun c cause => c.reportSpan d (c.slotSpan d v cause k k)
  let c3 := if held || why.any wholeDieCause then c2.reportPixels d v k else c2.reportSlot d v k
  let x := (c3.die d).blnk
  let launch := x.launchOf ((v.s0 + k) % m48) c.now
  let go := if held || !why.isEmpty || (c3.die d).mapDead || !v.exposing then []
    else (List.range 64).filter fun lam => !x.bankWait.contains lam && (x.place lam).resumeAfter ≤ launch
  let c4 := c3.recordSlot d ((v.s0 + k) % m48) (some k) go
  (c4.forEach (v.rowsDone k) fun c y => c.tunRowFreed d v.stripe y).dropFinished d

/-! ### Slots of a calibration burst (R392) -/

/-- Physical index of the beam of a burst. -/
def Chip.burstPhys (c : Chip) (d : DieId) (beam : Nat) : Nat := physOf d ((c.die d).tableCopy true) beam

/-- The beam and the code of a burst slot, where it is for a die of this module. -/
def Chip.burstHere (c : Chip) (d : DieId) (burst : Option (Nat × DieId × Nat × Nat)) : Option (Nat × Nat) :=
  match burst with
  | some (id, die, b, code) => if id = c.ownId && die = d then some (b, code) else none
  | none => none

/-- The logical lane that sends GO in a burst slot. -/
def Chip.burstLane (c : Chip) (d : DieId) (m : SlotMsg) : List Nat :=
  match c.burstHere d m.burst with
  | some (b, _) => [laneOfPhys (c.burstPhys d b)]
  | none => []

/-- The DATA frames of a burst slot: the burst code at the beam's position, 0 everywhere else. -/
def Chip.burstData (c : Chip) (d : DieId) (slot beam code endsAt : Nat) : Chip :=
  let p := c.burstPhys d beam
  let codes := if code = 0 then [] else [(laneOfPhys p, posOfPhys p, code, false)]
  (c.emitData d slot false codes (c.die d).blnk.bankInUse (c.now.blt endsAt)).onBlnk d fun x =>
    { x with dataSlot := some slot, dataEnd := endsAt }

/-- DATA of a burst slot that no trigger went ahead of is taken as sent by the time the slot fires (DEDUCED, log entry 50). -/
def Chip.burstFirst (c : Chip) (d : DieId) (m : SlotMsg) : Chip :=
  match c.burstHere d m.burst with
  | some (b, code) => if (c.die d).blnk.dataSlot == some m.number then c else c.burstData d m.number b code c.now
  | none => c

/-- A slot fires on a die: a slot of the stripe, an idle slot, or a slot of a calibration burst. -/
def Chip.fireOn (c : Chip) (d : DieId) (m : SlotMsg) : Chip :=
  let v? := (c.die d).view
  let burst := c.burstLane d m
  let c0 := c.burstFirst d m
  let c1 := match m.exposing, v? with
    | true, some v =>
      if v.exposing then c0.fireStripe d v (sdiff 48 m.number v.s0).toNat m.blanked
      else (c0.applyVerdicts d v none).recordSlot d m.number none burst
    | _, some v => (c0.applyVerdicts d v none).recordSlot d m.number none burst
    | _, none => (c0.onBlnk d fun x => { x with verdicts := [] }).recordSlot d m.number none burst
  c1.switchAt d m.number

/-! ### The end of a stripe -/

/-- Triggers not yet launched of stripe slots from `ka` on are BLANK (R187). -/
def Blnk.cut (x : Blnk) (ka : Nat) : Blnk :=
  { x with groups := x.groups.map fun g => { g with slots := g.slots.map fun r =>
      match r.k with
      | some k => if ka ≤ k && !r.sent then { r with go := [] } else r
      | none => r } }

/-- The stripe of a die's view is over. -/
def Chip.closeView (c : Chip) (d : DieId) : Chip :=
  c.onDie d fun x => { x with view := x.view.map fun v => { v with exposing := false } }

/-- An early end on a die (R187, R40, R313): rows not yet released are marked, the rest of the slots is logged, and no
slot from `ka` on exposes. What die E cannot log, die W does (R29). -/
def Chip.endEarlyOn (c : Chip) (d : DieId) (v : View) (cause : Nat) (ka : Option Nat) : Chip :=
  match ka with
  | none => (c.closeView d).endStripeOn d v.stripe
  | some k =>
    let held := c.heldCause d
    let log := if held.isSome then DieId.w else d
    let q := held.getD cause
    let c1 := (c.onStripe d v.stripe (·.markRest q)).reportSpan log (c.slotSpan d v q k (v.slots - 1))
    ((c1.onBlnk d (·.cut k)).closeView d).endStripeOn d v.stripe

/-- A stripe ends at its last boundary on a die; rows that a held die could not expose are marked (R29). -/
def Chip.endNormalOn (c : Chip) (d : DieId) (id : Nat) : Chip :=
  let c1 := match c.heldCause d with
    | some q => c.onStripe d id (·.markRest q)
    | none => c
  (c1.closeView d).endStripeOn d id

/-- The span of a stripe that is not begun, for a die's beams under the active MAP_GEOM (R183). -/
def Chip.notBegunSpan (c : Chip) (d : DieId) (t : Stripe) (cause number : Nat) : Span :=
  let g := c.activeGeo d
  { job := t.job, stripe := t.id, cause := cause, vFirst := t.vFirst, vLast := t.vLast, set := .all, die := d
    moduleId := c.moduleId, setIndex := 0, setSpan := 0, uFirst := uFirst d g.sxLog2, uLast := uLast d g.sxLog2
    slot := number, slotLast := number, passMask := g.allPasses }

/-- A stripe is not begun on a die (R183): every row is marked, and the die writes its own entry, unless the link is down and die
W's log covers it (R29). -/
def Chip.notBegunOn (c : Chip) (d : DieId) (id cause number : Nat) : Chip :=
  match c.stripe? d id with
  | none => c
  | some t =>
    let away := if c.slotsReach d then none else some 0x11
    let log := if away.isSome then DieId.w else d
    let q := away.getD cause
    (((c.onStripe d id (·.markAll q)).onJob d t.job fun j => { j with notBegun := j.notBegun + 1 }).reportSpan
      log (c.notBegunSpan d t q number)).endStripeOn d id

/-- A herd member notes when a stripe has ended at its last boundary, for R315. -/
def Chip.noteEnd (c : Chip) (e : StripeEnd) : Chip :=
  match e with
  | .boundary id => if c.schedHere then c else c.onSched fun x => { x with endedAt := some c.now, endedId := id }
  | .early .. | .notBegun .. => c

/-- A stripe ends on the dies of the module. -/
def Chip.endStripe (c0 : Chip) (e : StripeEnd) (number : Nat) : Chip :=
  let wv := c0.w.view
  let c := c0.noteEnd e
  c.forEach c.dies fun c d =>
    match e with
    | .boundary id => c.endNormalOn d id
    | .early id cause ka =>
      match (c.die d).view.or wv with
      | some v => c.endEarlyOn d (if v.stripe = id then v else wv.getD v) cause ka
      | none => c
    | .notBegun stripe cause => c.notBegunOn d stripe cause ((number + 1) % m48)

/-! ### A decision acts (R367, R375) -/

/-- Scheduler mode of a SLOT message. -/
def modeOf : Nat → Mode
  | 0 => .idle
  | 1 => .armed
  | _ => .exposing

/-- What a member's scheduler state follows from the buck's message (R373, R375). -/
def Chip.followSlot (c : Chip) (m : SlotMsg) : Chip :=
  if c.schedHere then c
  else c.onSched fun x => { x with
    mode := modeOf m.mode
    stripe := match m.s0, m.arms with
      | some (id, _), _ => id
      | none, some id => id
      | none, none => x.stripe
    s0 := if m.s0.isSome then m.number else x.s0
    n := (m.s0.map (·.2)).getD x.n
    armedAt := if m.arms.isSome then c.now else x.armedAt
    decided := if m.fires then m.number else x.decided
    decidedAt := if m.fires then c.now else x.decidedAt
    turnOpen := m.turn, calOpen := m.cal
    turnAt := if m.turn && !x.turnOpen then some c.now else x.turnAt
    calClosedAt := if x.calOpen && !m.cal then some c.now else x.calClosedAt }

/-- A stripe slot of a die that is held blanked goes into die W's log (R29, R40). -/
def Chip.reportHeld (c : Chip) (d : DieId) (number : Nat) : Chip :=
  match c.heldCause d, c.w.view with
  | some q, some v =>
    let k := (sdiff 48 number v.s0).toNat
    if v.exposing then c.reportCycle .w v (covDie d) q (c.slotSpan d v q k k) else c
  | _, _ => c

/-- A decision of the scheduler acts on the dies of the module. -/
def Chip.actSlot (c : Chip) (m : SlotMsg) : Chip :=
  let c1 := (c.followSlot m).onSched fun x => { x with
    slot := if m.fires then m.number else x.slot
    slotAt := if m.fires then c.now else x.slotAt
    burst := if m.fires then m.burst else x.burst
    armData := m.arms.isSome || (x.armData && m.mode == 1) }
  let c2 := match m.s0 with
    | some (id, n) =>
      let before := c1
      noteFaults before (c1.forEach c1.dies fun c d => c.startOn d id n m.number)
    | none => c1
  let c3 := if m.fires && m.exposing then c2.forEach c2.dies fun c d => c.reportHeld d m.number else c2
  let c4 := if m.fires then
      (c3.forEach (c3.dies.filter c3.slotsReach) fun c d => c.fireOn d m).whenB (c3.two && !c3.evuneUp) Chip.zeroFrames
    else c3
  match m.ends with
  | some e => c4.endStripe e m.number
  | none => c4

/-- A decision of the scheduler is taken: it acts at once on a module that stands alone; the buck of a herd sends it, and
it acts on every member, the buck included, lat_ns later (R367). -/
def Chip.decide (c : Chip) (m : SlotMsg) : Chip :=
  if c.herd.role == .buck then
    let c1 := c.sendSync (.slot m)
    { c1 with herd := { c1.herd with
        decisions := c1.herd.decisions ++ [⟨c.now + ((c.herd.settings.map (·.lat)).getD 0), some m, none⟩] } }
  else c.actSlot m

end Sys2Proof.Machine
end

