-- ==== Sys2Proof/Machine/Evune.lean ====
section
/-! DEFINITION. The Evune link between the dies (R27 to R29, R434). -/

namespace Sys2Proof.Machine

/-- Change the link. -/
def Chip.onEvune (c : Chip) (f : Evune → Evune) : Chip := { c with evune := f c.evune }

/-- The link goes down (R28, R29): link_lost and source 5 on both dies; die E forces all-zero frames until a stripe
start after the link has returned; margin messages under way are lost. An attempt of training that fails leaves the time of
the attempt, from which the next follows after 1 ms. -/
def Chip.evuneDown (c : Chip) : Chip :=
  if c.evune.link == .up then
    let c1 := (c.onEvune fun x => { x with link := .down, since := c.now }).raiseBoth 5
    let c2 := c1.forEach c1.dies fun c d =>
      (c.setBit d F.SYS_EVUNE_STATUS_link_lost).onKiln d fun k => { k with marginOut := [] }
    ((c2.onDie .e fun x => { x with hold := 0x11 }).reportUnsent.withdrawRemote).zeroFrames
  else c.onEvune fun x => { x with link := .down }

/-- A lane of one direction fails (R28): the link goes on with 7 lanes, or a second failure takes it down. Both dies raise
the Evune-degraded event, as both raise the loss of the link; R28 does not say which die does (DESIGN CHOICE, log entry 16). -/
def Chip.evuneLaneFails (c : Chip) (fromW : Bool) (lane : Nat) : Chip :=
  let mask := if fromW then c.evune.maskWE else c.evune.maskEW
  if !nbit mask lane then c
  else
    let left := setNbit mask lane false
    let c1 := c.onEvune fun x => if fromW then { x with maskWE := left } else { x with maskEW := left }
    if popcount 8 left < 7 then c1.evuneDown else c1.raiseBoth 4

/-- The margin messages a die sends when the link returns (R434): in row order, for every row of its held stripes that
it has finished and whose Tun row slot is not yet free, an untrusted row as its flag. -/
def Stripe.marginsAgain (t : Stripe) : List Margin :=
  ((List.range t.count).filter fun y => (t.row y).gray.isSome || (t.untrusted y && !(t.row y).released)).map fun y =>
    ⟨t.job, t.id, y, if t.untrusted y then none else (t.row y).edge.map (·.2)⟩

/-- One die's part of a return of the link. Rows whose Tun slot is free by then send nothing any more (R434). -/
def Chip.resendMargins (c : Chip) (d : DieId) : Chip :=
  c.forEach (c.stripes d) fun c t =>
    let ms := t.marginsAgain
    let past := (t.rows.filter fun p => p.2.released && p.2.gray.isNone).map (·.1)
    let out := if t.otherHolds then ms.map (·.row) else []
    (c.onStripe d t.id fun t => (past ++ out).foldl (fun t y => t.onRow y fun r => { r with marginSent := true }) t).onKiln d
      fun k => { k with marginOut := if t.otherHolds then k.marginOut ++ ms else k.marginOut }

/-! ### Meanings -/

/-- EVUNE_LANE_FAIL (R28). -/
def execEvuneLaneFail (fromW : Bool) (lane : Nat) (s : State) : Res :=
  s.nextChip fun c => if c.hasDie .e && c.evune.link == .up && lane < 8 then c.evuneLaneFails fromW lane else c

/-- EVUNE_TRAINING_TIMEOUT (R28). -/
def execEvuneTrainingTimeout (s : State) : Res :=
  s.nextChip fun c => if c.hasDie .e && (c.evune.link == .up || (c.evune.link == .training && usTicks ≤ c.sinceTick c.evune.since)) then
      c.evuneDown
    else c

/-- EVUNE_RETRAIN (R28): every 1 ms while the link is down. -/
def execEvuneRetrain (s : State) : Res :=
  s.nextChip fun c =>
    if c.hasDie .e && c.evune.link == .down && msTicks ≤ c.sinceTick c.evune.since then
      c.onEvune fun x => { x with link := .training, since := c.now }
    else c

/-- EVUNE_LINK_RETURN (R434): training succeeds on at least 7 lanes of each direction. -/
def execEvuneLinkReturn (maskWE maskEW latency : Nat) (s : State) : Res :=
  s.nextChip fun c =>
    if c.hasDie .e && c.evune.link == .training && 7 ≤ popcount 8 maskWE && 7 ≤ popcount 8 maskEW then
      let c1 := c.onEvune fun x =>
        { x with link := .up, maskWE := maskWE % 256, maskEW := maskEW % 256, latency := latency % 4096, since := c.now }
      (c1.resendMargins .w).resendMargins .e
    else c

end Sys2Proof.Machine
end

