-- ==== Sys2Proof/Machine/Sched.lean ====
section
/-! DEFINITION. The slot scheduler of die W (chapter 6, R175 to R190, with R47, R118, R230, R313 to R315, R374, R394 and
R408): arming, the start compare, the rate multiplier, slots, compares, overspeed and the ends of a stripe. -/

namespace Sys2Proof.Machine

/-! ### Rates -/

/-- The active rate limit in kHz. -/
def Chip.activeLimit (c : Chip) : Nat := max 1 (c.act .w F.SLOT_RATE_LIMIT_limit_khz)

/-- T_min of R186 for a limit in kHz. -/
def tMinOf (khz : Nat) : Nat := (1000000 + khz - 1) / khz

/-- inc_limit of R186. -/
def incLimit (khz : Nat) : Int := (2 ^ 32 * khz / 1000000 : Nat)

/-- Δ of R175 under the active copies. -/
def Chip.activeDelta (c : Chip) : Nat :=
  c.act .w F.SLOT_PITCH_pitch * 512 / ((c.activeGeo .w).P * (c.activeGeo .w).Sx)

/-- Ticks between idle slots; `none` when idle_khz is 0 (R178). -/
def Chip.idlePeriod (c : Chip) : Option Nat :=
  let khz := min (c.fld .w F.SLOT_IDLE_idle_khz) c.activeLimit
  if khz = 0 then none else some (tMinOf khz)

/-- Code of a scheduler mode (SLOT_MODE). -/
def Mode.code : Mode → Nat
  | .idle => 0
  | .armed => 1
  | .exposing => 2

/-! ### Ends and refusals -/

/-- The scheduler enters idle and deasserts STAGE_SLOW; the deflection generator goes back to the active copies (R192). -/
def Chip.toIdle (c : Chip) : Chip :=
  { c with defl := { c.defl with bound := none } }.onSched fun x => { x with
    mode := .idle, idleAt := c.now, slow := false, ending := none, due := none, doomed := none, armData := false }

/-- A message that fires no slot. -/
def Chip.quiet (c : Chip) : SlotMsg := ⟨c.sched.decided, false, c.sched.mode.code, false, none, none, [], none, none, c.sched.turnOpen, c.sched.calOpen⟩

/-- A stripe ends, and the dies are told. -/
def Chip.decideEnd (c : Chip) (e : StripeEnd) : Chip :=
  let c1 := c.toIdle
  c1.decide { c1.quiet with ends := some e }

/-- A stripe is not begun (R183). -/
def Chip.notBegun (c : Chip) (stripe cause : Nat) : Chip :=
  (((c.onSched fun x => { x with stripe := stripe }).bump .w F.SLOT_LATE_COUNT_count).raise .w 107).decideEnd
    (.notBegun stripe cause)

/-- The early end of this tick takes place (R187, R313, R40, R318); an armed scheduler that the gate disarms keeps its
stripe (R314), and one armed in this tick is disarmed in the next (R318). -/
def Chip.finishEnding (c : Chip) : Chip :=
  match c.sched.ending, c.sched.mode with
  | none, _ => c
  | some cause, .exposing =>
    let x := c.sched
    let fired := x.decidedAt == c.now
    let ka := if fired || cause == 0x0C || cause == 0x18 then x.hwm else x.hwm + 1
    let c1 := match cause with
      | 0x0F => (c.bump .w F.SLOT_POS_FAULT_COUNT_count).raise .w 111
      | 0x0E => (c.bump .w F.SLOT_REV_COUNT_count).raise .w 109
      | 0x0C => c.raise .w 193
      | _ => c
    c1.decideEnd (.early x.stripe cause (if ka < x.n then some ka else none))
  | some _, .armed =>
    if c.sched.armedAt = c.now then c.onSched fun x => { x with ending := none }
    else
      let c1 := c.toIdle.raise .w 194
      c1.decide c1.quiet
  | some _, .idle => c.onSched fun x => { x with ending := none }

/-- A die's view of a stripe, of those it still has. -/
def Die.viewOf (x : Die) (stripe : Nat) : Option View := (x.view.toList ++ x.pastViews).find? (·.stripe == stripe)

/-- The last slot of the stripe just ended is logged: its on-time may have been cut short (R315). -/
def Chip.logLastSlot (c : Chip) : Chip :=
  (c.onSched fun x => { x with endedAt := none }).forEach c.dies fun c d =>
    match (c.die d).viewOf c.sched.endedId with
    | some v => if (c.heldCause d).isNone then c.reportSpan d (c.slotSpan d v 0x0C (v.slots - 1) (v.slots - 1)) else c
    | none => c

/-- Die W's gate closes (R313 to R315): an armed or exposing scheduler is ended in this tick, and the last slot of a stripe
that ended within 2 µs is logged. On a herd member, whose scheduler the buck's is, the last slot is logged (R364). -/
def Chip.gateEndsStripe (c : Chip) : Chip :=
  let c1 := if c.schedHere && c.sched.mode != .idle then c.onSched fun x => { x with ending := some 0x0C } else c
  match c.sched.endedAt with
  | some t => if c.now - t ≤ 2 * usTicks then c1.logLastSlot else c1
  | none => c1

/-! ### Arming (R179, R118, R374, R408) -/

/-- Why a herd refuses an arming (R374): 1 stripe, 2 Y, 3 geometry; 0 when it does not. It is judged on the members at the
start of the tick (R385). -/
def Chip.herdArmReason (c : Chip) (stripe rows : Nat) : Nat :=
  if c.herd.role != .buck then 0
  else
    let ps := c.herd.peers.filter fun p => p.admitted && p.admittedAt != c.now
    let st (p : Peer) : Option (Nat × Nat) := p.status.bind (·.oldest)
    let geom (p : Peer) : Word := (p.status.map (·.geom)).getD 0
    if ps.any fun p => (st p).map (·.1) != some stripe then 1
    else if ps.any fun p => (st p).map (·.2) != some rows then 2
    else if ps.any fun p => geom p != c.w.reg 0x068000 then 3
    else 0

/-- Die E's oldest held stripe that has not started agrees with the armed one (R179). -/
def Chip.eAgrees (c : Chip) (t : Stripe) : Bool :=
  !c.two || (c.evuneUp && match c.oldestUnstarted .e with
    | some u => u.id == t.id && u.count == t.count
    | none => false)

/-- A bound sx_log2 differs from the active one on a die (R118). -/
def Chip.sxDiffers (c : Chip) (stripe : Nat) : Bool :=
  c.dies.any fun d => match (c.stripe? d stripe).bind (·.binding) with
    | some b => b.sxLog2 != c.act d F.MAP_GEOM_sx_log2
    | none => false

/-- halt_on_overflow and overflowed are both 1 (R47). -/
def Chip.logHalts (c : Chip) : Bool :=
  c.dies.any fun d => c.flag d F.EVL_CTRL_halt_on_overflow && (c.die d).evl.overflowed

/-- The stripe is armed. -/
def Chip.armStripe (c : Chip) (t : Stripe) : Chip :=
  let c1 := c.onSched fun x => { x with
    mode := .armed, stripe := t.id, armedAt := c.now, behind := false, ending := none
    start := c.fld .w F.SLOT_ARM_POS_start_low + 2 ^ 32 * c.fld .w F.SLOT_ARM_POS_1_start_high
    axis := c.act .w F.SLOT_SCAN_axis, sense := c.act .w F.SLOT_SCAN_sense
    doomed := if c.sxDiffers t.id then some 0x10 else none }
  c1.decide { c1.quiet with arms := some t.id }

/-- SLOT_ARM_CTRL.arm (R179), judged on the state at the start of the tick (R190). -/
def Chip.arm (c : Chip) (stripe : Nat) : Chip :=
  let refuse (c : Chip) : Chip := c.raise .w 106
  match c.atStart.oldestUnstarted .w with
  | none => refuse c
  | some t =>
    let reason := c.herdArmReason stripe t.count
    if c.sched.mode != .idle || t.id ≠ stripe || !(c.chan (c.act .w F.SLOT_SCAN_axis)).validStart c.now ||
      (c.startDie .w).clockFault || !c.atStart.eAgrees t ||
      2 ^ 31 ≤ (c.activeGeo .w).slots t.count * c.activeDelta then refuse c
    else if reason ≠ 0 then refuse { c with herd := { c.herd with armReason := reason } }
    else if c.atStart.logHalts then (refuse c).notBegun stripe 0x10
    else c.armStripe t

/-- SLOT_ARM_CTRL.disarm (R179). -/
def Chip.disarm (c : Chip) : Chip :=
  if c.sched.mode == .armed then
    let c1 := c.toIdle
    c1.decide c1.quiet
  else c

/-- A module whose scheduler is not in use and that is no member refuses to arm a stripe (R370). -/
def Chip.turnAwayArm (c : Chip) : Chip := if c.schedHere || c.herd.role == .member then c else c.raise .w 106

/-- Write of SLOT_ARM_CTRL: a write with both bits set is ignored. -/
def Chip.writeArmCtrl (c : Chip) (v : Word) : Chip :=
  if bit v 30 && bit v 31 then c
  else
    let c1 := c.put .w F.SLOT_ARM_CTRL_stripe_id (bits v 23 0)
    if bit v 30 then c1.arm (bits v 23 0) else if bit v 31 then c1.disarm else c1

/-! ### Position compares (R184) -/

/-- x = s·(p̂ − c) of R184; `none` when the axis channel had no current extrapolation at the start of the tick: it has one in
valid and lost (R169, R190). -/
def Chip.compareX (c : Chip) (axis pos : Nat) (fwd : Bool) : Option Int :=
  match (c.chan axis).stateAtStart c.now with
  | .valid | .lost => some (dirSign fwd * sdiff 48 (c.pInt axis) pos)
  | .off | .noLock | .invalid => none

/-- How a compare that has been behind or not fires now: `some late`. One whose channel was not valid at the start of the
tick does not. -/
def Chip.compareFires (c : Chip) (axis pos : Nat) (fwd behind : Bool) : Option Bool :=
  match c.compareX axis pos fwd with
  | none => none
  | some x =>
    if x < 0 || !(c.chan axis).validStart c.now then none
    else if behind then some false
    else if (c.chan axis).speedAtStart c.now == .moving fwd then some true
    else none

/-- A compare unit's state. -/
def Sched.cmp (x : Sched) (n : Nat) : Cmp := smGet ⟨0, false, none, none⟩ n x.cmps

/-- Change a compare unit. -/
def Chip.onCmp (c : Chip) (n : Nat) (f : Cmp → Cmp) : Chip :=
  c.onSched fun x => { x with cmps := smSet ⟨0, false, none, none⟩ n (f (x.cmp n)) x.cmps }

/-- Registers of compare `n`: position, axis and direction. -/
def Chip.cmpPos (c : Chip) (n : Nat) : Nat :=
  c.fld .w (F.SLOT_CMP_pos_low.at n) + 2 ^ 32 * c.fld .w (F.SLOT_CMP_1_pos_high.at n)
def Chip.cmpAxis (c : Chip) (n : Nat) : Nat := c.fld .w (F.SLOT_CMP_2_axis.at n)
def Chip.cmpFwd (c : Chip) (n : Nat) : Bool := c.fld .w (F.SLOT_CMP_2_dir.at n) == 0

/-- Write of the third word of SLOT_CMP_n: arming begins an evaluation in the next tick. -/
def Chip.writeCmp (c : Chip) (n : Nat) (v : Word) : Chip :=
  let was := c.flag .w (F.SLOT_CMP_2_armed.at n)
  let c1 := (((c.put .w (F.SLOT_CMP_2_axis.at n) (bits v 0 0)).put .w (F.SLOT_CMP_2_dir.at n) (bits v 1 1)).put .w
    (F.SLOT_CMP_2_kind.at n) (bits v 4 2)).put .w (F.SLOT_CMP_2_armed.at n) (bits v 8 8)
  let fired := F.SLOT_CMP_2_fired.at n
  let late := F.SLOT_CMP_2_late.at n
  let c2 := if bit v 9 then c1.put .w fired (c1.w.added fired) else c1
  let c3 := if bit v 10 then c2.put .w late (c2.w.added late) else c2
  if bit v 8 && !was then c3.onCmp n fun x => { x with armedAt := c.now, behind := false }
  else if !bit v 8 && was then c3.onCmp n fun x => { x with offAt := some c.now }
  else c3

/-- What a firing does to the windows (R185). The buck's messages tell the members (DEDUCED, log entry 50). -/
def Chip.moveWindow (c : Chip) (kind : Nat) : Chip :=
  let c1 := c.onSched fun x => match kind with
    | 1 => { x with turnOpen := true, turnAt := some c.now }
    | 2 => { x with turnOpen := false }
    | 3 => { x with calOpen := true }
    | 4 => { x with calOpen := false, calClosedAt := if x.calOpen then some c.now else x.calClosedAt }
    | _ => x
  if c.herd.role == .buck && 1 ≤ kind && kind ≤ 4 then c1.decide c1.quiet else c1

/-- Compare `n` fires (R184). -/
def Chip.fireCompare (c : Chip) (n : Nat) (late : Bool) : Chip :=
  let c1 := (c.puts .w [(F.SLOT_CMP_2_armed.at n, 0), (F.SLOT_CMP_3_fired_slot.at n, c.sched.decided % 2 ^ 32)]).setBit .w
    (F.SLOT_CMP_2_fired.at n)
  let c2 := if late then c1.setBit .w (F.SLOT_CMP_2_late.at n) else c1
  ((c2.onCmp n fun x => { x with firedAt := some c.now }).moveWindow (c.fld .w (F.SLOT_CMP_2_kind.at n))).raise .w (96 + n)

/-- A compare that fired in this tick records the slot fired in it (R414). -/
def Chip.recordFired (c : Chip) : Chip :=
  c.forEach (List.range 8) fun c n =>
    if (c.sched.cmp n).firedAt == some c.now then c.put .w (F.SLOT_CMP_3_fired_slot.at n) (c.sched.decided % 2 ^ 32) else c

/-- At each tick a compare that has its position still ahead is behind it (R184). -/
def Chip.noteBehind (c : Chip) : Chip :=
  let c1 := c.forEach (List.range 8) fun c n =>
    if c.flag .w (F.SLOT_CMP_2_armed.at n) && (c.sched.cmp n).armedAt < c.now then
      match c.compareX (c.cmpAxis n) (c.cmpPos n) (c.cmpFwd n) with
      | some x => if x < 0 then c.onCmp n fun y => { y with behind := true } else c
      | none => c
    else c
  if c1.sched.mode == .armed && c1.sched.armedAt < c1.now then
    match c1.compareX c1.sched.axis c1.sched.start (c1.sched.sense == 0) with
    | some x => if x < 0 then c1.onSched fun y => { y with behind := true } else c1
    | none => c1
  else c1

/-! ### The rate multiplier (R176) and overspeed (R186) -/

/-- φ* of R176: forward displacement from the start, in 2^-32 counts, over Δ. -/
def Chip.phaseTarget (c : Chip) : Int :=
  let x := c.sched
  let p := c.pHat x.axis
  let d := sdiff 48 (toBits 48 (asr p 32)) x.start * 2 ^ 32 + modZ p (2 ^ 32)
  divZ (dirSign (x.sense == 0) * d) x.delta

/-- inc of R176. -/
def Chip.phaseInc (c : Chip) : Int := divZ (dirSign (c.sched.sense == 0) * c.vS c.sched.axis) c.sched.delta

/-- φ and φ* saturate at ±(2^63 − 1). -/
def satPhase (x : Int) : Int := clampI (-(2 ^ 63 - 1)) (2 ^ 63 - 1) x

/-- One tick of the rate multiplier. -/
def Chip.advancePhase (c : Chip) : Chip :=
  let inc := c.phaseInc
  let tgt := satPhase c.phaseTarget
  let phi := c.sched.phi
  c.onSched fun x => { x with
    inc := inc, phi := satPhase (phi + inc + asr (tgt - phi) (c.fld .w F.SLOT_TRACK_corr_shift)) }

/-- φ asr 32. -/
def Sched.whole (x : Sched) : Int := asr x.phi 32

/-- The stripe has no slot left and φ has reached N (R182). -/
def Sched.atEnd (x : Sched) : Bool := (x.n : Int) ≤ x.whole && x.hwm + 1 == x.n

/-- A slot sooner than T_min, or an increment above the limit: overspeed begins or goes on (R186). -/
def Chip.overspeed (c : Chip) (soon : Bool) : Chip :=
  let x := c.sched
  let lim := incLimit x.limitKhz
  if !x.slow then
    if soon || lim < x.inc then
      ((c.onSched fun x => { x with slow := true, slowAt := c.now }).bump .w F.SLOT_OVS_COUNT_count).raise .w 108
    else c
  else if soon || lim - asr lim 6 < x.inc then c.onSched fun x => { x with slowAt := c.now }
  else c

/-! ### Slots -/

/-- A slot is decided. -/
def Chip.nextSlot (c : Chip) : Nat := (c.sched.decided + 1) % m48

/-- The causes that blank a stripe slot decided now, source 237 at the first slot of a calibration window (R186, R394). -/
def Chip.slotBlanks (c : Chip) (late0 : Bool) : List Nat × Chip :=
  let x := c.sched
  let cal := x.calOpen || x.calClosedAt == some c.now
  let c1 := c.onSched fun x => { x with calRun := cal }
  ((if x.slow then [0x0D] else []) ++ (if cal then [0x15] else []) ++ (if late0 then [0x10] else []),
   if cal && !x.calRun then c1.raise .w 237 else c1)

/-- Note that a slot is decided in this tick. -/
def Chip.countSlot (c : Chip) : Chip :=
  (c.onSched fun x => { x with decided := c.nextSlot, decidedAt := c.now }).recordFired

/-- Stripe slot hwm + 1 fires (R177). -/
def Chip.fireSlot (c : Chip) : Chip :=
  let soon := c.now - c.sched.decidedAt < tMinOf c.sched.limitKhz
  let r := (c.overspeed soon).slotBlanks false
  let c1 := (r.2.onSched fun x => { x with hwm := x.hwm + 1 }).countSlot
  c1.decide { c1.quiet with fires := true, exposing := true, blanked := r.1 }

/-- An idle slot fires (R178); the slot of a calibration burst names its beam and code (R392). -/
def Chip.fireIdle (c : Chip) (burst : Option (Nat × DieId × Nat × Nat)) : Chip :=
  let c1 := c.countSlot
  c1.decide { c1.quiet with fires := true, burst := burst }

/-- What the deflection generator reads of the active copies (R192). -/
def Chip.deflActive (c : Chip) : DeflView :=
  ⟨c.w.regs.filter fun p => (0x098000 ≤ p.1 && p.1 < 0x099000) || p.1 == 0x068000 || p.1 == 0x088004,
   (c.w.tableCopy true).filter fun p => 0x930000 ≤ p.1 && p.1 < 0x950000⟩

/-- S0 fires (R181): the scheduler binds, and the dies start the stripe. A stripe slot 0 less than 240 ticks after the arming
is blanked (R230). -/
def Chip.startStripe (c : Chip) (t : Stripe) : Chip :=
  let late0 := c.now - c.sched.armedAt < 240
  let n := (c.activeGeo .w).slots t.count
  let c1 := c.onSched fun x => { x with
    mode := .exposing, limitKhz := c.activeLimit, delta := c.activeDelta, n := n, hwm := 0, dmax := none
    slow := false, calRun := false, s0 := c.nextSlot }
  let c2 := { c1 with defl := { c1.defl with bound := some c1.deflActive } }.onSched fun x =>
    { x with phi := satPhase c1.phaseTarget, inc := c1.phaseInc }
  let c3 := c2.raise .w 104
  let c4 := if late0 then c3.raise .w 107 else c3
  let r := (c4.overspeed false).slotBlanks late0
  let c5 := r.2.countSlot
  c5.decide { c5.quiet with fires := true, exposing := true, s0 := some (t.id, n), blanked := r.1 }

/-- The start compare as it stands in this tick: `none` when it does not fire, else whether the stripe can begin (R181), with
the cause if it cannot (R183). -/
def Chip.startFires (c : Chip) : Option (Option Nat) :=
  let x := c.sched
  if x.mode != .armed || c.now ≤ x.armedAt || (c.startDie .w).clockFault then none
  else match x.doomed with
  | some cause => some (some cause)
  | none =>
    match c.compareFires x.axis x.start (x.sense == 0) x.behind with
    | none => none
    | some late =>
      if (c.chan x.axis).state != .valid then some (some 0x0F)
      else if late || c.now - x.decidedAt < tMinOf c.activeLimit then some (some 0x10)
      else some none

/-- The stripe ends at its last boundary (R182); when the gate has closed in this tick too, slot N − 1 is logged (R318), and a
channel lost in it counts (R187). -/
def Chip.finishStripe (c : Chip) : Chip :=
  let c1 := ((c.onSched fun x => { x with endedAt := some c.now, endedId := x.stripe }).raise .w 105).decideEnd (.boundary c.sched.stripe)
  match c.sched.ending with
  | some 0x0C => c1.logLastSlot
  | some 0x0F => (c1.bump .w F.SLOT_POS_FAULT_COUNT_count).raise .w 111
  | _ => c1

/-- What a boundary or the start compare of the tick brings about, with all that has happened in it (R190): a reversal keeps a
slot from firing and ends the stripe in place of its boundary, windows are as the tick's compares leave them, and a start whose
channel has been lost is not begun. -/
def Chip.fireDue (c : Chip) : Chip :=
  let x := c.sched
  let c1 := c.onSched fun y => { y with due := none }
  match x.due with
  | none => c
  | some .slot => if x.mode != .exposing || x.ending == some 0x0E then c1 else c1.fireSlot
  | some .finish =>
    if x.mode != .exposing || x.ending == some 0x0E || x.ending == some 0x18 then c1 else c1.finishStripe
  | some .start =>
    match c1.startFires, c1.stripe? .w x.stripe with
    | some none, some t => c1.startStripe t
    | some (some cause), _ => c1.notBegun x.stripe cause
    | _, _ => c1

/-! ### What the scheduler does in a tick of its own accord -/

/-- The start of a tick: endings of the last tick are complete, so φ advances and compares take note; an arming under a
closed gate is disarmed (R314). -/
def Chip.schedTick (c : Chip) : Chip :=
  if c.w.clockFault || !c.schedHere then c
  else
    let c1 := c.noteBehind
    match c1.sched.mode with
    | .exposing =>
      let c2 := c1.advancePhase
      if c2.sched.atEnd then c2 else c2.overspeed false
    | .armed =>
      if !c1.w.ilk.gateOpen && c1.sched.armedAt < c1.now then
        let c2 := c1.toIdle.raise .w 194
        c2.decide c2.quiet
      else c1
    | .idle => c1

/-! ### Meanings -/

/-- SLOT_FIRE (R177, R190): the boundary is crossed; `Chip.fireDue` fires the slot at the end of the tick. -/
def execSlotFire (s : State) : Res :=
  s.nextChip fun c =>
    let x := c.sched
    if c.schedHere && x.mode == .exposing && !(c.startDie .w).clockFault && x.decidedAt != c.now &&
      (x.hwm : Int) < x.whole && x.hwm + 1 < x.n
    then c.onSched fun y => { y with due := some .slot } else c

/-- OVERSPEED_END (R186). -/
def execOverspeedEnd (s : State) : Res :=
  s.nextChip fun c =>
    if c.sched.slow && 16384 ≤ c.now - c.sched.slowAt then c.onSched fun x => { x with slow := false } else c

/-- IDLE_SLOT_FIRE (R178): an idle slot that falls due as a stripe is armed still fires (R190). While a calibration burst
runs, its slots take the place of idle slots (R392). A module that is not in a herd's service fires its own (R373). -/
def execIdleSlotFire (s : State) : Res :=
  s.nextChip fun c =>
    let x := c.sched
    match c.idlePeriod with
    | none => c
    | some p =>
      if c.herd.role != .member && (x.mode == .idle || (x.mode == .armed && x.armedAt == c.now)) && !c.w.clockFault &&
        x.decidedAt != c.now && max x.idleAt x.decidedAt + p ≤ c.now && c.cal.phase != .slots
      then c.fireIdle none else c

/-- SLOT_ARM (R179): a module in a herd arms only as the buck (R364, R370). -/
def execSlotArm (_m : Master) (stripe : Nat) (s : State) : Res :=
  s.nextBus fun c =>
    if c.schedHere then c.writeArmCtrl (word (stripe % 2 ^ 24 + 2 ^ 30)) else c.turnAwayArm

/-- SLOT_DISARM (R179). -/
def execSlotDisarm (_m : Master) (stripe : Nat) (s : State) : Res :=
  s.nextBus fun c => if c.schedHere then c.writeArmCtrl (word (stripe % 2 ^ 24 + 2 ^ 31)) else c

/-- STRIPE_NOT_BEGUN (R183). -/
def execStripeNotBegun (s : State) : Res :=
  s.nextChip fun c =>
    match c.startFires with
    | some (some cause) => if c.schedHere then c.notBegun c.sched.stripe cause else c
    | _ => c

/-- STRIPE_START (R181): the start compare fires; `Chip.fireDue` fires S0 at the end of the tick. -/
def execStripeStart (s : State) : Res :=
  s.nextChip fun c =>
    match c.startFires, c.stripe? .w c.sched.stripe with
    | some none, some _ => if c.schedHere then c.onSched fun y => { y with due := some .start } else c
    | _, _ => c

/-- COMPARE_FIRE (R184, R190): a disarm written in this tick does not keep the compare from firing. -/
def execCompareFire (n : Nat) (s : State) : Res :=
  s.nextChip fun c =>
    let x := c.sched.cmp n
    if n < 8 && c.schedHere && !c.w.clockFault && x.armedAt < c.now && x.firedAt != some c.now &&
      (c.flag .w (F.SLOT_CMP_2_armed.at n) || x.offAt == some c.now)
    then match c.compareFires (c.cmpAxis n) (c.cmpPos n) (c.cmpFwd n) x.behind with
      | some late => c.fireCompare n late
      | none => c
    else c

/-- STRIPE_END (R182): boundary N is crossed; `Chip.fireDue` ends the stripe at the end of the tick. -/
def execStripeEnd (s : State) : Res :=
  s.nextChip fun c =>
    if c.schedHere && c.sched.mode == .exposing && c.sched.atEnd && c.sched.decidedAt != c.now && !(c.startDie .w).clockFault
    then c.onSched fun y => { y with due := some .finish } else c

end Sys2Proof.Machine
end

