-- ==== Sys2Proof/Machine/Defl.lean ====
section
/-! DEFINITION. The tracking deflection generator of die W (chapter 7, R191 to R201). -/

namespace Sys2Proof.Machine

/-! ### What the generator reads -/

/-- A field of the words it uses: bound at S0, or active (R192). -/
def DeflView.fld (x : DeflView) (f : Fld) : Nat := bits (smGet (resetWord (f.off + 0x8000)) (f.off + 0x8000) x.words) f.hi f.lo

/-- The view in use: bound while exposing, the active copies otherwise. -/
def Chip.deflView (c : Chip) : DeflView := c.defl.bound.getD c.deflActive

/-- Its geometry. -/
def DeflView.geo (x : DeflView) : Geo :=
  ⟨x.fld F.MAP_GEOM_pass_log2, x.fld F.MAP_GEOM_sx_log2, x.fld F.MAP_GEOM_sy_log2, x.tables⟩

/-- Pitch and Δ (R175). -/
def DeflView.pitch (x : DeflView) : Nat := x.fld F.SLOT_PITCH_pitch
def DeflView.delta (x : DeflView) : Nat := x.pitch * 512 / (x.geo.P * x.geo.Sx)

/-- Blend entry b[i] of the waveform table (R195). -/
def blendOf (tables : List (Nat × Word)) (i : Nat) : Nat := bits (tblIn .w tables (0x940000 + 4 * i)) 15 0

/-- Target position of walk step `s` along the scan and across it (R193), for a pitch and Δ. -/
def targetA (g : Geo) (pitch delta s : Nat) : Int := ((g.walk s).2 : Int) * pitch - (s : Int) * delta
def targetC (g : Geo) (pitch s : Nat) : Int := ((g.walk s).1 : Int) * pitch

/-! ### Corrections (R194, R198) -/

/-- corr_a and corr_c before clamping; a term whose channel is not valid is 0. -/
def Chip.corrections (c : Chip) : Int × Int :=
  let x := c.deflView
  let cross := 1 - (if c.sched.mode == .exposing then c.sched.axis else c.act .w F.SLOT_SCAN_axis)
  let yaw := if (c.chan 2).validStart c.now then
      sdiff 48 (c.pInt 2) (x.fld F.DEFL_YAW_REF_ref_low + 2 ^ 32 * x.fld F.DEFL_YAW_REF_1_ref_high) else 0
  let off := if (c.chan cross).validStart c.now then
      sdiff 48 (c.pInt cross) (x.fld F.DEFL_CROSS_REF_ref_low + 2 ^ 32 * x.fld F.DEFL_CROSS_REF_1_ref_high) else 0
  (asr (toSigned 16 (x.fld F.DEFL_YAW_K_k_ya) * yaw) 12, off + asr (toSigned 16 (x.fld F.DEFL_YAW_K_k_yc) * yaw) 12)

/-- sat20 of R194. -/
def sat20 (x : Int) : Int := clampI (-524288) 524287 x

/-- Set-point of a displacement in 2^-16 counts. -/
def codeFor (offset scale : Nat) (D : Int) : Int := toSigned 20 offset + asr (D * toSigned 24 scale) 32

/-- Da and Dc of R194, with the clamped corrections. -/
def Chip.displacement (c : Chip) (ca cc : Int) : Int × Int :=
  let x := c.deflView
  let g := x.geo
  let sigma : Int := if x.fld F.DEFL_CTRL_cross_sense = 0 then 1 else -1
  if c.sched.mode == .exposing then
    let phi := clampI 0 ((c.sched.n : Int) * 2 ^ 32 - 1) (c.sched.phi + c.sched.inc * c.fld .w F.DEFL_LEAD_lead_ticks)
    let k : Nat := (asr phi 32).toNat
    let f : Nat := (modZ phi (2 ^ 32)).toNat
    let s : Nat := k % g.L
    let p : Nat := if k = 0 then 0 else (k - 1) % g.L
    let i : Nat := f / 2 ^ 24
    let j : Nat := f / 2 ^ 16 % 256
    let bi := (blendOf x.tables i : Int) +
      asr (((blendOf x.tables (min (i + 1) 255) : Int) - blendOf x.tables i) * (j : Int)) 8
    let fd : Nat := f * c.sched.delta / 2 ^ 16
    let xa := targetA g x.pitch c.sched.delta p
    let xc := targetC g x.pitch p
    (xa * 2 ^ 16 + 2 * (targetA g x.pitch c.sched.delta s - xa) * bi - (fd : Int) + ca * 2 ^ 16,
     xc * 2 ^ 16 + 2 * (targetC g x.pitch s - xc) * bi + sigma * cc * 2 ^ 16)
  else
    ((targetA g x.pitch x.delta 0 + ca) * 2 ^ 16, (targetC g x.pitch 0 + sigma * cc) * 2 ^ 16)

/-- A sample's four data bytes as a number (R199, R200). -/
def sampleWord (code : Int) (track limit : Bool) (seq : Nat) : Nat :=
  let w := toBits 20 code + b2n track * 2 ^ 20 + b2n limit * 2 ^ 21 + seq % 4 * 2 ^ 22
  w + crc8 0x07 0x00 (leBytes 3 w) * 2 ^ 24

/-- One sample of both axes is computed and sent (R194, R198, R199). -/
def Chip.sample (c : Chip) : Chip :=
  let x := c.deflView
  let lim : Int := x.fld F.DEFL_CORR_LIMIT_corr_limit
  let r := c.corrections
  let at' (v : Int) : Bool := lim ≤ v || v ≤ -lim
  let limit := at' r.1 || at' r.2
  let track := c.sched.mode == .exposing
  let dd := c.displacement (clampI (-lim) lim r.1) (clampI (-lim) lim r.2)
  let codeA := sat20 (codeFor (x.fld F.DEFL_OFFSET_A_offset) (x.fld F.DEFL_SCALE_A_scale) dd.1)
  let codeC := sat20 (codeFor (x.fld F.DEFL_OFFSET_C_offset) (x.fld F.DEFL_SCALE_C_scale) dd.2)
  let scan := if track then c.sched.axis else c.act .w F.SLOT_SCAN_axis
  let seq := c.defl.seq
  let wa := sampleWord codeA track limit seq
  let wc := sampleWord codeC track limit seq
  let c1 := (c.emit (.sample 0 seq (if scan = 0 then wa else wc))).emit (.sample 1 seq (if scan = 0 then wc else wa))
  let c2 := { c1 with defl := { c1.defl with seq := (seq + 1) % 4 } }.puts .w
    [(F.DEFL_STATUS_track, b2n track), (F.DEFL_STATUS_limit, b2n limit), (F.DEFL_LAST_A_setpoint, toBits 20 codeA),
     (F.DEFL_LAST_C_setpoint, toBits 20 codeC)]
  if limit && track then ((c2.bump .w F.DEFL_LIMIT_COUNT_count).raise .w 114).endEarly 0x0F else c2

/-! ### The deflection check (R196, R197) -/

/-- settle_index of the shadow waveform table (R196). -/
def Chip.settleIndex (c : Chip) : Nat :=
  let t := c.w.tableCopy false
  256 - ((List.range 256).reverse.takeWhile fun i => blendOf t i == 32768).length

/-- A displacement range gives a code outside ±2^19 (R197). -/
def outside (offset scale : Nat) (ds : List Int) : Bool :=
  ds.any fun d => let q := codeFor offset scale d; q < -524288 || 524287 < q

/-- The failure of the deflection check over the shadow copies. Where both axes go out of range R197 does not say which is
reported: the scan axis is (DESIGN CHOICE, log entry 79). -/
def Chip.deflFailure (c : Chip) : Nat :=
  let g := c.shadowGeo .w
  if 4 < g.pLog2 || 4 < g.sxLog2 || 4 < g.syLog2 || g.badStep.isSome then 3
  else
    let pitch := c.fld .w F.SLOT_PITCH_pitch
    let delta := pitch * 512 / (g.P * g.Sx)
    let lim : Int := c.fld .w F.DEFL_CORR_LIMIT_corr_limit
    let bs := (List.range 256).map (blendOf g.tables)
    let blends : List Int := [(bs.foldl min 65535 : Nat), (bs.foldl max 0 : Nat), 32768]
    let pairs := (0, 0) :: (List.range g.L).map fun s => ((s + g.L - 1) % g.L, s)
    let da := pairs.flatMap fun p => blends.flatMap fun b => [(0 : Int), (delta : Int)].flatMap fun f => [-lim, lim].map fun q =>
      let xp := targetA g pitch delta p.1
      xp * 2 ^ 16 + 2 * (targetA g pitch delta p.2 - xp) * b - f * 2 ^ 16 + q * 2 ^ 16
    let dc := pairs.flatMap fun p => blends.flatMap fun b => [-lim, lim].map fun q =>
      let xp := targetC g pitch p.1
      xp * 2 ^ 16 + 2 * (targetC g pitch p.2 - xp) * b + q * 2 ^ 16
    if outside (c.fld .w F.DEFL_OFFSET_A_offset) (c.fld .w F.DEFL_SCALE_A_scale) da then 1
    else if outside (c.fld .w F.DEFL_OFFSET_C_offset) (c.fld .w F.DEFL_SCALE_C_scale) dc then 2
    else 0

/-- Change the generator. -/
def Chip.onDefl (c : Chip) (f : Defl → Defl) : Chip := { c with defl := f c.defl }

/-- A write to something the check reads restarts it (R197). -/
def Chip.restartDeflCheck (c : Chip) : Chip := c.onDefl fun x => { x with check := { x.check with busy := true } }

/-- Write of DEFL_CTRL (R201): samples begin at seq 0. -/
def Chip.writeDeflCtrl (c : Chip) (v : Word) : Chip :=
  let was := c.flag .w F.DEFL_CTRL_en
  let c1 := ((c.put .w F.DEFL_CTRL_en (bits v 0 0)).put .w F.DEFL_CTRL_cross_sense (bits v 1 1)).restartDeflCheck
  if bit v 0 && !was then c1.onDefl fun x => { x with seq := 0, samples := c.now / 20 } else c1

/-! ### Meanings -/

/-- DEFLECTION_SAMPLE (R194): the sample of a sample tick, while the links are enabled (R201). Whether corrections are judged by
R198 while they are not, the spec leaves open: nothing is computed then (DESIGN CHOICE, log entry 79). -/
def execDeflectionSample (s : State) : Res :=
  s.nextChip fun c =>
    if c.defl.samples < c.now / 20 then
      let c1 := c.onDefl fun x => { x with samples := c.now / 20 }
      if c.flag .w F.DEFL_CTRL_en && c.schedHere then c1.sample else c1
    else c

/-- DEFLECTION_CHECK_COMPLETE (R197): the first failure raises its event. Of which run of checks it is the first the rule does not
say: a failed check raises it when the check completed before it had passed (DESIGN CHOICE, log entry 79). -/
def execDeflectionCheckComplete (s : State) : Res :=
  s.nextChip fun c =>
    if !c.defl.check.busy then c
    else
      let k := c.deflFailure
      let c1 := c.onDefl fun x => { x with check := ⟨false, k == 0, k, 0⟩ }
      if k ≠ 0 && c.defl.check.passed then c1.raise .w 113 else c1

end Sys2Proof.Machine
end

