-- ==== Sys2Proof/Machine/Axis.lean ====
section
/-! DEFINITION. The auxiliary axes of die W (chapter 7, R202 to R217): step and profile ticks, limits, homing, encoders and
commands. -/

namespace Sys2Proof.Machine

/-! ### Access -/

/-- Axis 0 or 1. -/
def Chip.axis (c : Chip) (n : Nat) : Axis := if n = 0 then c.axis0 else c.axis1

/-- Change an axis. -/
def Chip.onAxis (c : Chip) (n : Nat) (f : Axis → Axis) : Chip :=
  if n = 0 then { c with axis0 := f c.axis0 } else { c with axis1 := f c.axis1 }

/-- A field of an axis register, and a one-bit one. -/
def Chip.ax (c : Chip) (n : Nat) (f : Fld) : Nat := c.fld .w (f.at n)
def Chip.axFlag (c : Chip) (n : Nat) (f : Fld) : Bool := c.ax n f == 1

/-- A field as it stood at the start of the tick: the profile runs on such values (R206). -/
def Chip.axWas (c : Chip) (n : Nat) (f : Fld) : Nat := (c.startDie .w).fld (f.at n)

/-- The deceleration limit: 0 acts as 1 (AXIS_DEC_LIMIT_n). -/
def Chip.decLim (c : Chip) (n : Nat) : Nat := max 1 (c.axWas n F.AXIS_DEC_LIMIT_value)

/-- The profile tick under way, every 1,000 core ticks (R202). -/
def Chip.profileNow (c : Chip) : Nat := c.now / 1000

/-- An axis is enabled: a module that is not served by its own scheduler keeps its axes disabled (R364). -/
def Chip.axisOn (c : Chip) (n : Nat) : Bool := c.axFlag n F.AXIS_CTRL_en && c.schedHere

/-- The level of EN_N (R202). -/
def Chip.enN (c : Chip) (n : Nat) : Bool := !c.axisOn n

/-- EN_N pins that have changed since a state of the module are driven anew. -/
def Chip.driveEnables (before c : Chip) : Chip :=
  c.forEach [0, 1] fun c n => if c.enN n == before.enN n then c else c.emit (.enN n (c.enN n))

/-- A limit input of an axis: forward or reverse. -/
def Axis.lim (x : Axis) (fwd : Bool) : LimitIn := if fwd then x.limFwd else x.limRev

/-- Change a limit input. -/
def Axis.onLim (x : Axis) (fwd : Bool) (f : LimitIn → LimitIn) : Axis :=
  if fwd then { x with limFwd := f x.limFwd } else { x with limRev := f x.limRev }

/-- Whole microsteps of a position. -/
def micro (x : Int) : Int := asr x 32

/-- The sign of an integer. -/
def signI (x : Int) : Int := if x < 0 then -1 else if x = 0 then 0 else 1

/-! ### Faults (R207, R210 to R214) -/

/-- A bit of AXIS_FAULT_n is set, which raises the axis event. -/
def Chip.axisFault (c : Chip) (n : Nat) (f : Fld) : Chip := (c.setBit .w (f.at n)).raise .w (115 + n)

/-- A fault stop (R210, R214): a STEP that a change of DIR held back is not issued. -/
def Chip.faultStop (c : Chip) (n : Nat) : Chip :=
  c.onAxis n fun x => { x with
    v := 0, motion := .faulted, out := micro x.x, overrun := false, braking := false, homed := false }

/-- A fault bit that refuses motion is set (R212). -/
def Chip.axisLocked (c : Chip) (n : Nat) : Bool := bits (c.w.reg (0x0A0034 + 256 * n)) 4 0 != 0

/-- The axis is homing. -/
def Motion.homing : Motion → Bool
  | .search _ _ | .turning _ | .latched | .toHome => true
  | .rest | .move | .stopping | .faulted => false

/-! ### Step ticks (R203) -/

/-- DIR is driven for a direction of x. -/
def Chip.driveDir (c : Chip) (n : Nat) (up : Bool) : Chip :=
  let level := up != c.axFlag n F.AXIS_CTRL_dir_inv
  let c1 := c.onAxis n fun a => { a with dir := up, dirPin := level }
  if level == (c.axis n).dirPin then c1 else c1.emit (.dir n level)

/-- One step tick: x advances. A step that is due is issued if DIR stands for it; else DIR changes, and the step waits. -/
def Chip.stepTick (c : Chip) (n : Nat) : Chip :=
  let a := c.axis n
  let x := toSigned 64 (toBits 64 (a.x + a.v))
  let c1 := c.onAxis n fun a => { a with x := x, steps := a.steps + 1 }
  let up := if micro x = a.out then (if a.v = 0 then a.dir else 0 < a.v) else a.out < micro x
  if micro x ≠ a.out && (up != c.axFlag n F.AXIS_CTRL_dir_inv) == a.dirPin then
    (c1.onAxis n fun a => { a with out := a.out + dirSign up, stepAt := c.now }).emit (.step n)
  else c1.driveDir n up

/-! ### Coil currents (R204, R205, R208) -/

/-- The scale in force. -/
def Chip.coilScale (c : Chip) (n : Nat) : Nat :=
  if !c.axisOn n then 0
  else min 256 (c.ax n (if (c.axis n).atHold then F.AXIS_CURRENT_hold_scale else F.AXIS_CURRENT_run_scale))

/-- Coils A and B at the present microstep, from the active microstep table (R204, R218). -/
def Chip.coils (c : Chip) (n : Nat) : Int × Int :=
  let p := micro (c.axis n).x
  let w := c.tblAct .w (0x950000 + 4 * (modZ p 256).toNat)
  let k := c.coilScale n
  let a : Int := (bits w 11 0 * k / 256 : Nat)
  let b : Int := (bits w 27 16 * k / 256 : Nat)
  match (modZ (asr p 8) 4).toNat with
  | 0 => (a, b)
  | 1 => (-b, a)
  | 2 => (-a, -b)
  | _ => (b, -a)

/-- One PH word leaves (R205). -/
def Chip.sendPhase (c : Chip) (n : Nat) : Chip :=
  let q := c.coils n
  let b := leBytes 2 (toBits 16 q.1) ++ leBytes 2 (toBits 16 q.2)
  c.emit (.phase n (b ++ [crc8 0x07 0x00 b]))

/-! ### The motion profile (R206) -/

/-- Speed after one tick of the procedure, whether the axis brakes, and whether it cannot stop in time. -/
structure Profile where
  v : Int
  braking : Bool
  overrun : Bool
  deriving DecidableEq, Repr

/-- The procedure of R206 for a distance to go. -/
def profileStep (r v acc dec decLim vmax : Int) (braking overrun : Bool) : Profile :=
  let sg := signI r
  let sv := v * sg
  let need := if 0 < sv then ceilDiv (2 * sv * sv) r.natAbs else 0
  if sv < 0 then ⟨min 0 (sv + (if overrun then decLim else min decLim dec)) * sg, braking, overrun⟩
  else if 0 < sv && dec ≤ need then
    ⟨max 0 (sv - min decLim (max dec need)) * sg, true, overrun || decLim < need⟩
  else if braking then ⟨sv * sg, braking, overrun⟩
  else if vmax < sv then ⟨max vmax (sv - min decLim dec) * sg, braking, overrun⟩
  else ⟨min vmax (sv + acc) * sg, braking, overrun⟩

/-- Speed brought towards 0 by at most `d`. -/
def slowBy (v d : Int) : Int := if 0 < v then max 0 (v - d) else min 0 (v + d)

/-- Speed of a search towards its limit speed (R213). -/
def searchStep (v sg vs acc dec : Int) : Int :=
  let sv := v * sg
  (if sv < 0 then min 0 (sv + dec) else if vs < sv then max vs (sv - dec) else min vs (sv + acc)) * sg

/-- The axis rests at the home position, which becomes position 0; a STEP still due to reach it is issued (R213 step 5). -/
def Chip.homeDone (c : Chip) (n : Nat) : Chip :=
  (c.onAxis n fun a => { a with
    x := 0, out := a.out - micro a.homeTarget, enc := 0, homed := true, motion := .rest, braking := false
    overrun := false }).raise .w (119 + n)

/-- A move, or the last move of homing, towards a target in 2^-32 microsteps. -/
def Chip.moveTick (c : Chip) (n : Nat) (target : Int) (home : Bool) : Chip :=
  let a := c.axis n
  let r := target - a.x
  let p := profileStep r a.v (c.axWas n F.AXIS_ACC_value) (c.axWas n F.AXIS_DEC_value) (c.decLim n)
    (c.axWas n F.AXIS_VMAX_value) a.braking a.overrun
  let c1 := c.onAxis n fun a => { a with
    v := p.v, braking := p.braking, overrun := p.overrun, overSeen := a.overSeen || p.overrun }
  let c2 := if p.overrun && !a.overSeen then (c1.axisFault n F.AXIS_FAULT_overshoot).raise .w (117 + n) else c1
  if p.v ≠ 0 then c2
  else if r.natAbs ≤ 2 ^ 32 then
    if home then c2.homeDone n
    else c2.onAxis n fun a => { a with x := target, motion := .rest, braking := false, overrun := false }
  else c2.onAxis n fun a => { a with braking := false, overrun := false }

/-- The target becomes the rest position (AXIS_CMD op 2). -/
def Chip.targetHere (c : Chip) (n : Nat) : Chip :=
  c.put .w (F.AXIS_TARGET_microsteps.at n) (toBits 32 (micro (c.axis n).x))

/-- One profile tick of an axis that may move. -/
def Chip.motionTick (c : Chip) (n : Nat) : Chip :=
  let a := c.axis n
  let decLim : Int := c.decLim n
  let brake := min decLim (c.axWas n F.AXIS_DEC_value)
  match a.motion with
  | .rest | .faulted => c
  | .move => c.moveTick n (toSigned 32 (c.axWas n F.AXIS_TARGET_microsteps) * 2 ^ 32) false
  | .toHome => c.moveTick n a.homeTarget true
  | .stopping =>
    let v := slowBy a.v brake
    let c1 := c.onAxis n fun a => { a with v := v, motion := if v = 0 then .rest else .stopping }
    if v = 0 then c1.targetHere n else c1
  | .search fwd _ =>
    let v := searchStep a.v (dirSign fwd) (c.axWas n F.AXIS_HOME_V_value) (c.axWas n F.AXIS_ACC_value) brake
    c.onAxis n fun a => { a with v := v }
  | .turning fwd =>
    let v := slowBy a.v decLim
    c.onAxis n fun a => { a with v := v, motion := if v = 0 then .search (!fwd) true else a.motion }
  | .latched =>
    let v := slowBy a.v brake
    c.onAxis n fun a => { a with
      v := v, motion := if v = 0 then .toHome else a.motion, braking := false, overrun := false, overSeen := false }

/-- One profile tick: the motion, unless it waits for the run current, then the PH word. Holding current never applies while
the axis moves (R208). -/
def Chip.profileTick (c : Chip) (n : Nat) : Chip :=
  let c1 := c.onAxis n fun a => { a with profiles := a.profiles + 1 }
  let c2 := if (c1.axis n).startAt ≤ (c1.axis n).profiles then c1.motionTick n else c1
  (c2.onAxis n fun a => { a with atHold := a.atHold && a.v == 0 }).sendPhase n

/-! ### Limits (R209 to R211, R213, R214) -/

/-- Side towards which the axis moves: true is forward. -/
def Axis.heading (x : Axis) : Option Bool := if 0 < x.v then some true else if x.v < 0 then some false else none

/-- What a limit that becomes active brings about: nothing, a fault with or without a fault stop, or the reversed search. -/
inductive LimitAct where
  | none
  | fault (f : Fld) (stop : Bool)
  | turn
  deriving DecidableEq, Repr

/-- What becomes of an axis whose forward or reverse limit becomes active (R211, R213 steps 3 and 4, R214). -/
def Chip.limitAct (c : Chip) (n : Nat) (fwd : Bool) : LimitAct :=
  let a := c.axis n
  let away := a.heading == some (!fwd)
  match a.motion with
  | .rest | .faulted => .none
  | .move | .stopping =>
    if away then .fault F.AXIS_FAULT_wrong_side true
    else if a.heading == some fwd then .fault F.AXIS_FAULT_limit_hit true
    else if a.motion == .move && (0 < toSigned 32 (c.ax n F.AXIS_TARGET_microsteps) * 2 ^ 32 - a.x) == fwd then
      .fault F.AXIS_FAULT_limit_hit false
    else .none
  | .search s back =>
    if away then .fault F.AXIS_FAULT_wrong_side true
    else if s != fwd then .none
    else if back then .fault F.AXIS_FAULT_no_index true
    else .turn
  | .turning _ | .latched | .toHome => if away then .fault F.AXIS_FAULT_wrong_side true else .none

/-- The note of the profile tick under way: what its limit and index events have done so far. -/
def Chip.noteOf (c : Chip) (n : Nat) : AxisNote :=
  let t := (c.axis n).note
  if t.profile = c.profileNow then t else ⟨c.profileNow, none, false, c.ax n F.AXIS_INDEX_microsteps⟩

/-- A filtered limit becomes active. -/
def Chip.limitActive (c : Chip) (n : Nat) (fwd : Bool) : Chip :=
  let t := c.noteOf n
  match c.limitAct n fwd with
  | .none => c
  | .turn => c.onAxis n fun a => { a with motion := .turning fwd }
  | .fault f stop =>
    let c1 := (c.axisFault n f).onAxis n fun a => { a with note := { t with bit := some f.lo, wasSet := c.axFlag n f } }
    if stop then c1.faultStop n else c1.onAxis n fun a => { a with motion := .rest }

/-- Raw state of a limit input, by lim_pol. -/
def Chip.limRaw (c : Chip) (n : Nat) (fwd : Bool) : Bool := ((c.axis n).lim fwd).raw != c.axFlag n F.AXIS_CTRL_lim_pol

/-- Ticks for which a raw limit must be stable (R209). -/
def Chip.debounce (c : Chip) (n : Nat) : Nat :=
  let ms := c.ax n F.AXIS_INPUT_debounce_ms
  if ms = 0 then 1000 else ms * msTicks

/-- The limit and index events of the tick in which chatter is detected are ignored: what they wrote is undone (R217). -/
def Chip.undoNote (c : Chip) (n : Nat) : Chip :=
  let t := c.noteOf n
  let c1 := c.put .w (F.AXIS_INDEX_microsteps.at n) t.index
  match t.bit with
  | some b =>
    let f : Fld := { F.AXIS_FAULT_limit_hit.at n with hi := b, lo := b }
    if t.wasSet then c1 else (c1.put .w f 0).onDie .w (·.noteNow f 0)
  | none => c1

/-- Chatter (R210, R217): the event that an ignored limit event of the same tick raised stands for it. -/
def Chip.chatter (c : Chip) (n : Nat) : Chip :=
  let t := c.noteOf n
  let c1 := c.undoNote n
  let c2 := if t.bit.isSome then c1.setBit .w (F.AXIS_FAULT_chatter.at n) else c1.axisFault n F.AXIS_FAULT_chatter
  (c2.onAxis n fun a => { a with note := { t with bit := none } }).faultStop n

/-- An edge of a limit input, counted for chatter (R210). -/
def Chip.limitEdge (c : Chip) (n : Nat) (fwd : Bool) : Chip :=
  let w := max 1 (c.ax n F.AXIS_INPUT_chatter_ms) * msTicks
  let es := c.now :: (((c.axis n).lim fwd).edges.filter fun t => c.now - t < w)
  let c1 := c.onAxis n (·.onLim fwd fun l => { l with raw := !l.raw, since := c.now, edges := es })
  if c.ax n F.AXIS_INPUT_chatter_max < es.length then c1.chatter n else c1

/-! ### Commands (AXIS_CMD_n, R208, R211 to R213) -/

/-- A motion begins. Where the holding current was in force, the run current is restored and the first motion tick waits for
it, unless the reduction came in the same profile tick (R208, R217). -/
def Chip.beginMotion (c : Chip) (n : Nat) (m : Motion) : Chip :=
  c.onAxis n fun a => { a with
    motion := m, braking := false, overrun := false, overSeen := false, atHold := false, stepAt := c.now
    startAt := if a.atHold && a.heldAt ≠ c.profileNow then a.profiles + 50 else a.startAt }

/-- Op 1: a move to AXIS_TARGET_n. -/
def Chip.axisMove (c : Chip) (n : Nat) : Chip :=
  let a := c.axis n
  let r := toSigned 32 (c.ax n F.AXIS_TARGET_microsteps) * 2 ^ 32 - a.x
  if c.axisLocked n then c.axisFault n F.AXIS_FAULT_refused
  else if (0 < r && a.limFwd.active) || (r < 0 && a.limRev.active) then c.axisFault n F.AXIS_FAULT_limit_hit
  else c.beginMotion n .move

/-- Op 2: brake to rest. -/
def Chip.axisStop (c : Chip) (n : Nat) : Chip :=
  match (c.axis n).motion with
  | .rest | .faulted => c.targetHere n
  | _ => c.onAxis n fun a => { a with motion := .stopping, braking := false, overrun := false }

/-- Op 3: homing (R213 step 1). Every home command clears homed (R214). -/
def Chip.axisHome (c : Chip) (n : Nat) : Chip :=
  let c1 := c.onAxis n fun a => { a with homed := false }
  if c.axisLocked n then c1.axisFault n F.AXIS_FAULT_refused
  else
    let fwd := !c.axFlag n F.AXIS_CTRL_home_dir
    let back := ((c.axis n).lim fwd).active
    c1.beginMotion n (.search (fwd != back) back)

/-- Write of AXIS_CMD_n. -/
def Chip.writeAxisCmd (c : Chip) (n : Nat) (v : Word) : Chip :=
  match bits v 2 0 with
  | 1 => c.axisMove n
  | 2 => c.axisStop n
  | 3 => c.axisHome n
  | 4 => c.faultStop n
  | _ => c

/-- Write of AXIS_CTRL_n: EN_N follows en, and a change of polarity changes the raw state of both limits. -/
def Chip.writeAxisCtrl (c : Chip) (n : Nat) (v : Word) : Chip :=
  let c0 := c.onDie .w (·.setReg (0x0A0000 + 256 * n) (v &&& 0xF))
  let c1 := driveEnables c c0
  if bit v 2 != c.axFlag n F.AXIS_CTRL_lim_pol then
    c1.onAxis n fun a => (a.onLim true fun l => { l with since := c.now }).onLim false fun l => { l with since := c.now }
  else c1

/-! ### Encoders (R213, R215, R216) -/

/-- Place of encoder levels in the quadrature cycle. -/
def quadPlace (a b : Bool) : Nat :=
  match a, b with
  | false, false => 0
  | true, false => 1
  | true, true => 2
  | false, true => 3

/-- A sample of an encoder's stable levels (R215). -/
def Chip.encoderLevels (c : Chip) (n : Nat) (a b : Bool) : Chip :=
  let x := c.axis n
  let c1 := c.onAxis n fun x => { x with encA := a, encB := b }
  if a != x.encA && b != x.encB then
    let c2 := (c1.bump .w (F.AXIS_ENC_ERR_count.at n)).axisFault n F.AXIS_FAULT_enc_err
    if x.motion.homing then c2.faultStop n else c2
  else if a == x.encA && b == x.encB then c1
  else
    let up := ((quadPlace a b + 4 - quadPlace x.encA x.encB) % 4 == 1) != Config.encReversed
    c1.onAxis n fun x => { x with enc := (x.enc + (if up then 1 else 2 ^ 32 - 1)) % 2 ^ 32 }

/-- A level an input has held for 10 ns is its stable one (R215). -/
def settled (level : Bool) (held : Nat) (was : Bool) : Bool := if 10 ≤ held then level else was

/-- The inputs of an encoder, with the ticks for which each has held its level: the one that became stable earlier was counted in
an earlier sample (R215). -/
def Chip.encoderInputs (c : Chip) (n : Nat) (a b : Bool) (heldA heldB : Nat) : Chip :=
  let x := c.axis n
  let a' := settled a heldA x.encA
  let b' := settled b heldB x.encB
  if heldA = heldB then c.encoderLevels n a' b'
  else if heldB < heldA then (c.encoderLevels n a' x.encB).encoderLevels n a' b'
  else (c.encoderLevels n x.encA b').encoderLevels n a' b'

/-- A rising edge of ENCn_I: the first in a search latches the position (R213). -/
def Chip.indexEdge (c : Chip) (n : Nat) : Chip :=
  let a := c.axis n
  let t := c.noteOf n
  let latch (c : Chip) : Chip :=
    (c.put .w (F.AXIS_INDEX_microsteps.at n) (toBits 32 (micro a.x))).onAxis n fun a => { a with
      motion := .latched, note := t
      homeTarget := (micro a.x + toSigned 32 (c.ax n F.AXIS_HOME_OFS_microsteps)) * 2 ^ 32 }
  match a.motion with
  | .search _ _ | .turning _ => latch c
  | .rest | .move | .stopping | .faulted | .latched | .toHome => c

/-- The estimate of R216 over 16 samples, in counts per second, and the speed states of R173. -/
def Chip.encoderEstimate (c : Chip) (n : Nat) : Chip :=
  let a := c.axis n
  let t := c.tick48
  let words := ((a.enc, t) :: a.encWords).take 17
  let raw := match words.getLast? with
    | some (q, u) => if sdiff 48 t u = 0 then 0 else divZ (sdiff 32 a.enc q * 1000000000) (sdiff 48 t u)
    | none => 0
  let tr := (a.encTrack.word 32 (c.ax n F.AXIS_INPUT_enc_hyst) a.enc t).report
  let still := tr.2.speed != .still && tr.2.rested 48 (max 1 (c.ax n F.AXIS_INPUT_enc_still_ms) * msTicks)
  let tk := if still then tr.2.settle a.enc else tr.2
  c.onAxis n fun a => { a with
    encWords := words, encTrack := tk, encProvisional := tr.1, encSpeed := tk.speedOf raw, estimates := a.estimates + 1 }

/-- State code of an axis (AXIS_STATUS_n). -/
def Chip.axisState (c : Chip) (n : Nat) : Nat :=
  let a := c.axis n
  if !c.axisOn n then 0
  else match a.motion with
  | .rest => 1
  | .move => if a.braking then 3 else 2
  | .stopping => 3
  | .faulted => 5
  | .search _ _ | .turning _ | .latched | .toHome => 4

/-! ### Meanings -/

/-- AXIS_STEP_TICK (R203): the next step tick, every 250 core ticks. -/
def execAxisStepTick (n : Nat) (s : State) : Res :=
  s.nextChip fun c => if n < 2 && 250 * ((c.axis n).steps + 1) ≤ c.now then c.stepTick n else c

/-- AXIS_PROFILE_TICK (R206): the next profile tick, every 1,000 core ticks. -/
def execAxisProfileTick (n : Nat) (s : State) : Res :=
  s.nextChip fun c => if n < 2 && 1000 * ((c.axis n).profiles + 1) ≤ c.now then c.profileTick n else c

/-- AXIS_STILL_TIMEOUT (R208): never while v ≠ 0; a still_ms of 0 disables the reduction. -/
def execAxisStillTimeout (n : Nat) (s : State) : Res :=
  s.nextChip fun c =>
    let a := c.axis n
    let ms := c.ax n F.AXIS_CURRENT_still_ms
    if n < 2 && ms ≠ 0 && a.v = 0 && !a.atHold && ms * msTicks ≤ c.now - a.stepAt then
      c.onAxis n fun a => { a with atHold := true, heldAt := c.profileNow }
    else c

/-- LIMIT_FILTER_CHANGE (R209, R211): the raw state has differed from the filtered one for debounce_ms. -/
def execLimitFilterChange (n : Nat) (fwd : Bool) (s : State) : Res :=
  s.nextChip fun c =>
    let l := (c.axis n).lim fwd
    let raw := c.limRaw n fwd
    if n < 2 && raw != l.active && c.debounce n ≤ c.now - l.since then
      let c1 := c.onAxis n (·.onLim fwd fun l => { l with active := raw })
      if raw then c1.limitActive n fwd else c1
    else c

/-- LIMIT_RAW_EDGE (R210). -/
def execLimitRawEdge (n : Nat) (fwd : Bool) (s : State) : Res :=
  s.nextChip fun c => if n < 2 then c.limitEdge n fwd else c

/-- ENCODER_TRANSITION (R215). -/
def execEncoderTransition (n : Nat) (a b : Bool) (heldA heldB : Nat) (s : State) : Res :=
  s.nextChip fun c => if n < 2 then c.encoderInputs n a b heldA heldB else c

/-- ENCODER_INDEX_EDGE (R213). -/
def execEncoderIndexEdge (n : Nat) (s : State) : Res :=
  s.nextChip fun c => if n < 2 then c.indexEdge n else c

/-- ENCODER_SPEED_ESTIMATE (R216): every 10 µs. -/
def execEncoderSpeedEstimate (n : Nat) (s : State) : Res :=
  s.nextChip fun c => if n < 2 && 10 * usTicks * ((c.axis n).estimates + 1) ≤ c.now then c.encoderEstimate n else c

/-- AXIS_MOVE (R211, R212). -/
def execAxisMove (_m : Master) (n : Nat) (s : State) : Res :=
  s.nextBus fun c => if n < 2 && c.schedHere then c.axisMove n else c

/-- AXIS_STOP (R206, R217). -/
def execAxisStop (_m : Master) (n : Nat) (s : State) : Res :=
  s.nextBus fun c => if n < 2 && c.schedHere then c.axisStop n else c

/-- AXIS_HOME (R213). -/
def execAxisHome (_m : Master) (n : Nat) (s : State) : Res :=
  s.nextBus fun c => if n < 2 && c.schedHere then c.axisHome n else c

/-- AXIS_FAULT_STOP (R210). -/
def execAxisFaultStop (_m : Master) (n : Nat) (s : State) : Res :=
  s.nextBus fun c => if n < 2 && c.schedHere then c.faultStop n else c

end Sys2Proof.Machine
end

