-- ==== Sys2Proof/Machine/Dram.lean ====
section
/-! DEFINITION. Memory and error correction (chapter 10, R277 to R306, with R48 to R52): the DRAM words, the SECDED
verdicts, the correctable-error log, page retirement, budgets, refresh, training, fills and the scrubbers. -/

namespace Sys2Proof.Machine

/-! ### The DRAM code (R287, R288) -/

/-- The poison data P. -/
def poisonData : Nat := 0xA5A5A5A5A5A5A5A5

/-- The poison word: "never written". -/
def poisonDWord : DWord := ⟨poisonData, 0xFF⟩

/-- The `n`-bit columns whose weights are listed, in ascending order. -/
def columnPool (n : Nat) (weights : List Nat) : List Nat := (List.range (2 ^ n)).filter fun c => weights.contains (popcount n c)

/-- Columns taken out of a pool one after another, each by an open choice. -/
def drawColumns (choice : Nat → Nat) : Nat → Nat → List Nat → List Nat
  | 0, _, _ => []
  | n + 1, i, pool =>
    let c := pool.getD (choice i % pool.length) 0
    c :: drawColumns choice n (i + 1) (pool.filter (· != c))

/-- The columns of the data bits but bit 37, in order. -/
def freeColumns : List Nat := drawColumns Config.dramCol 63 0 ((columnPool 8 [3, 5]).filter (· != 0x0B))

/-- The columns of the data bits: that of bit 37 is 0x0B in this silicon (chapter 10, "a weak bit retired"). -/
def dataColumns : List Nat := freeColumns.take 37 ++ 0x0B :: freeColumns.drop 37

/-- The check columns of bit positions 0 to 71 (R287): distinct, of weight 3 or 5 for a data bit and 1 for a check bit. Which of
them is which bit's is open, but for bit 37. -/
def dramColumns : List Nat := dataColumns ++ drawColumns Config.dramCol 8 64 (columnPool 8 [1])

/-- Check column of a bit position, 0 to 71. -/
def dramColumn (i : Nat) : Nat := dramColumns.getD i 0

/-- A stored bit changes. -/
def DWord.flip (w : DWord) (i : Nat) : DWord :=
  ⟨if i < 64 then w.data ^^^ 2 ^ i else w.data, w.syn ^^^ dramColumn i⟩

/-- Verdicts of R288, with the bit position that is corrected. -/
inductive DramVerdict where
  | clean | poison
  | poisonFixed (bit : Nat)
  | fixed (bit : Nat)
  | uncorrectable
  deriving DecidableEq, Repr

/-- The verdict on a stored word: the first line of R288 that applies. -/
def DWord.judge (w : DWord) : DramVerdict :=
  if w.syn = 0 then .clean
  else if w.syn = 0xFF && w.data = poisonData then .poison
  else match (List.range 8).find? fun k => w.data = poisonData && w.syn = 0xFF ^^^ dramColumn (64 + k) with
  | some k => .poisonFixed (64 + k)
  | none =>
    match (List.range 64).find? fun i => w.data ^^^ poisonData = 2 ^ i && w.syn = 0xFF ^^^ dramColumn i with
    | some i => .poisonFixed i
    | none =>
      match (List.range 72).find? fun i => w.syn = dramColumn i with
      | some i => .fixed i
      | none => .uncorrectable

/-- The bit that a verdict corrects. -/
def DramVerdict.bit? : DramVerdict → Option Nat
  | .poisonFixed i | .fixed i => some i
  | _ => none

/-- How the read ends for the unit that reads. -/
def DramVerdict.read : DramVerdict → MemRead
  | .clean | .fixed _ => .clean
  | .poison | .poisonFixed _ => .poison
  | .uncorrectable => .ue

/-- The word that the write-back of R293 stores. -/
def DWord.repaired (w : DWord) : DWord :=
  match w.judge with
  | .poisonFixed _ => poisonDWord
  | .fixed i => ⟨if i < 64 then w.data ^^^ 2 ^ i else w.data, 0⟩
  | _ => w

/-- The data that a read returns (R288). -/
def DWord.readData (w : DWord) : Nat :=
  match w.judge with
  | .poison | .poisonFixed _ => poisonData
  | _ => w.repaired.data

/-! ### The SRAM code (R289, R293) -/

/-- The check columns of bit positions 0 to 136 of an SRAM word: distinct, of weight 3, 5 or 7 for a data bit and 1 for a check
bit; which of them is which bit's is open. -/
def sramColumns : List Nat :=
  drawColumns Config.sramCol 128 0 (columnPool 9 [3, 5, 7]) ++ drawColumns Config.sramCol 9 128 (columnPool 9 [1])

/-- Check column of a bit position of an SRAM word. -/
def sramColumn (i : Nat) : Nat := sramColumns.getD i 0

/-- A member of a list is taken out, or put in. -/
def toggle (l : List Nat) (i : Nat) : List Nat := if l.contains i then l.filter (· != i) else l ++ [i]

/-- A word that holds its contents. -/
def SramState.good : SramState := ⟨false, []⟩

/-- Stored bits change. -/
def SramState.flip (x : SramState) (flips : List Nat) : SramState := { x with flips := flips.foldl toggle x.flips }

/-- The syndrome of a word. -/
def SramState.syn (x : SramState) : Nat := x.flips.foldl (fun s i => s ^^^ sramColumn i) (if x.poison then 0x1FF else 0)

/-- The data bit in which a poison word differs from the poison value, when it is one. -/
def SramState.oneData (x : SramState) : Option Nat :=
  match x.flips.filter (· < 128) with
  | [i] => if x.poison then some i else none
  | _ => none

/-- The poison value stands in a word's data bits. What its unit has stored there is taken not to be that value (DEDUCED, log
entry 30). -/
def SramState.holdsPoison (x : SramState) : Bool := x.poison && (x.flips.filter (· < 128)).isEmpty

/-- The verdict on an SRAM word: the table of R288, with 0x1FF in place of 0xFF (R289). -/
def SramState.judge (x : SramState) : DramVerdict :=
  if x.syn = 0 then .clean
  else if x.syn = 0x1FF && x.holdsPoison then .poison
  else match (List.range 9).find? fun k => x.holdsPoison && x.syn = 0x1FF ^^^ sramColumn (128 + k) with
  | some k => .poisonFixed (128 + k)
  | none =>
    match x.oneData.filter fun i => x.syn = 0x1FF ^^^ sramColumn i with
    | some i => .poisonFixed i
    | none =>
      match (List.range 137).find? fun i => x.syn = sramColumn i with
      | some i => .fixed i
      | none => .uncorrectable

/-- What a read leaves in the word (R293): a correction is written back, and an uncorrectable word becomes poison. -/
def SramState.after (x : SramState) : SramState :=
  match x.judge with
  | .poisonFixed _ | .uncorrectable => ⟨true, []⟩
  | .fixed i => { x with flips := toggle x.flips i }
  | .clean | .poison => x

/-! ### The stored words -/

/-- The stored words of a die. -/
def State.dram (s : State) : DieId → List (Nat × DWord)
  | .w => s.dramW
  | .e => s.dramE

/-- Change the stored words of a die. -/
def State.onDramWords (s : State) (d : DieId) (f : List (Nat × DWord) → List (Nat × DWord)) : State :=
  match d with
  | .w => { s with dramW := f s.dramW }
  | .e => { s with dramE := f s.dramE }

/-- Change the module, in a state. -/
def State.onChip (s : State) (f : Chip → Chip) : State := { s with chip := f s.chip }

/-- A command that may also change the DRAM contents. -/
def State.nextAll (s : State) (f : State → State) : Res := .next (if s.chip.running then f s else s)

/-- The word stored for a die address. -/
def State.dramWord (s : State) (d : DieId) (addr : Nat) : DWord :=
  smGet poisonDWord ((s.chip.die d).dram.physical addr / 8) (s.dram d)

/-- Store a word as it stands. -/
def State.storeWord (s : State) (d : DieId) (addr : Nat) (w : DWord) : State :=
  s.onDramWords d (smSet poisonDWord ((s.chip.die d).dram.physical addr / 8) w)

/-- The word that an armed injection awaits (R304). -/
def Chip.injectWord (c : Chip) (d : DieId) : Nat :=
  (c.fld d F.ECC_INJECT_addr_low + 2 ^ 32 * c.fld d F.ECC_INJECT_1_addr_high) / 8

/-- An address lies in an area, in units of 64 KiB. -/
def inArea (addr : Nat) (a : Nat × Nat) : Bool := 65536 * a.1 ≤ addr && addr < 65536 * (a.1 + a.2)

/-- An address lies in an area of Grist reception or the Cask: what it stores where is not specified. -/
def DramCtl.inOpen (x : DramCtl) (addr : Nat) : Bool := x.opened.any (inArea addr)

/-- What an address holds is not specified: no other client has written it since the area's use. -/
def DramCtl.isOpen (x : DramCtl) (addr : Nat) : Bool := x.inOpen addr && !x.written.contains (addr / 8)

/-- Another client writes a word in such an area. -/
def DramCtl.noteWrite (x : DramCtl) (addr : Nat) : DramCtl :=
  if x.isOpen addr then { x with written := addr / 8 :: x.written } else x

/-- A word is written: an injection armed for it is made (R304). -/
def State.writeWord (s : State) (d : DieId) (addr : Nat) (w : DWord) : State :=
  let c := s.chip
  let s := s.onChip fun c => (c.touch d ((c.die d).dram.physical addr)).onDram d (·.noteWrite addr)
  if c.flag d F.ECC_INJECT_2_arm && c.injectWord d == addr / 8 then
    let w1 := w.flip (c.fld d F.ECC_INJECT_2_bit_a)
    let w2 := if c.flag d F.ECC_INJECT_2_two then w1.flip (c.fld d F.ECC_INJECT_2_bit_b) else w1
    (s.storeWord d addr w2).onChip (·.put d F.ECC_INJECT_2_arm 0)
  else s.storeWord d addr w

/-! ### Retirement (R295 to R298) -/

/-- Spare pages of a channel in use or being copied to. -/
def DramCtl.sparesUsed (x : DramCtl) (channel : Nat) : List Nat :=
  ((x.retired.filter (·.1 / 256 == channel)).map (·.1 % 256)) ++ ((x.copies.filter (·.channel == channel)).map (·.spare))

/-- Free spare pages of a channel (ECC_POOL_c). -/
def DramCtl.poolFree (x : DramCtl) (channel : Nat) : Nat := 256 - (x.sparesUsed channel).length

/-- A die page is retired, or its copy runs. -/
def DramCtl.isRetired (x : DramCtl) (page : Nat) : Bool :=
  x.retired.any (fun p => p.1 / 256 == page % 4 && p.2 == page / 4) ||
  x.copies.any (fun k => k.channel == page % 4 && k.page == page / 4)

/-- A retirement copy starts, to the lowest free spare of the channel (R297). -/
def Chip.startCopy (c : Chip) (d : DieId) (page : Nat) : Chip :=
  c.onDram d fun x =>
    match (List.range 256).find? fun i => !(x.sparesUsed (page % 4)).contains i with
    | some i => { x with copies := x.copies ++ [⟨page % 4, page / 4, i, c.now⟩] }
    | none => x

/-- Write of ECC_RETIRE_CMD (R298). -/
def Chip.retireCmd (c : Chip) (d : DieId) (v : Word) : Chip :=
  let page := bits v 22 0
  if !bit v 31 then c
  else if reservedPage ≤ page || (c.die d).dram.isRetired page || (c.die d).dram.poolFree (page % 4) = 0 then c.raise d 164
  else c.startCopy d page

/-! ### The correctable-error log (R293 to R296) -/

/-- Change an entry's state. -/
def Chip.setEntryState (c : Chip) (d : DieId) (i st : Nat) : Chip :=
  c.onDram d fun x => { x with log := x.log.map fun p => if p.1 == i then (i, { p.2 with state := st }) else p }

/-- An entry that reached recurrence 3 in this clock has just begun to retire a page of the channel above a page: its index
and the copy (R303). -/
def Chip.laterCopy (c : Chip) (d : DieId) (page : Nat) : Option (Nat × PageCopy) :=
  let x := (c.die d).dram
  (x.copies.find? fun k => k.channel == page % 4 && page < diePage k.channel k.page && k.at_ == c.now).bind fun k =>
    (x.log.find? fun p => p.2.region == 1 && p.2.state == 2 && p.2.recurrence == 3 && p.2.lastAt == c.now &&
      pageOf p.2.addr == diePage k.channel k.page).map fun p => (p.1, k)

/-- An entry becomes stuck: no spare is left (R296). -/
def Chip.stick (c : Chip) (d : DieId) (i : Nat) : Chip := (c.setEntryState d i 3).raise d 163

/-- A recurring page whose channel has no free spare: the entry becomes stuck and the page stays in service (R296), unless a
higher page took the last spare in this clock: then the lower is retired (R303). -/
def Chip.poolEmpty (c : Chip) (d : DieId) (i addr : Nat) : Chip :=
  match c.laterCopy d (pageOf addr) with
  | some (j, k) =>
    ((c.setEntryState d i 2).onDram d fun x => { x with
      copies := x.copies.map fun y => if y = k then { y with page := pageOf addr / 4 } else y }).stick d j
  | none => c.stick d i

/-- An entry's recurrence has reached 3 (R295, R296). -/
def Chip.recurs (c : Chip) (d : DieId) (i region addr : Nat) : Chip :=
  if region ≠ 1 then (c.setEntryState d i 3).raise d 166
  else if (c.die d).dram.isRetired (pageOf addr) then c.setEntryState d i 2
  else if (c.die d).dram.poolFree (channelOf addr) = 0 then c.poolEmpty d i addr
  else if c.flag d F.ECC_CTRL_retire_en then (c.setEntryState d i 2).startCopy d (pageOf addr) else c

/-- The entry to take when the log is full: the lowest recurrence, the oldest among equals, never retired or stuck. -/
def victim (log : List (Nat × EccEntry)) : Option Nat :=
  ((log.filter (·.2.state == 1)).foldl (fun (b : Option (Nat × EccEntry)) p =>
    match b with
    | none => some p
    | some q =>
      if p.2.recurrence < q.2.recurrence || (p.2.recurrence == q.2.recurrence && p.2.taken < q.2.taken) then some p
      else b) none).map (·.1)

/-- The index that a new address takes, and whether it evicts (R294, R303). -/
def DramCtl.logPlace (x : DramCtl) : Option Nat × Bool :=
  match (List.range 16).find? fun i => !x.log.any (·.1 == i) with
  | some i => (some i, false)
  | none => (victim x.log, true)

/-- A correction is counted and logged (R288, R293, R294). `early` says that the write-back of the address's previous
correction is still pending; two corrections of one word in one clock count once (R303). -/
def Chip.logCorrection (c : Chip) (d : DieId) (region channel addr bitPos : Nat) (check : Bool) (syn : Nat)
    (early : Bool) : Chip :=
  let slot := c.sched.slot % 2 ^ 32
  let old := (c.die d).dram.log.find? fun p => p.2.region == region && p.2.addr == addr
  if (c.die d).dram.fixedNow.contains (region, addr) then c
  else
    let c0 := c.onDram d fun x => { x with fixedNow := x.fixedNow ++ [(region, addr)] }
    let c1 := (c0.bump d F.ECC_CE_COUNT_count).whenB check (·.bump d F.ECC_CHKBIT_COUNT_count)
    match old with
    | some (i, e) =>
      let n := if early then e.recurrence else min 3 (e.recurrence + 1)
      let e1 := { e with
        bit := bitPos, checkBit := check, recurrence := n, syndrome := syn, corrections := satAdd 65535 e.corrections 1
        lastTime := c.time, lastSlot := slot, lastAt := c.now }
      let c2 := c1.onDram d fun x => { x with log := smInsert i e1 x.log }
      if e.recurrence < 3 && n = 3 then c2.recurs d i region addr else c2
    | none =>
      let place := (c.die d).dram.logPlace
      let c2 := c1.whenB place.2 (·.bump d F.ECC_CE_EVICT_COUNT_count)
      match place.1 with
      | none => c2
      | some i =>
        let e : EccEntry :=
          { region := region, channel := channel, state := 1, bit := bitPos, checkBit := check, recurrence := 0
            syndrome := syn, corrections := 1, addr := addr, firstTime := c.time, lastTime := c.time, lastSlot := slot
            taken := c.now, lastAt := c.now }
        c2.onDram d fun x => { x with log := smInsert i e x.log }

/-- A core is reset and its sections are to be read again (R356, R361): only its own state, stack and sleep state. -/
def Chip.reloadCore (c : Chip) (d : DieId) (k cause : Nat) : Chip :=
  ((c.onDie d (·.onMc k fun m => { m with state := .reloading, cause := cause, since := c.now })).onEvt d
    (·.onCore k fun q => { q with stack := [], sleep := .awake })).onDie d (·.settleMode k)

/-- A core stops: a machine check (1) or a missed kick (2); with auto_restart it is reloaded (R356). -/
def Chip.stopCore (c : Chip) (d : DieId) (k cause : Nat) : Chip :=
  let c1 := (c.onDie d (·.onMc k fun m => { m with state := .stopped, cause := cause, since := c.now })).onEvt d
    (·.onCore k fun q => { q with unavailSince := if q.sleep == .asleep then q.unavailSince else c.now })
  if c.flag d (F.CFG_MC_CTRL_auto_restart.at k) then c1.reloadCore d k cause else c1

/-- An uncorrectable or poison read by a core (R300, R356). -/
def Chip.machineCheck (c : Chip) (d : DieId) (k : Nat) : Chip :=
  if ((c.die d).mc k).state == .running then (c.stopCore d k 1).raise d 213 else c

/-! ### Reads (R288, R293, R300) -/

/-- What stands for a word in an area whose contents are open: it may never have been written. -/
def Chip.openWord (c : Chip) : DWord × Chip :=
  let a := c.freshBelow 2
  let b := a.2.freshBelow (2 ^ 64)
  if a.1 = 0 then (poisonDWord, a.2) else (⟨b.1, 0⟩, b.2)

/-- A word is read for a client after `flips` of its stored bits have changed: it is judged, a correction is written back
and logged, and an uncorrectable or poison word is reported when `report` says so. The verdict and the data are answered too. -/
def State.readWord (s : State) (d : DieId) (client addr : Nat) (flips : List Nat) (early : Bool)
    (report : DramVerdict → Bool) : DramVerdict × Nat × State :=
  let x := (s.chip.die d).dram
  let phys := x.physical addr
  let free := x.isOpen addr
  let o := s.chip.openWord
  let w := flips.foldl DWord.flip (if free then o.1 else s.dramWord d addr)
  let s1 := if free then s.onChip fun _ => o.2 else s.storeWord d addr w
  let v := w.judge
  let s2 := match v.bit? with
    | none => s1
    | some b =>
      ((if free then s1 else s1.storeWord d addr w.repaired).onChip fun c =>
        (c.bump d F.DRAM_SYS_TXN_count).logCorrection d 1 (channelOf addr) phys b (64 ≤ b) w.syn early)
  (v, w.readData, if report v then s2.onChip (·.readError d v.read 1 (channelOf addr) client phys) else s2)

/-- The data that a read returns to its client: P for a word that the management client cannot read (R300), and as R288 says
for every other. -/
def returned (client : Nat) (v : DramVerdict) (data : Nat) : Nat :=
  if client = 2 && v.read != .clean then poisonData else data

/-- A read of a client is carried out. -/
def State.clientRead (s : State) (d : DieId) (q : DramReq) : State :=
  let phys := (s.chip.die d).dram.physical q.addr
  let r := (s.onChip (·.serve d q.client phys)).readWord d q.client q.addr q.flips q.early fun _ => true
  let s1 := r.2.2.onChip (·.emit (.dramData d q.client q.addr (returned q.client r.1 r.2.1)))
  match q.core, r.1.read with
  | some k, .ue | some k, .poison => s1.onChip (·.machineCheck d k)
  | _, _ => s1

/-! ### Arbitration (R280, R281) -/

/-- The page of an address is being copied: accesses to it stall (R297). -/
def DramCtl.copying (x : DramCtl) (addr : Nat) : Bool :=
  x.copies.any fun k => diePage k.channel k.page == pageOf (x.physical addr)

/-- The row of an address is open in its bank. -/
def DramCtl.rowOpen (x : DramCtl) (addr : Nat) : Bool :=
  let p := x.physical addr
  x.openRow (16 * channelOf p + bankOf p) == rowOf p + 1

/-- A read of an address, or of an area, waits: a write to it comes after it (R281). -/
def DramCtl.readWaits (x : DramCtl) (p : Nat → Bool) : Bool := x.queue.any fun q => p q.addr

/-- Requests that may be served now, oldest first: within their budgets, not to a page being copied, on a channel that has room,
none of the same line before them (R281). `older` are those before the list. -/
def Chip.servable (c : Chip) (d : DieId) : List DramReq → List DramReq → List DramReq
  | _, [] => []
  | older, q :: l =>
    let rest := c.servable d (q :: older) l
    if c.stalls d q.client || (c.die d).dram.copying q.addr || (c.die d).dram.room (channelOf q.addr) = 0 || older.any (fun r => r.addr / 64 == q.addr / 64) then rest
    else q :: rest

/-- The request that a channel serves next (R50, R280): one that 16 younger ones have passed, and otherwise by the client's
priority, then one to an open row, then the oldest. -/
def Chip.nextReq (c : Chip) (d : DieId) : Option DramReq :=
  let x := (c.die d).dram
  let rank (q : DramReq) : Nat := 2 * q.client + b2n (!x.rowOpen q.addr)
  match c.servable d [] x.queue with
  | [] => none
  | q :: l =>
    let same := q :: l.filter fun r => channelOf r.addr == channelOf q.addr
    match same.find? fun r => 16 ≤ r.passed with
    | some r => some r
    | none => some (l.foldl (fun b r => if channelOf r.addr == channelOf q.addr && rank r < rank b then r else b) q)

/-- The queue without a request, which has passed the older ones of its channel. -/
def passOver (q : DramReq) : List DramReq → List DramReq
  | [] => []
  | r :: l =>
    if r = q then l
    else (if channelOf r.addr = channelOf q.addr then { r with passed := r.passed + 1 } else r) :: passOver q l

/-- Up to `n` requests are served, one after another. -/
def State.serveReads (s : State) (d : DieId) : Nat → State
  | 0 => s
  | n + 1 =>
    match s.chip.nextReq d with
    | none => s
    | some q =>
      ((s.onChip (·.onDram d fun x => { x with queue := passOver q x.queue })).clientRead d q).serveReads d n

/-- Every request that may be served is; clients whose requests wait for their budgets stall (R48). -/
def State.runReads (s : State) (d : DieId) : State :=
  let n := (s.chip.die d).dram.queue.length
  if n = 0 || !(s.chip.die d).dram.active then s
  else (s.serveReads d n).onChip fun c =>
    c.forEach (c.die d).dram.queue fun c q => if c.stalls d q.client then c.stallRead d q.client else c

/-! ### Retirement copies (R297) -/

/-- Words of a die page. -/
def pageHas (page idx : Nat) : Bool := idx / 512 == page

/-- The copy of a page: the listed words of the page replace those of the spare, corrected by R288. -/
def copyWords (m : List (Nat × DWord)) (page spare : Nat) : List (Nat × DWord) :=
  (m.filter fun p => pageHas page p.1).foldl
    (fun l p => smSet poisonDWord (512 * spare + p.1 % 512) p.2.repaired l) (m.filter fun p => !pageHas spare p.1)

/-- The oldest retirement copy of a die completes: words corrected on the way are counted and logged, an uncorrectable one
is reported, and the spare becomes valid. -/
def State.finishCopy (s : State) (d : DieId) (k : PageCopy) : State :=
  let page := diePage k.channel k.page
  let spare := diePage k.channel (sparePage0 + k.spare)
  let words := (s.dram d).filter fun p => pageHas page p.1
  let rows (p : Nat) : List Nat := [4096 * p, 4096 * p + 2048]
  let s1 := (s.onDramWords d fun m => copyWords m page spare).onChip fun c => c.forEach words fun c p =>
    match p.2.judge with
    | .fixed b | .poisonFixed b => c.logCorrection d 1 k.channel (8 * p.1) b (64 ≤ b) p.2.syn false
    | .uncorrectable => c.readError d .ue 1 k.channel 7 (8 * p.1)
    | .clean | .poison => c
  s1.onChip fun c =>
    (((c.forEach (rows page ++ rows spare) fun c a => c.touch d a).onDram d fun x => { x with
        copies := x.copies.drop 1, retired := smInsert (256 * k.channel + k.spare) k.page x.retired }).onDie d
      (·.bumpBy F.DRAM_SYS_TXN_count 128)).raise d 162

/-! ### Fills (R291) -/

/-- Two areas meet, in units of 64 KiB. -/
def areasMeet (a n b m : Nat) : Bool := n ≠ 0 && m ≠ 0 && a < b + m && b < a + n

/-- The boot fill runs (R291): after training, until it completes. -/
def Chip.bootFilling (c : Chip) (d : DieId) : Bool :=
  let x := (c.die d).dram
  !x.active && x.trained == 15 && c.cfg.stage == .dram

/-- Lines of a fill. -/
def Fill.lines (f : Fill) : Nat := 1024 * f.size64k

/-- Write of DRAM_FILL_CTRL: a fill is charged to the management budget, 1,024 lines for each 64 KiB. -/
def Chip.writeFillCtrl (c : Chip) (d : DieId) (v : Word) : Chip :=
  let op := bits v 1 0
  let a := c.fld d F.DRAM_FILL_BASE_base_64k
  let n := c.fld d F.DRAM_FILL_SIZE_size_64k
  if !bit v 2 || (op ≠ 1 && op ≠ 2) then c
  else if 524160 < a + n || c.bootFilling d || (c.die d).dram.fills.any (fun f => areasMeet a n f.base64k f.size64k) ||
    (c.flag d F.GRIST_CTRL_enable &&
      areasMeet a n (c.fld d F.GRIST_RX_BASE_base_64k) (c.fld d F.GRIST_RX_SIZE_size_64k)) ||
    (c.flag d F.CASK_CTRL_enable && areasMeet a n (c.fld d F.CASK_BASE_base_64k) (c.fld d F.CASK_SIZE_size_64k))
  then c.raise d 167
  else
    let pat : DWord := ⟨c.fld d F.DRAM_TRAIN_PAT_pat_low + 2 ^ 32 * c.fld d F.DRAM_TRAIN_PAT_1_pat_high, 0⟩
    let f : Fill := ⟨if op = 1 then poisonDWord else pat, a, n⟩
    (c.onDram d fun x => { x with fills := x.fills ++ [f] }).askLines d 2 f.lines

/-- What is left of an area outside another, in units of 64 KiB. -/
def cutArea (b m : Nat) (a : Nat × Nat) : List (Nat × Nat) :=
  if areasMeet a.1 a.2 b m then [(a.1, b - a.1), (b + m, a.1 + a.2 - (b + m))].filter (·.2 != 0) else [a]

/-- The oldest fill completes: every word of its area holds its word. -/
def State.fillArea (s : State) (d : DieId) (f : Fill) : State :=
  let s1 := s.onChip (·.onDram d fun x => { x with
    fills := x.fills.drop 1, opened := x.opened.flatMap (cutArea f.base64k f.size64k) })
  (List.range (8192 * f.size64k)).foldl (fun s i => s.writeWord d (65536 * f.base64k + 8 * i) f.word) s1

/-- The oldest fill may complete: its lines have been let through, none of its pages is being copied, and no older read of it
waits (R281, R297). -/
def DramCtl.fillDone (x : DramCtl) (f : Fill) : Bool :=
  x.waiting 2 ≤ ((x.fills.drop 1).map (·.lines)).sum &&
  !x.copies.any (fun k => inArea (4096 * diePage k.channel k.page) (f.base64k, f.size64k)) &&
  !x.readWaits fun a => inArea a (f.base64k, f.size64k)

/-- The boot fill completes: every word is the poison word, the retirement table is clear, and the channels serve. -/
def State.bootFill (s : State) (d : DieId) : State :=
  (s.onDramWords d fun _ => []).onChip fun c => c.onDram d fun x => { x with
    retired := [], copies := [], active := true, opened := [], written := [], lapAt := c.now, rowSeed := none
    openRows := (List.range 64).map fun i => (i, rowOf (dramBytes - 1) + 1)
    lastReq := (List.range 4).map (·, c.now) }

/-! ### Training (R286) -/

/-- Word `i` of the selected pattern. -/
def TrainOp.word (t : TrainOp) (i : Nat) : Nat :=
  if t.pattern = 1 then 2 ^ (i % 64)
  else if t.pattern = 2 then 2 ^ 64 - 1 - 2 ^ (i % 64)
  else if t.pattern = 3 then t.pat
  else Config.prbsWord i % 2 ^ 64

/-- Die address of word `i` of the operation; words beyond the training window have none. -/
def TrainOp.addr (t : TrainOp) (i : Nat) : Option Nat :=
  let line := t.line + i / 8
  if line < 16384 then
    let a := 0x1FFE00 * 4096 + line * 64 + 8 * (i % 8)
    some (diePage t.channel (a / 4096) * 4096 + a % 4096)
  else none

/-- Words of the operation within the window, with their addresses. -/
def TrainOp.words (t : TrainOp) : List (Nat × Nat) :=
  (List.range (8 * t.lines)).filterMap fun i => (t.addr i).map (i, ·)

/-- Transactions of the operation, charged to the management budget (R286): one for each line within the window that is
written, and one for each that is read. -/
def TrainOp.transactions (t : TrainOp) : Nat :=
  min t.lines (16384 - t.line) * (b2n (t.op % 2 = 1) + b2n (2 ≤ t.op))

/-- Write of DRAM_TRAIN_CTRL. While an operation runs, a start is not obeyed. -/
def Chip.writeTrainCtrl (c : Chip) (d : DieId) (v : Word) : Chip :=
  let c1 := c.puts d [(F.DRAM_TRAIN_CTRL_channel, bits v 1 0), (F.DRAM_TRAIN_CTRL_op, bits v 3 2),
    (F.DRAM_TRAIN_CTRL_pattern, bits v 6 4)]
  if !bit v 7 || (c.die d).dram.train.isSome then c1
  else
    let t : TrainOp := ⟨bits v 1 0, bits v 3 2, bits v 6 4, c.fld d F.DRAM_TRAIN_ADDR_lines,
      max 1 (c.fld d F.DRAM_TRAIN_LEN_lines),
      c.fld d F.DRAM_TRAIN_PAT_pat_low + 2 ^ 32 * c.fld d F.DRAM_TRAIN_PAT_1_pat_high⟩
    ((c1.puts d [(F.DRAM_TRAIN_RESULT_lane_err_low, 0), (F.DRAM_TRAIN_RESULT_1_lane_err_high, 0),
      (F.DRAM_TRAIN_RESULT_2_lane_err_chk, 0), (F.DRAM_TRAIN_RESULT_3_errors, 0)]).onDram d fun x =>
        { x with train := some t }).askLines d 2 t.transactions

/-- Lanes (0 to 71) at which a stored word differs from the pattern. -/
def laneErrors (w : DWord) (pat : Nat) : List Nat :=
  let diff := w.data ^^^ pat
  let lanes := onesOf 64 diff
  let chk := lanes.foldl (fun s i => s ^^^ dramColumn i) w.syn
  lanes ++ (((List.range 8).filter fun k => chk &&& dramColumn (64 + k) ≠ 0).map (64 + ·))

/-- The operation ends: the patterns are written, and the compare records its errors; `misread` are bits sampled wrong. -/
def State.finishTrain (s : State) (d : DieId) (t : TrainOp) (misread : List (Nat × Nat)) : State :=
  let ws := t.words
  let s1 := if t.op % 2 = 1 then ws.foldl (fun s p => s.writeWord d p.2 ⟨t.word p.1, 0⟩) s else s
  let errs := if t.op < 2 then [] else ws.flatMap fun p =>
    ((misread.filter fun m => m.1 == p.1 && m.2 < 72).map (·.2)).foldl toggle
      (laneErrors (s1.dramWord d p.2) (t.word p.1))
  let flags := bitmapOf errs.eraseDups
  let read := if t.op < 2 then [] else ws
  s1.onChip fun c =>
    let c0 := c.forEach read fun c p => c.touch d ((c.die d).dram.physical p.2)
    let c1 := c0.onDram d fun x => { x with train := none, trained := setNbit x.trained t.channel true }
    if t.op < 2 then c1
    else c1.puts d [(F.DRAM_TRAIN_RESULT_lane_err_low, flags % 2 ^ 32),
      (F.DRAM_TRAIN_RESULT_1_lane_err_high, flags / 2 ^ 32 % 2 ^ 32), (F.DRAM_TRAIN_RESULT_2_lane_err_chk, flags / 2 ^ 64),
      (F.DRAM_TRAIN_RESULT_3_errors, min errs.length (2 ^ 32 - 1))]

/-! ### Scrubbing (R301, R302) -/

/-- The scrubber's next line from a line on: ascending, without the training window and unused spare pages. -/
def DramCtl.nextLine (x : DramCtl) (line : Nat) : Option Nat :=
  if line < 64 * reservedPage then some line
  else
    let pages := x.retired.map fun p => diePage (p.1 / 256) (sparePage0 + p.1 % 256)
    let from' := pages.filter fun p => line < 64 * (p + 1)
    from'.foldl (fun b p => some (match b with
      | none => max line (64 * p)
      | some l => min l (max line (64 * p)))) none

/-- A lap ends when no line is left (R302). -/
def Chip.endLap (c : Chip) (d : DieId) : Chip :=
  let x := (c.die d).dram
  if (x.nextLine x.scrubLine).isSome then c
  else
    (((c.put d F.ECC_SCRUB_LAP_time (min (2 ^ 32 - 1) ((c.now - x.lapAt) / msTicks))).onDie d
      (·.putRc F.ECC_SCRUB_STATUS_poison_lines (min 65535 x.lapPoison))).bump d F.ECC_SCRUB_STATUS_lap_count).onDram d fun y =>
        { y with scrubLine := 0, lapAt := c.now, lapSlow := false, lapPoison := 0 }

/-- A lap that runs longer than lap_max_s raises scrub-slow once (R302). -/
def Chip.judgeLap (c : Chip) (d : DieId) : Chip :=
  let x := (c.die d).dram
  if x.active && c.flag d F.ECC_CTRL_scrub_en && !x.lapSlow &&
    max 1 (c.fld d F.ECC_SCRUB_CFG_lap_max_s) * sTicks < c.now - x.lapAt
  then (c.onDram d fun y => { y with lapSlow := true }).raise d 165 else c

/-- The scrubber reads its next line. -/
def State.scrubLine (s : State) (d : DieId) (line : Nat) (flips : List (Nat × Nat)) : State :=
  let s1 := s.onChip fun c => c.serve d 6 ((c.die d).dram.physical (64 * line))
  let r := (List.range 8).foldl (fun (r : Bool × State) i =>
    let q := r.2.readWord d 6 (64 * line + 8 * i) ((flips.filter (·.1 == i)).map (·.2)) false (·.read == .ue)
    (r.1 || q.1.read == .poison, q.2.2)) (false, s1)
  r.2.onChip fun c =>
    (c.onDram d fun x => { x with scrubLine := line + 1, lapPoison := x.lapPoison + b2n r.1 }).endLap d

/-! ### Unreadable words of the data path's SRAM (R299) -/

/-- A Tun word cannot be read: its 32 pixels are blanked in the reading pass and every later one, with one log entry. -/
def Chip.tunWordBad (c : Chip) (d : DieId) (v : View) (y a cause : Nat) : Chip :=
  match c.stripe? d v.stripe with
  | none => c
  | some t =>
    if (t.row y).bad.any (·.1 == a) || !(t.row y).released || t.untrusted y then c
    else
      let s : Span :=
        { job := v.job, stripe := v.stripe, cause := cause, vFirst := v.vFirst + y, vLast := v.vFirst + y, set := .pixel
          die := d, moduleId := c.moduleId, setIndex := 0, setSpan := 0, uFirst := 32 * a, uLast := 32 * a + 31
          slot := c.sched.slot, slotLast := (v.s0 + v.geo.lastSlot y) % m48, passMask := v.geo.allPasses }
      (c.onStripe d v.stripe (·.onRow y fun r => { r with bad := r.bad ++ [(a, cause)] })).reportSpan d s

/-- An active table entry cannot be read: it counts as unreadable until a swap rewrites it, and the stripe's span is
logged from the slot on. -/
def Chip.tableBad (c : Chip) (d : DieId) (a cause : Nat) : Chip :=
  let c1 := c.onDie d fun x => { x with badTables := smInsert a cause x.badTables }
  match (c.die d).view with
  | some v => if v.exposing then c1.reportBadTables d v (sdiff 48 c.sched.slot v.s0).toNat else c1
  | none => c1

/-- The table entry a word of R299 names; the defect list is taken as a whole. -/
def sramTable : SramWord → Option Nat
  | .tun _ _ | .directory _ | .spanEntry _ | .core _ => none
  | .remap b => some (0x800000 + 4 * b)
  | .trim b => some (0x880000 + 4 * b)
  | .walk n => some (0x930000 + 4 * n)
  | .defects => some 0x900000

/-- Region code of a word (R305). -/
def sramRegion : SramWord → Nat
  | .tun _ _ => 2
  | .remap _ | .trim _ | .walk _ | .defects => 6
  | .directory _ => 7
  | .core _ => 8
  | .spanEntry _ => 9

/-- An unreadable directory entry: a store into it fails (R300). -/
def Chip.directoryBad (c : Chip) (d : DieId) (n : Nat) : Chip := (c.onCask d (·.spoil n)).storeFail d n 0x7 0

/-- An unreadable word of SRAM (R299, R300). The defect list is read at S0, so it blanks stripes from the next S0 on,
and the present one only in the tick of its own S0. -/
def Chip.sramWordBad (c : Chip) (d : DieId) (x : SramWord) (cause : Nat) : Chip :=
  match x, sramTable x with
  | .tun y a, _ =>
    match (c.die d).view with
    | some v => if v.exposing then c.tunWordBad d v y a cause else c
    | none => c
  | .defects, _ =>
    if c.sched.due == some .start || (c.sched.mode == .exposing && c.sched.slot == c.sched.s0 && c.sched.slotAt == c.now) then
      c.tableBad d 0x900000 cause
    else c
  | .directory n, _ => c.directoryBad d n
  | .spanEntry i, _ => (c.onEvl d fun y => { y with bad := if y.bad.contains i then y.bad else y.bad ++ [i] }).raise d 3
  | .core k, _ => c.machineCheck d k
  | _, some a => c.tableBad d a cause
  | _, none => c

/-! ### Meanings -/

/-- BUDGET_PERIOD_START (R48, R52): every 4,096 core clocks. -/
def execBudgetPeriodStart (d : DieId) (s : State) : Res :=
  s.nextChip fun c =>
    if c.hasDie d && 4096 * ((c.die d).dram.periods + 1) ≤ c.now then c.startPeriod d else c

/-- DRAM_READ (R288, with R48, R51, R280, R283, R293 and R300): a client asks for a word; what can be served is. -/
def execDramRead (d : DieId) (client : Nat) (core : Option Nat) (addr : Nat) (flips : List Nat) (early : Bool)
    (s : State) : Res :=
  s.nextAll fun s =>
    if s.chip.hasDie d && client < 7 && addr < dramBytes then
      (s.onChip fun c => (c.arrive d (channelOf addr)).onDram d fun x => { x with
        queue := x.queue ++ [⟨client, core, addr / 8 * 8, flips, early, 0⟩] }).runReads d
    else s

/-- PAGE_RETIRE_COMPLETE (R297). -/
def execPageRetireComplete (d : DieId) (s : State) : Res :=
  s.nextAll fun s =>
    match (s.chip.die d).dram.copies with
    | k :: _ => s.finishCopy d k
    | [] => s

/-- SRAM_READ_ERROR (R299). -/
def execSramReadError (d : DieId) (x : SramWord) (poison : Bool) (s : State) : Res :=
  s.nextChip fun c =>
    if c.hasDie d then
      let read : MemRead := if poison then .poison else .ue
      (c.sramReadError d read (sramRegion x)).sramWordBad d x (if poison then 0x04 else 0x05)
    else c

/-- RETIRE_COMMAND (R298). -/
def execRetireCommand (_m : Master) (d : DieId) (v : Word) (s : State) : Res :=
  s.nextBus fun c => if c.hasDie d then c.retireCmd d v else c

/-- Refresh multiplier code of a temperature (R282). -/
def refreshCode (t : Int) : Nat := if 105 < t then 2 else if 85 < t then 1 else 0

/-- REFRESH_RATE_UPDATE (R282): every 16 ms. -/
def execRefreshRateUpdate (d : DieId) (t0 t1 t2 t3 : Int) (s : State) : Res :=
  s.nextChip fun c =>
    if c.hasDie d && 16 * msTicks * ((c.die d).dram.rateUpdates + 1) ≤ c.now then
      c.onDram d fun x => { x with
        rateUpdates := x.rateUpdates + 1
        mult := [t0, t1, t2, t3].zipIdx.foldl (fun m p => smSet 0 p.2 (refreshCode p.1) m) [] }
    else c

/-- REFRESH_DUE (R282): the refresh is postponed while a request to the open row waits, of those in the queue or of the units
whose addresses are not specified (`wanted`), up to 8 intervals; at the ninth, or when none waits, the row is closed and the
refresh issued. -/
def execRefreshDue (d : DieId) (channel bank : Nat) (wanted : Bool) (s : State) : Res :=
  s.nextChip fun c =>
    let x := (c.die d).dram
    let key := 16 * channel + bank
    if !c.hasDie d || 4 ≤ channel || 16 ≤ bank || nbit x.asleep channel then c
    else
      let n := smGet 0 key x.postponed
      let asked := x.queue.any fun q =>
        let p := x.physical q.addr
        16 * channelOf p + bankOf p == key && x.rowOpen q.addr
      if (wanted || asked) && x.openRow key ≠ 0 && n < 8 then
        c.onDram d fun y => { y with postponed := smSet 0 key (n + 1) y.postponed }
      else c.onDram d fun y => { (y.closeRows [key]) with postponed := smErase key y.postponed }

/-- SELF_REFRESH_ENTRY (R280, R283). -/
def execSelfRefreshEntry (d : DieId) (channel : Nat) (s : State) : Res :=
  s.nextChip fun c =>
    let x := (c.die d).dram
    if c.hasDie d && channel < 4 && x.active && c.flag d F.DRAM_CTRL_sr_en && c.sched.mode == .idle && x.fills.isEmpty &&
      x.train.isNone && !nbit x.asleep channel && x.owed.isEmpty && !(x.queue.any fun q => channelOf q.addr == channel) &&
      max 1 (c.fld d F.DRAM_CTRL_sr_idle_us) * usTicks ≤ c.now - smGet 0 channel x.lastReq
    then c.onDram d fun y =>
      { (y.closeRows ((List.range 16).map (16 * channel + ·))) with asleep := setNbit y.asleep channel true }
    else c

/-- DRAM_TRAIN_START (R286). -/
def execDramTrainStart (_m : Master) (d : DieId) (v : Word) (s : State) : Res :=
  s.nextBus fun c => if c.hasDie d then c.writeTrainCtrl d v else c

/-- DRAM_TRAIN_COMPLETE (R286): not before the budget has let every transaction through. -/
def execDramTrainComplete (d : DieId) (misread : List (Nat × Nat)) (s : State) : Res :=
  s.nextAll fun s =>
    match (s.chip.die d).dram.train with
    | some t => if (s.chip.die d).dram.waiting 2 = 0 then s.finishTrain d t misread else s
    | none => s

/-- DRAM_DELAY_WRITE (R286). -/
def execDramDelayWrite (_m : Master) (d : DieId) (channel lane : Nat) (v : Word) (s : State) : Res :=
  s.nextBus fun c =>
    if c.hasDie d && channel < 4 && lane < 72 then
      c.onDie d (·.setReg (0x0E0200 + 4 * (72 * channel + lane)) (v &&& 0x3F7F7F))
    else c

/-- DRAM_FILL_START (R291). -/
def execDramFillStart (_m : Master) (d : DieId) (v : Word) (s : State) : Res :=
  s.nextBus fun c => if c.hasDie d then c.writeFillCtrl d v else c

/-- A client other than the scrubber has been served in this tick. -/
def DramCtl.servedNow (x : DramCtl) (now : Nat) : Bool := x.lastAt.any fun p => p.1 != 6 && p.2 == now

/-- SCRUB_READ (R301): served while no other client has a request pending (R50), within the scrubber's budget, when its
page is not being copied. -/
def execScrubRead (d : DieId) (flips : List (Nat × Nat)) (s : State) : Res :=
  s.nextAll fun s =>
    let c := s.chip
    let x := (c.die d).dram
    if !(c.hasDie d && x.active && c.flag d F.ECC_CTRL_scrub_en) then s
    else if !x.owed.isEmpty || !x.queue.isEmpty || x.servedNow c.now then s
    else if c.stalls d 6 then s.onChip (·.stallRead d 6)
    else match x.nextLine x.scrubLine with
    | none => s.onChip (·.endLap d)
    | some line =>
      if x.copies.any fun k => diePage k.channel k.page == pageOf (x.physical (64 * line)) then s
      else s.scrubLine d line flips

/-- The SRAM scrubber reads a word (R289, R293, R294). -/
def Chip.scrubSram (c : Chip) (d : DieId) (region idx : Nat) (x : SramState) : Chip :=
  let c1 := c.onDram d fun y => { y with sram := smSet .good (16 * idx + region) x.after y.sram }
  let c2 := match x.judge.bit? with
    | some b => c1.logCorrection d region 0 idx b (128 ≤ b) (x.syn % 512) false
    | none => c1
  c2.readError d x.judge.read region 0 7 idx

/-- SRAM_SCRUB_READ (R289, R293 to R295, R302). -/
def execSramScrubRead (d : DieId) (region idx : Nat) (rewritten : Bool) (flips : List Nat) (last : Bool) (s : State) : Res :=
  s.nextChip fun c =>
    if !(c.hasDie d && c.flag d F.ECC_CTRL_sram_scrub_en && 2 ≤ region && region ≤ 10) then c
    else
      let x := if rewritten then SramState.good else smGet .good (16 * idx + region) (c.die d).dram.sram
      let c1 := c.scrubSram d region idx (x.flip flips)
      if last then
        (c1.put d F.ECC_SRAM_LAP_time (min (2 ^ 32 - 1) ((c.now - (c.die d).dram.sramLapAt) / usTicks))).onDram d fun x =>
          { x with sramLapAt := c.now }
      else c1

end Sys2Proof.Machine
end

