-- ==== Sys2Proof/Machine/Ilk.lean ====
section
/-! DEFINITION. Interlocks and exposure gating (chapter 11, R307 to R318), the maintenance lock's closed region (R352),
and clock faults (R39, R40). -/

namespace Sys2Proof.Machine

/-! ### The closed region (R352) -/

/-- The control port may write the region that the maintenance lock closes: maintenance state boot or open (R353). -/
def Chip.portOpen (c : Chip) : Bool := c.cfg.maint == .boot || c.cfg.maint == .opened

/-- A master may write the closed region: firmware is never denied. -/
def Chip.mayClosed (c : Chip) (m : Master) : Bool :=
  match m with
  | .mc _ => true
  | .port => c.portOpen

/-! ### The gate (R309, R316) -/

/-- Change a die's interlocks. -/
def Chip.onIlk (c : Chip) (d : DieId) (f : Ilk → Ilk) : Chip := c.onDie d fun x => { x with ilk := f x.ilk }

/-- Inputs of a die that are enabled and not good after filtering. -/
def Die.badInputs (x : Die) : List Nat := (onesOf 8 (x.fld F.ILK_MASK_bits)).filter fun i => !nbit x.ilk.good i

/-- A die holds its gate closed by a source of its own (R316). -/
def Die.ownSource (x : Die) : Bool := !x.badInputs.isEmpty || x.ilk.forced

/-- The first two conditions of R316 hold on a die. -/
def Chip.gateReady (c : Chip) (d : DieId) : Bool :=
  (c.die d).badInputs.isEmpty && !(c.dies.any fun k => (c.die k).ilk.forced) &&
  !(c.two && !(c.die d.other).ilk.gateOpen && !(c.die d.other).badInputs.isEmpty) && c.memberGates.isEmpty

/-- The other die or a herd member holds the gate closed (ILK_STATUS.remote). -/
def Chip.gateRemote (c : Chip) (d : DieId) : Bool :=
  (c.two && !(c.die d.other).ilk.gateOpen && (c.die d.other).ownSource) || !c.memberGates.isEmpty

/-- A herd member holds its gate closed by a source of its own (R316). -/
def Chip.memberHolds (c : Chip) (id : Nat) : Chip :=
  { c with memberGates := if c.memberGates.contains id then c.memberGates else c.memberGates ++ [id] }

/-- BLANK_ALL (R310): the level that the module drives. -/
def Chip.blankAll (c : Chip) : Bool :=
  c.dies.any (fun d => !(c.die d).ilk.gateOpen || (c.die d).clockFault) || c.cfg.stage != .ready || !c.pwr.good || c.pwr.fault.isSome

/-- The module takes part in a herd. -/
def Chip.inHerd (c : Chip) : Bool := c.herd.role == .buck || c.herd.role == .member

/-- A gate event is told to the other members of a herd (R309, R366). -/
def Chip.tellGate (c : Chip) (d : DieId) (source : Nat) (closed : Bool) : Chip :=
  if c.inHerd then c.sendSync (.gate d source closed) else c

/-- The gate of a die closes, by a source; a gate that is closed already keeps its record, but for the lower of two inputs
that became not good in one tick (R309, R318), and for an input in the tick of a supply fault (R429). -/
def Chip.closeGate (c : Chip) (d : DieId) (source moduleId : Nat) : Chip :=
  let x := (c.die d).ilk
  if x.gateOpen then
    let c1 := (c.onIlk d fun y => { y with gateOpen := false, report := c.two, closedAt := some c.now }).puts d
      [(F.ILK_FIRST_source, source), (F.ILK_FIRST_module_id, moduleId), (F.ILK_FIRST_valid, 1),
       (F.ILK_FIRST_1_slot_low, c.sched.slot), (F.ILK_FIRST_2_time, (c.timeWords c.time).getD 1 0)]
    let c2 := ((c1.bump d F.ILK_GATE_COUNT_count).raise d 192).tellGate d source true
    let c3 := { c2 with cal := { c2.cal with gateHit := true } }
    if d = .w then c3.gateEndsStripe else c3
  else if x.closedAt == some c.now && source < 8 && source < c.fld d F.ILK_FIRST_source &&
      (c.fld d F.ILK_FIRST_source < 8 || c.pwr.fault.any (·.1 == c.now)) then
    c.put d F.ILK_FIRST_source source
  else c

/-- The gate of a die opens (R316). -/
def Chip.openGate (c : Chip) (d : DieId) : Chip :=
  let c1 := (c.onIlk d fun x => { x with gateOpen := true, closedAt := none, report := false }).puts d
    [(F.ILK_FIRST_source, 0), (F.ILK_FIRST_module_id, 0), (F.ILK_FIRST_valid, 0), (F.ILK_FIRST_1_slot_low, 0),
     (F.ILK_FIRST_2_time, 0)]
  (c1.raise d 196).tellGate d 0 false

/-- A reopen request of a die is judged: one that meets a closing of the same tick is discarded (R318). It is raised
automatically when the conditions come to hold, not while they hold on. -/
def Chip.judgeRequest (c : Chip) (d : DieId) : Chip :=
  let x := (c.die d).ilk
  let holds := c.gateReady d
  let ready := holds && x.closedAt != some c.now
  let auto := ready && !x.wasReady && c.flag d F.ILK_CFG_auto_reopen
  let c1 := c.onIlk d fun y => { y with wasReady := holds, request := none }
  match x.request, auto with
  | none, false => c1
  | none, true => if x.gateOpen then c1 else c1.openGate d
  | some written, _ =>
    if ready then (if x.gateOpen then c1 else c1.openGate d) else if written then c1.raise d 195 else c1

/-- The end of a tick: pending reopen requests are judged with every closing of the tick in force (R318). -/
def Chip.judgeGates (c : Chip) : Chip := c.forEach c.dies fun c d => c.judgeRequest d

/-- A written request of the module: it releases every source 10 closing that it reaches (R316), but for one of its own tick
(R318). -/
def Chip.requestReopen (c : Chip) (d : DieId) : Chip :=
  c.forEach (c.dies.filter (c.reaches d)) fun c k =>
    c.onIlk k fun x => { x with forced := x.forced && x.forcedAt == some c.now, request := some true }

/-- ILK_CTRL.force_close (R309). -/
def Chip.forceGate (c : Chip) (d : DieId) : Chip := 
  (c.onIlk d fun x => { x with forced := true, forcedAt := some c.now }).closeGate d 10 0

/-- Write of ILK_CTRL. Both bits in one write are a request and a new closing source: the request is discarded (R318). -/
def Chip.writeIlkCtrl (c : Chip) (d : DieId) (v : Word) : Chip :=
  let c1 := if bit v 0 then c.requestReopen d else c
  if bit v 1 then c1.forceGate d else c1

/-- Write of ILK_MASK: enabling an input that is not good closes the gate (R309); D_cfg changes (R358). -/
def Chip.writeIlkMask (c : Chip) (d : DieId) (v : Word) : Chip :=
  let c1 := (c.put d F.ILK_MASK_bits (bits v 7 0)).startMeas
  match (c1.die d).badInputs with
  | i :: _ => c1.closeGate d i 0
  | [] => c1

/-- Write of ILK_CFG: drop_ns is held within 4 to 60. -/
def Chip.writeIlkCfg (c : Chip) (d : DieId) (v : Word) : Chip :=
  (c.puts d [(F.ILK_CFG_drop_ns, max 4 (min 60 (bits v 5 0))), (F.ILK_CFG_auto_reopen, bits v 6 6),
    (F.ILK_CFG_restore_ms, bits v 23 8)]).startMeas

/-- Write of ILK_POL: the changed goodness is then filtered as any change (R308). -/
def Chip.writeIlkPol (c : Chip) (d : DieId) (v : Word) : Chip :=
  let flipped := onesOf 8 (c.fld d F.ILK_POL_bits ^^^ bits v 7 0)
  ((c.onIlk d fun x => { x with polAt := flipped.foldl (fun l i => smInsert i c.now l) x.polAt }).put d F.ILK_POL_bits
    (bits v 7 0)).startMeas

/-! ### Inputs (R307, R308) -/

/-- Field of an input's drop count. -/
def dropCount (i : Nat) : Fld := ⟨0x100020 + 4 * (i / 4), 4, 8 * (i % 4) + 7, 8 * (i % 4)⟩

/-- Ticks for which an input's raw goodness has been what it is, of a level that has stood for `held` ticks: a write of ILK_POL
may have changed it since. -/
def Ilk.heldFor (x : Ilk) (i held now : Nat) : Nat :=
  match x.polAt.find? (·.1 == i) with
  | some p => min held (now - p.2)
  | none => held

/-- An input's level stands at that which is good or not good by ILK_POL. -/
def Chip.inputLevel (c : Chip) (d : DieId) (i : Nat) (good : Bool) : Chip :=
  c.onIlk d fun x => { x with raw := setNbit x.raw i (nbit (c.fld d F.ILK_POL_bits) i == good) }

/-- An input becomes not good after filtering. -/
def Chip.inputDrops (c : Chip) (d : DieId) (i : Nat) : Chip :=
  let c1 := (c.onIlk d fun x => { x with good := setNbit x.good i false }).bump d (dropCount i)
  if nbit (c.fld d F.ILK_MASK_bits) i then c1.closeGate d i 0 else c1

/-- Raw goodness of an input has been 0 for `held` ticks: it is filtered by drop_ns (R308). -/
def Chip.inputBad (c : Chip) (d : DieId) (i held : Nat) : Chip :=
  let c1 := c.inputLevel d i false
  let x := (c.die d).ilk
  if nbit x.good i && c.fld d F.ILK_CFG_drop_ns ≤ x.heldFor i held c.now then c1.inputDrops d i else c1

/-- Raw goodness of an input has been 1 for `held` ticks: it is filtered by restore_ms, of which 0 acts as 1 (R308). -/
def Chip.inputGood (c : Chip) (d : DieId) (i held : Nat) : Chip :=
  let c1 := c.inputLevel d i true
  if max 1 (c.fld d F.ILK_CFG_restore_ms) * msTicks ≤ (c.die d).ilk.heldFor i held c.now then
    c1.onIlk d fun x => { x with good := setNbit x.good i true }
  else c1

/-! ### Clock faults (R39, R40) -/

/-- The stripe that a herd member exposes ends early on its dies when its die W is in clock fault (R39, R40 for a die W
whose slots come from the buck: DEDUCED, log entry 16); ka is the last slot fired. -/
def Chip.memberStops (c : Chip) : Chip :=
  match c.w.view with
  | some v => if v.exposing then c.endStripe (.early v.stripe 0x18 (some (sdiff 48 c.sched.slot v.s0).toNat)) c.sched.slot else c
  | none => c

/-- A die enters clock fault. -/
def Chip.clockFaults (c : Chip) (d : DieId) : Chip :=
  let c1 := (c.onDie d fun x => { x with clockFault := true }).raise d 6
  match d with
  | .e => (c1.onDie .e fun x => { x with hold := if x.hold = 0 then 0x18 else x.hold }).reportUnsent
  | .w =>
    let c2 := if c1.schedHere then c1.endEarly 0x18 else c1.memberStops
    let c3 := c2.forEach [0, 1, 2] fun c n =>
      if (c.chan n).state == .valid || (c.chan n).state == .lost then c.setChan n .noLock else c
    if c3.ptp.state == .locked then { c3 with ptp := { c3.ptp with state := .holdSync } } else c3

/-- The reference of a die goes, or its PLL loses lock; or both have returned (R39, R344). -/
def Chip.noClock (c : Chip) (d : DieId) (gone : Bool) : Chip :=
  { c with pwr := match d with
    | .w => { c.pwr with noClockW := gone }
    | .e => { c.pwr with noClockE := gone } }

/-! ### Meanings -/

/-- CLOCK_FAULT (R40). A module that is held in reset stays so until the reference has returned (R344). -/
def execClockFault (d : DieId) (s : State) : Res :=
  s.nextSupply fun c =>
    let c1 := c.noClock d true
    if c.running && c.hasDie d && !(c.die d).clockFault then c1.clockFaults d else c1

/-- CLOCK_FAULT_END (R39): the die exposes again from its next stripe start. -/
def execClockFaultEnd (d : DieId) (s : State) : Res :=
  s.nextSupply fun c => (c.noClock d false).onDie d fun x => { x with clockFault := false }

/-- INTERLOCK_INPUT_DROP (R308, R309). -/
def execInterlockInputDrop (d : DieId) (i held : Nat) (s : State) : Res :=
  s.nextChip fun c => if c.hasDie d && i < 8 then c.inputBad d i held else c

/-- INTERLOCK_INPUT_RESTORE (R308, R316). -/
def execInterlockInputRestore (d : DieId) (i held : Nat) (s : State) : Res :=
  s.nextChip fun c => if c.hasDie d && i < 8 then c.inputGood d i held else c

/-- GATE_CLOSE_REPORT (R309): of the other die, over Evune class 1, or of a herd member, which holds its gate closed by a source
of its own until it reports otherwise (R316). -/
def execGateCloseReport (d : DieId) (member : Option Nat) (s : State) : Res :=
  s.nextChip fun c =>
    match member with
    | none =>
      if c.evuneUp && (c.die d.other).ilk.report then
        (c.onIlk d.other fun x => { x with report := false }).closeGate d 8 0
      else c
    | some id => if c.inHerd && c.hasDie d && id != c.ownId then (c.memberHolds id).closeGate d 9 id else c

/-- FORCE_CLOSE (R309). -/
def execForceClose (_m : Master) (d : DieId) (alsoReopen : Bool) (s : State) : Res :=
  s.nextBus fun c => if c.hasDie d then c.writeIlkCtrl d (word (2 + b2n alsoReopen)) else c

/-- REOPEN (R316): the request is judged at the end of the tick. -/
def execReopen (_m : Master) (d : DieId) (s : State) : Res :=
  s.nextBus fun c => if c.hasDie d then c.writeIlkCtrl d 1 else c

/-- ILK_MASK_WRITE (R309, R352). -/
def execIlkMaskWrite (m : Master) (d : DieId) (v : Word) (s : State) : Res :=
  s.nextBus fun c => if c.hasDie d && c.mayClosed m then c.writeIlkMask d v else c

end Sys2Proof.Machine
end

