-- ==== Sys2Proof/Machine/Cfg.lean ====
section
/-! DEFINITION. Configuration and access control (chapter 13): the shadowed set and swaps (R345 to R349), check units
(R350, R351), maintenance access (R352 to R355), the management cores (R356), the measurement (R357, R358), the job log's
registers (R359) and the flash devices (R337, R372). -/

namespace Sys2Proof.Machine

/-! ### The shadowed set (R345) and the measured words (R357) -/

/-- The RWS fields of the register at an offset, as a mask. -/
def rwsMask (off : Nat) : Word :=
  match findReg off with
  | some r => r.mask (· == .rws)
  | none => 0

/-- An offset of `Die.regs` holds an active copy. -/
def isActiveOff (off : Nat) : Bool := 0x8000 ≤ off % 0x10000 && (findReg off).isNone

/-- A block whose registers exist on die W only. -/
def onlyOnW (off : Nat) : Bool :=
  let b := off / 0x10000
  b == 8 || b == 9 || b == 10 || b == 20

/-- The shadow values of a die's RWS words that differ from reset. -/
def Die.shadowWords (x : Die) : List (Nat × Word) :=
  (x.regs.filter fun p => !isActiveOff p.1 && rwsMask p.1 != 0).map fun p => (p.1, p.2 &&& rwsMask p.1)

/-- The words of a register heading whose RWS fields the measurement takes, by offset. -/
def RegSpec.offsets (r : RegSpec) : List Nat := (List.range r.count).map fun i => r.base + r.stride * i

/-- Offsets of every word that holds an RWS field, ascending. -/
def rwsOffsets : List Nat :=
  ((regTable.filter fun r => r.mask (· == .rws) != 0).flatMap fun r => r.offsets.map fun o => (o, ())).foldl
    (fun l p => smInsert p.1 p.2 l) [] |>.map (·.1)

/-- Addresses of every entry of the shadowed tables, ascending: remap, trim, and the windows of R54 that exist on a die. -/
def shadowedEntries (d : DieId) : List Nat :=
  ((List.range 262144).map fun i => 0x800000 + 4 * i) ++
  ((List.range 98304).map (fun i => 0x900000 + 4 * i)).filter fun a =>
    tableMask a != 0 && !(d == .e && 0x940000 ≤ a)

/-- The measured words of one die (R357). -/
def Chip.measuredOf (c : Chip) (d : DieId) : List Word :=
  let x := c.die d
  ((rwsOffsets.filter fun o => d == .w || !onlyOnW o).map fun o => x.reg (o + 0x8000) &&& rwsMask o) ++
  ((shadowedEntries d).map (c.tblAct d)) ++ [x.reg 0x100004, x.reg 0x100008, x.reg 0x10000C]

/-- D_cfg of R357. -/
def Chip.dCfg (c : Chip) : List Nat :=
  sha256 ((c.dies.flatMap c.measuredOf).flatMap fun w => leBytes 4 w.toNat)

/-- M of R357; in recovery D_img and D_cfg are taken as zero (R343). -/
def Chip.computeMeas (c : Chip) : List Nat :=
  let zero := List.replicate 32 0
  if c.cfg.stage == .recovery then sha256 (zero ++ zero ++ leBytes 4 c.stateWord)
  else sha256 (c.cfg.dImg ++ c.dCfg ++ leBytes 4 c.stateWord)

/-! ### Swaps (R346 to R349) -/

/-- The outcome of a swap or of an arming, on every die, with its event (R347, R348). -/
def Chip.swapOutcome (c : Chip) (outcome : Nat) (reasons : List Nat) (source : Option Nat) : Chip :=
  let c1 := c.forEach c.dies fun c d =>
    c.puts d [(F.CFG_SWAP_STATUS_outcome, outcome), (F.CFG_SWAP_STATUS_reasons, bitmapOf reasons.eraseDups)]
  match source with
  | some n => c1.raiseBoth n
  | none => c1

/-- The swap is no longer armed. -/
def Chip.dropSwap (c : Chip) : Chip :=
  (c.onCfg fun x => { x with swap := none }).forEach c.dies fun c d => c.onDie d fun x => { x with pendingCopy := none }

/-- A swap's phase is told to the herd (R366). -/
def Chip.tellSwap (c : Chip) (p : SwapPhase) (slot : Option Nat) : Chip :=
  if c.inHerd then c.sendSync (.swap p slot true 0) else c

/-- An arming is refused, here and on every member (R347): an armed swap stays. -/
def Chip.refuseArm (c : Chip) (reason : Nat) : Chip :=
  (c.swapOutcome 2 [reason] (some 203)).tellSwap (.armRefused [reason]) none

/-- The buck's commit of a swap is on its way: the swap has been judged (R377). -/
def Chip.committed (c : Chip) : Bool := c.herd.decisions.any (·.commit.isSome)

/-- The swap is armed on this module. -/
def Chip.beginSwap (c : Chip) (slot : Option Nat) (initial : Bool) : Chip :=
  (c.onCfg fun x => { x with
    swap := some ⟨slot, c.now, initial, false, !c.two, [], none, [], false⟩ }).tellSwap .arm slot

/-- CFG_SWAP_CTRL.arm with a mode (R346, R347). -/
def Chip.armSwap (c : Chip) (mode : Bool) : Chip :=
  let c1 := c.put .w F.CFG_SWAP_CTRL_mode (b2n mode)
  let slot := c.fld .w F.CFG_SWAP_SLOT_low + 2 ^ 32 * c.fld .w F.CFG_SWAP_SLOT_1_high
  if c.swapArmed then c1.refuseArm reasonArmed
  else if c.herd.role != .standalone && c.herd.role != .buck then c1.refuseArm reasonHerd
  else if mode && sdiff 48 slot c.sched.slot ≤ 0 then c1.refuseArm reasonSlot
  else c1.beginSwap (if mode then some slot else none) false

/-- Every die is prepared and meets the conditions of R347 that lie with it: what a member's ready report says, on which the buck
judges the swap (R138, R377; DEDUCED, log entry 48). -/
def Chip.swapReadyHere (c : Chip) : Bool :=
  (c.cfg.swap.map fun s => s.readyW && s.readyE) == some true && c.dies.all c.mapCheckPassed &&
  c.dies.all fun d => !c.flag d F.BLNK_CTRL_en || c.spareConfirmed d

/-- A die's pending copy is complete: it reports ready, over Evune class 1 from die E (R346). Shadow words that could not be read
(`bad`) are reported (R300), and arrive as poison (R299). -/
def Chip.prepared (c0 : Chip) (d : DieId) (bad : List Nat) : Chip :=
  let bad := bad.filter fun a => isTable a && tableMask a != 0
  let c := c0.forEach bad fun c _ => c.sramReadError d .ue 6
  let c1 := c.onDie d fun x => { x with pendingCopy := some ⟨x.shadowWords, x.tableCopy false, bad⟩ }
  let c2 := c1.onCfg fun x => { x with swap := x.swap.map fun s =>
    match d with
    | .w => { s with readyW := true }
    | .e => { s with readyE := s.readyE || c.evuneUp } }
  if c2.herd.role == .member && c2.swapReadyHere then c2.tellSwap .ready none
  else c2

/-- The pending copy of a die becomes active (R345, R299). -/
def Die.activate (x : Die) : Die :=
  match x.pendingCopy with
  | none => x
  | some p =>
    { x with
      regs := p.regs.foldl (fun l q => smSet (resetWord (q.1 + 0x8000)) (q.1 + 0x8000) q.2 l)
        (x.regs.filter fun q => !isActiveOff q.1)
      tables := x.tableCopy false ++ p.tables.map fun q => (activeKey q.1, q.2)
      badTables := p.poison.map (·, 0x04)
      pendingCopy := none }

/-! #### Units disabled within a stripe (R142) -/

/-- A unit disabled by a swap within a stripe: its beams are off from stripe slot `k0` on, and what they leave unexposed is
logged (R142). -/
def Chip.disableUnit (c : Chip) (d : DieId) (v : View) (k0 off : Nat) : Chip :=
  let c1 := c.onDie d fun x => { x with view := x.view.map fun v => { v with disabledAt := v.disabledAt ++ [(off, k0)] } }
  match c.unitSpan d v off k0 (v.slots - 1) with
  | some s => c1.reportSpan d s
  | none => c1

/-- Units that a swap has disabled within the stripe of a die's view. -/
def Chip.disableUnits (before c : Chip) (d : DieId) : Chip :=
  match (c.die d).view with
  | none => c
  | some v =>
    let k0 := (sdiff 48 c.sched.slot v.s0).toNat
    if !v.exposing || v.s0 == c.sched.slot then c
    else c.forEach (unitsDisabled (before.die d).activeUnits (c.die d).activeUnits before.cfg.herdEnable c.cfg.herdEnable) fun c off =>
      c.disableUnit d v k0 off

/-- The pending copies become active on every die: the swap is done (R346, R234, R358, R360). The slot is the first under
the new copies. The initial swap of boot writes no job record (log entry 44). A herd member takes the buck's herd enable with
them (R377). -/
def Chip.doSwap (c : Chip) (slot : Nat) (initial : Bool) (herdEnable : Option Bool) : Chip :=
  let before := c
  let c1 := (c.forEach c.dies fun c d => c.onDie d Die.activate).onCfg fun x =>
    { x with herdEnable := herdEnable.getD x.herdEnable }
  let c2 := c1.forEach c1.dies fun c d => (disableUnits before c d).nameBank d
  let c3 := (noteFaults before c2).dropSwap
  let old := c.measBytes
  let c4 := c3.setMeas c3.computeMeas
  let c5 := if initial then c4 else c4.storeBoth
    { kind := 5, w2 := slot % 2 ^ 32, w3 := slot / 2 ^ 32, time := c.time, first := c4.measBytes, second := old }
  let c6 := c5.forEach c5.dies fun c d =>
    (c.puts d [(F.CFG_SWAP_LAST_low, slot), (F.CFG_SWAP_LAST_1_high, slot / 2 ^ 32)]).bump d F.CFG_SWAP_STATUS_swap_count
  wakeLanes before ((c6.swapOutcome 1 [] (some 202)).onCfg fun x => { x with
    stage := if x.stage == .configuration then .lanes else x.stage })

/-- The swap point of the armed swap has come in this tick (R346), once what the scheduler does in the tick is done: it is idle,
or has been until it was armed in this tick; or the slot has fired. The buck's, in its decision tick. -/
def Chip.swapDue (c : Chip) (s : Swap) : Bool :=
  match s.slot with
  | none => s.armedAt + 200 * usTicks ≤ c.now &&
      (c.sched.mode == .idle || (c.sched.mode == .armed && c.sched.armedAt == c.now))
  | some n => c.sched.decided == n && c.sched.decidedAt == c.now

/-- First slot under the new copies (CFG_SWAP_LAST). -/
def Chip.swapFirstSlot (c : Chip) (s : Swap) : Nat := s.slot.getD ((c.sched.decided + 1) % m48)

/-- The swap is judged at its swap point; the buck's commit acts on every member lat_ns later (R347, R377). -/
def Chip.judgeSwap (c : Chip) (s : Swap) : Chip :=
  let reasons := c.swapReasons s
  if !reasons.isEmpty then (c.dropSwap.swapOutcome 2 reasons (some 203)).tellSwap (.refused reasons) none
  else if c.herd.role == .buck then
    let on := unitOn c.w.pendingUnits herdUnit
    let c1 := (c.sendSync (.swap .commit (some (c.swapFirstSlot s)) on (c.now + ((c.herd.settings.map (·.lat)).getD 0)))).onCfg fun x =>
      { x with swap := some { s with ending := none, due := false } }
    { c1 with herd := { c1.herd with
        decisions := c1.herd.decisions ++ [⟨c.now + ((c.herd.settings.map (·.lat)).getD 0), none, some true⟩] } }
  else c.doSwap (c.swapFirstSlot s) s.initial none

/-- The end of a tick: a swap whose swap point has come in it is judged (R346, R349). -/
def Chip.judgeDueSwap (c : Chip) : Chip :=
  match c.cfg.swap with
  | some s =>
    if !s.due then c
    else if c.swapDue s then c.judgeSwap s
    else c.onCfg fun x => { x with swap := some { s with due := false } }
  | none => c

/-- A write to a shadow copy, or a disarm, while a swap is armed: it ends the swap at the end of the tick (R348, R349), unless
its commit is already on its way. -/
def Chip.endSwapBy (c : Chip) (outcome : Nat) : Chip :=
  let checks := c.swapChecks
  if c.committed then c
  else c.onCfg fun x => { x with swap := x.swap.map fun s =>
    if s.ending.isSome then s else { s with ending := some outcome, checks := checks } }

/-- The end of a tick: a swap that a write has ended is over. -/
def Chip.finishSwap (c : Chip) : Chip :=
  match c.cfg.swap.bind (·.ending) with
  | none => c
  | some outcome =>
    (c.dropSwap.swapOutcome outcome [] (if outcome = 3 then some 204 else none)).tellSwap
      (if outcome = 3 then .cancelled else .disarmed) none

/-- Write of CFG_SWAP_CTRL (R346, R348). -/
def Chip.writeSwapCtrl (c : Chip) (v : Word) : Chip :=
  if bit v 0 && bit v 1 then c
  else if bit v 0 then c.armSwap (bit v 2)
  else
    let c1 := c.put .w F.CFG_SWAP_CTRL_mode (bits v 2 2)
    if bit v 1 && c.swapArmed then c1.endSwapBy 4 else c1

/-! ### Check units (R350, R351) -/

/-- Owner code of a master on a die: its local cores and the control port; 0 for a core of the other die. -/
def ownerCode (d : DieId) : Master → Nat
  | .port => 3
  | .mc k => if targetDie k = d && k < 4 then 1 + k % 2 else 0

/-- A check unit of a die. -/
def Die.chkUnit (x : Die) (u : Nat) : ChkUnit :=
  match u with
  | 0 => x.chk.u0
  | 1 => x.chk.u1
  | 2 => x.chk.u2
  | _ => x.chk.u3

/-- Change a check unit. -/
def Chip.onChk (c : Chip) (d : DieId) (u : Nat) (f : ChkUnit → ChkUnit) : Chip :=
  c.onDie d fun x => { x with chk :=
    match u with
    | 0 => { x.chk with u0 := f x.chk.u0 }
    | 1 => { x.chk with u1 := f x.chk.u1 }
    | 2 => { x.chk with u2 := f x.chk.u2 }
    | _ => { x.chk with u3 := f x.chk.u3 } }

/-- The algorithm in force: 3 acts as 0. -/
def chkAlgo (n : Nat) : Nat := if n = 1 ∨ n = 2 then n else 0

/-- Initial register of an algorithm. -/
def chkInit (algo : Nat) : Nat := if chkAlgo algo = 2 then 0xFFFF else 0xFFFFFFFF

/-- Bytes are taken (R351). -/
def ChkUnit.take (x : ChkUnit) (bytes : List Nat) : ChkUnit :=
  { x with reg :=
      if chkAlgo x.algo = 2 then bytes.foldl (crcByteMsb 16 0x1021) x.reg
      else if chkAlgo x.algo = 1 then crc32cReg x.reg bytes else crc32Reg x.reg bytes }

/-- CHK_RESULT: the value over the bytes taken so far. -/
def ChkUnit.result (x : ChkUnit) : Nat := if chkAlgo x.algo = 2 then x.reg else Nat.xor x.reg 0xFFFFFFFF

/-- A write to a unit by a master that does not own it is ignored, with source 219. -/
def Chip.asOwner (c : Chip) (m : Master) (d : DieId) (u : Nat) (f : Chip → Chip) : Chip :=
  let o := ownerCode d m
  if o ≠ 0 && ((c.die d).chkUnit u).owner = o then f c else c.raise d 219

/-- Write of CHK_CTRL_u. A start is not obeyed while a range runs. -/
def Chip.writeChkCtrl (c : Chip) (m : Master) (d : DieId) (u : Nat) (v : Word) : Chip :=
  let o := ownerCode d m
  let c1 := if bit v 3 && o ≠ 0 && ((c.die d).chkUnit u).owner = 0 then c.onChk d u fun x => { x with owner := o } else c
  c1.asOwner m d u fun c =>
    let c2 := c.put d (F.CHK_CTRL_algo.at u) (bits v 1 0)
    let c3 := if bit v 2 then c2.onChk d u fun x =>
      if x.busy then x else { x with algo := bits v 1 0, reg := chkInit (bits v 1 0), error := false } else c2
    if bit v 4 then c3.onChk d u fun _ => .reset else c3

/-- Bytes written to a unit. They are not taken while a range runs. -/
def Chip.feedChk (c : Chip) (m : Master) (d : DieId) (u : Nat) (bytes : List Nat) : Chip :=
  c.asOwner m d u fun c => c.onChk d u fun x => if x.busy then x else x.take bytes

/-- A unit that is free of a range starts one: the management client asks for its lines (R351). -/
def Chip.startRange (c : Chip) (d : DieId) (u addr len : Nat) : Chip :=
  if ((c.die d).chkUnit u).busy then c
  else (c.onChk d u fun x => { x with busy := true, error := false, len := len, addr := addr }).askLines d 2
    ((addr % 64 + len + 63) / 64)

/-- Write of a word of CHK_RANGE_u; the third word may start the range. -/
def Chip.writeChkRange (c : Chip) (m : Master) (d : DieId) (u i : Nat) (v : Word) : Chip :=
  c.asOwner m d u fun c =>
    if i = 0 then c.put d (F.CHK_RANGE_addr_low.at u) v.toNat
    else if i = 1 then c.put d (F.CHK_RANGE_1_addr_high.at u) (bits v 2 0)
    else
      let c1 := c.put d (F.CHK_RANGE_2_length.at u) (bits v 30 0)
      if bit v 31 then c1.startRange d u
        (c.fld d (F.CHK_RANGE_addr_low.at u) + 2 ^ 32 * c.fld d (F.CHK_RANGE_1_addr_high.at u)) (max 1 (bits v 30 0))
      else c1

/-- The eight bytes of a word, as far as a range from `addr` of `len` bytes takes them. -/
def rangePart (addr len a data : Nat) : List Nat :=
  ((List.range 8).filter fun i => addr ≤ a + i && a + i < addr + len).map fun i => data / 256 ^ i % 256

/-- The words of a range are read one after another through the management client, up to the first that cannot be: the bytes,
how it ended, and where. Beyond the die's DRAM what is read is open (DESIGN CHOICE, log entry 28). -/
def State.rangeWords (d : DieId) (addr len : Nat) : Nat → Nat → State → List Nat → List Nat × MemRead × Nat × State
  | 0, a, s, acc => (acc, .clean, a, s)
  | n + 1, a, s, acc =>
    if dramBytes ≤ a then
      let r := s.chip.freshBelow (2 ^ 64)
      State.rangeWords d addr len n (a + 8) (s.onChip fun _ => r.2) (acc ++ rangePart addr len a r.1)
    else
      let s1 := s.onChip fun c => c.touch d ((c.die d).dram.physical a)
      let r := s1.readWord d 2 a [] false fun v => v.read != .clean
      if r.1.read == .clean then State.rangeWords d addr len n (a + 8) r.2.2 (acc ++ rangePart addr len a r.2.1)
      else (acc, r.1.read, a, r.2.2)

/-- A range ends, cleanly or at the word that could not be read (R300, R351). `read` and `good` say how the words of areas whose
contents are open end. -/
def State.finishRange (s : State) (d : DieId) (u : Nat) (read : MemRead) (good : Nat) : State :=
  let x := (s.chip.die d).chkUnit u
  let n := if read == .clean then x.len else min good x.len
  let r := State.rangeWords d x.addr n ((x.addr % 8 + n + 7) / 8) (x.addr / 8 * 8) s []
  let how := if r.2.1 == .clean then read else r.2.1
  r.2.2.2.onChip fun c =>
    let c1 := c.onChk d u fun x => { x.take r.1 with busy := false, error := how != .clean }
    let a := (x.addr + n) / 8 * 8
    (if r.2.1 == .clean then c1.readError d read 1 (channelOf a) 2 a else c1).raise d 218

/-- None of the pages of a range is being copied (R297). -/
def DramCtl.rangeFree (x : DramCtl) (addr len : Nat) : Bool :=
  let inRange (a : Nat) : Bool := addr / 4096 ≤ a / 4096 && a / 4096 ≤ (addr + len) / 4096
  !x.copies.any fun k => inRange (4096 * diePage k.channel k.page)

/-! ### Maintenance access (R353 to R355) -/

/-- In lockout, commands 1 and 2 are ignored until the supply is removed. -/
def Chip.lockedOut (c : Chip) : Bool := c.cfg.maint == .lockout || 8 ≤ c.cfg.failCount

/-- A maintenance record. -/
def Chip.maintRecord (c : Chip) (kind w2 : Nat) : Chip :=
  c.storeBoth { kind := kind, w2 := w2, time := c.time, first := c.measBytes }

/-- op 1: a fresh challenge from the random source; its value is open. -/
def Chip.drawChallenge (c : Chip) : Chip :=
  if c.lockedOut then c
  else
    let r := c.freshBelow (2 ^ 256)
    r.2.onCfg fun x => { x with challenge := leBytes 32 r.1, challengeFresh := true }

/-- op 2: a verify uses up the challenge. -/
def Chip.beginVerify (c : Chip) : Chip :=
  if c.lockedOut then c
  else if !c.cfg.challengeFresh then c.raise .w 209
  else if c.cfg.verify.isSome then c
  else c.onCfg fun x => { x with
    challengeFresh := false
    verify := some ⟨x.challenge, c.fld .w F.CFG_MAINT_DUR_duration_s,
      (List.range 16).map fun j => c.w.reg (0x010340 + 4 * j)⟩ }

/-- The signature is valid (R354). -/
def Chip.verifyOk (c : Chip) (v : Verify) : Bool :=
  let b := v.resp.flatMap fun w => leBytes 4 w.toNat
  1 ≤ v.duration && v.duration ≤ 86400 &&
  ecdsaVerify c.cfg.keyX c.cfg.keyY (ofBe (b.take 32)) (ofBe (b.drop 32)) (v.challenge ++ serialBytes ++ leBytes 4 v.duration)

/-- A verify ends (R355). -/
def Chip.endVerify (c : Chip) (v : Verify) : Chip :=
  let c0 := c.onCfg fun x => { x with verify := none }
  if c.verifyOk v then
    let c1 := c0.onCfg fun x => { x with
      maint := .opened, openUntil := c.now + v.duration * sTicks, failCount := 0, maintOpened := true }
    let c2 := if c.cfg.maintOpened then c1 else c1.startMeas
    ((c2.maintRecord 3 v.duration).noteMaint).raise .w 205
  else
    let n := c.cfg.failCount + 1
    let c1 := (c0.onCfg fun x => { x with failCount := min 8 n }).raise .w 207
    if n < 8 then c1
    else ((c1.onCfg fun x => { x with maint := .lockout }).maintRecord 6 0).raise .w 208

/-- Access closes (R355). -/
def Chip.closeMaint (c : Chip) : Chip :=
  if c.cfg.maint == .opened then ((c.onCfg fun x => { x with maint := .locked }).maintRecord 4 0).raise .w 206 else c

/-- Write of CFG_MAINT_CMD. -/
def Chip.writeMaintCmd (c : Chip) (v : Word) : Chip :=
  match bits v 1 0 with
  | 1 => c.drawChallenge
  | 2 => c.beginVerify
  | 3 => c.closeMaint
  | _ => c

/-! ### Management cores (R356) -/

/-- Write of CFG_MC_CTRL_c. While access is closed, the control port may neither restart a core nor change wd_ms (R352). -/
def Chip.writeMcCtrl (c : Chip) (m : Master) (d : DieId) (k : Nat) (v : Word) : Chip :=
  if !c.mayClosed m && (bit v 1 || bits v 31 16 != c.fld d (F.CFG_MC_CTRL_wd_ms.at k)) then c
  else
    let c1 := c.puts d [(F.CFG_MC_CTRL_auto_restart.at k, bits v 2 2), (F.CFG_MC_CTRL_wd_ms.at k, bits v 31 16)]
    let c2 := if bit v 0 then c1.onDie d (·.onMc k fun q => { q with kickAt := c.now }) else c1
    if bit v 1 then
      (c2.onEvt d (·.onCore k fun q => { q with
        unavailSince := if q.sleep == .asleep || ((c.die d).mc k).state != .running then q.unavailSince else c.now })).reloadCore
          d k 3
    else c2

/-- The firmware runs: an image has been chosen. -/
def Chip.firmwareRuns (c : Chip) : Bool :=
  match c.cfg.stage with
  | .held | .image | .recovery => false
  | .dram | .configuration | .lanes | .ready => true

/-- A kick of a core is missed (R356). -/
def Chip.watchdog (c : Chip) (d : DieId) (k : Nat) : Chip :=
  let wd := c.fld d (F.CFG_MC_CTRL_wd_ms.at k)
  let q := (c.die d).mc k
  if c.firmwareRuns && q.state == .running && wd ≠ 0 && wd * msTicks ≤ c.now - q.kickAt then
    (c.stopCore d k 2).raise d 214
  else c

/-! ### Flash (R337, R338, R372) -/

/-- Bytes of a flash device. -/
def Chip.flash (c : Chip) (dev : Nat) : List (Nat × Nat) := if dev = 0 then c.nv.flash0 else c.nv.flash1

/-- Change a flash device. -/
def Chip.onFlash (c : Chip) (dev : Nat) (f : List (Nat × Nat) → List (Nat × Nat)) : Chip :=
  { c with nv := if dev = 0 then { c.nv with flash0 := f c.nv.flash0 } else { c.nv with flash1 := f c.nv.flash1 } }

/-- `n` bytes of a device from an address; an erased byte is 0xFF. -/
def flashBytes (f : List (Nat × Nat)) (addr n : Nat) : List Nat := (List.range n).map fun i => smGet 255 (addr + i) f

/-- First byte of the counter sector. -/
def counterSector : Nat := 0x3FF0000

/-- The device of the running image, while one runs. -/
def Chip.runningDevice (c : Chip) : Option Nat := if c.firmwareRuns then some (b2n c.cfg.imageB) else none

/-- Write of CFG_FLASH_CMD (R337, R352, R372). A command is not obeyed while an operation runs. -/
def Chip.writeFlashCmd (c : Chip) (m : Master) (v : Word) : Chip :=
  let op := bits v 1 0
  let dev := bits v 2 2
  let addr := c.fld .w F.CFG_FLASH_ADDR_addr
  if op = 0 || c.cfg.flashOp.isSome || !(c.mayClosed m) then c
  else
    let at' := if op = 1 then addr else if op = 2 then addr / 256 * 256 else addr / 65536 * 65536
    if op ≠ 1 && (c.runningDevice == some dev || counterSector ≤ at') then
      (c.onCfg fun x => { x with flashError := true }).raise .w 217
    else c.onCfg fun x => { x with
      flashError := false, flashOp := some ⟨op, dev, at', (List.range 64).map fun i => c.w.reg (0x010800 + 4 * i)⟩ }

/-- What a read returns at an address: the counter sector's layout is not specified, so its bytes are open. -/
def Chip.flashRead (c : Chip) (dev addr i : Nat) : Nat :=
  let a := (addr + i) % 2 ^ 26
  if counterSector ≤ a then Config.freeValue (c.free + i) % 256 else smGet 255 a (c.flash dev)

/-- Bytes that an operation programs or erases. -/
def FlashOp.extent (o : FlashOp) : Nat := if o.op = 2 then 256 else 65536

/-- Bytes of a device from an address on. -/
def Chip.setFlash (c : Chip) (dev addr : Nat) (l : List Nat) : Chip :=
  c.onFlash dev fun f => (l.zipIdx).foldl (fun f p => smSet 255 (addr + p.2) p.1 f) f

/-- Bytes of a device become open. -/
def Chip.openFlash (c : Chip) (dev addr n : Nat) : Chip :=
  { (c.setFlash dev addr ((List.range n).map fun i => Config.freeValue (c.free + i) % 256)) with free := c.free + n }

/-- An operation that ends leaves no torn extent where it covers one. -/
def Chip.mendFlash (c : Chip) (o : FlashOp) : Chip :=
  { c with nv := { c.nv with torn := c.nv.torn.filter fun t =>
    !(t.1 == o.device && o.addr ≤ t.2.1 && t.2.1 + t.2.2 ≤ o.addr + o.extent) } }

/-- A flash operation ends (CFG_FLASH_STATUS). A device that fails leaves the bytes it worked on open. -/
def Chip.endFlash (c : Chip) (o : FlashOp) (failed : Bool) : Chip :=
  let c0 := (c.onCfg fun x => { x with flashOp := none, flashError := failed && o.op ≠ 1 }).raise .w 216
  if o.op = 1 then
    let bytes := (List.range 256).map (c.flashRead o.device o.addr)
    ({ c0 with free := c0.free + 256 }).onDie .w fun x =>
      (List.range 64).foldl (fun x i => x.setReg (0x010800 + 4 * i) (word (leAt bytes (4 * i) 4))) x
  else if failed then (c0.openFlash o.device o.addr o.extent).raise .w 217
  else
    let c0 := c0.mendFlash o
    let old := flashBytes (c.flash o.device) o.addr o.extent
    c0.setFlash o.device o.addr (if o.op = 2 then
      (old.zip (o.buffer.flatMap fun w => leBytes 4 w.toNat)).map fun p => Nat.land p.1 p.2
    else List.replicate o.extent 255)

/-! ### Meanings -/

/-- SWAP_ARM (R346, R347). -/
def execSwapArm (_m : Master) (mode : Bool) (s : State) : Res :=
  s.nextChip fun c => c.writeSwapCtrl (word (1 + 4 * b2n mode))

/-- SWAP_DISARM (R348). -/
def execSwapDisarm (_m : Master) (mode : Bool) (s : State) : Res :=
  s.nextChip fun c => c.writeSwapCtrl (word (2 + 4 * b2n mode))

/-- SWAP_PREPARE_COMPLETE (R346). -/
def execSwapPrepareComplete (d : DieId) (bad : List Nat) (s : State) : Res :=
  s.nextChip fun c =>
    if c.hasDie d && c.swapArmed && (c.die d).pendingCopy.isNone then c.prepared d bad else c

/-- SWAP_POINT (R346, R347, R377): the armed swap is judged at the end of the tick, if its swap point comes in it. A member's
swaps act by the buck's commit. Once the supply has failed, a swap no longer takes effect (R429). -/
def execSwapPoint (s : State) : Res :=
  s.nextChip fun c =>
    match c.cfg.swap with
    | some w =>
      if (c.herd.role == .standalone || c.herd.role == .buck) && !c.committed && c.pwr.fault.isNone then
        c.onCfg fun x => { x with swap := some { w with due := true } }
      else c
    | none => c

/-- CHK_ACQUIRE (R350). -/
def execChkAcquire (m : Master) (d : DieId) (u algo : Nat) (s : State) : Res :=
  s.nextBus fun c => if c.hasDie d && u < 4 then c.writeChkCtrl m d u (word (algo % 4 + 8)) else c

/-- CHK_RELEASE (R350). -/
def execChkRelease (m : Master) (d : DieId) (u algo : Nat) (s : State) : Res :=
  s.nextBus fun c => if c.hasDie d && u < 4 then c.writeChkCtrl m d u (word (algo % 4 + 16)) else c

/-- CHK_START (R351). -/
def execChkStart (m : Master) (d : DieId) (u algo : Nat) (s : State) : Res :=
  s.nextBus fun c => if c.hasDie d && u < 4 then c.writeChkCtrl m d u (word (algo % 4 + 4)) else c

/-- CHK_DATA (R351): four bytes, bits 7:0 first. -/
def execChkData (m : Master) (d : DieId) (u : Nat) (v : Word) (s : State) : Res :=
  s.nextBus fun c => if c.hasDie d && u < 4 then c.feedChk m d u (leBytes 4 v.toNat) else c

/-- CHK_DATA_B (R351): one byte. -/
def execChkDataB (m : Master) (d : DieId) (u : Nat) (v : Word) (s : State) : Res :=
  s.nextBus fun c => if c.hasDie d && u < 4 then c.feedChk m d u [bits v 7 0] else c

/-- CHK_RANGE_GO (R351). -/
def execChkRangeGo (m : Master) (d : DieId) (u : Nat) (v : Word) (s : State) : Res :=
  s.nextBus fun c => if c.hasDie d && u < 4 then c.writeChkRange m d u 2 (v ||| 0x80000000) else c

/-- CHK_RANGE_COMPLETE (R351), once the management budget has let every line through. -/
def execChkRangeComplete (d : DieId) (u : Nat) (read : MemRead) (good : Nat) (s : State) : Res :=
  s.nextAll fun s =>
    if s.chip.hasDie d && u < 4 && ((s.chip.die d).chkUnit u).busy && (s.chip.die d).dram.active &&
      (s.chip.die d).dram.waiting 2 = 0 && (s.chip.die d).dram.rangeFree ((s.chip.die d).chkUnit u).addr ((s.chip.die d).chkUnit u).len
    then
      s.finishRange d u read good
    else s

/-- MAINT_CHALLENGE (R354). -/
def execMaintChallenge (_m : Master) (s : State) : Res := s.nextChip fun c => c.writeMaintCmd 1

/-- MAINT_VERIFY (R354). -/
def execMaintVerify (_m : Master) (s : State) : Res := s.nextChip fun c => c.writeMaintCmd 2

/-- MAINT_VERIFY_COMPLETE (R355). -/
def execMaintVerifyComplete (s : State) : Res :=
  s.nextChip fun c =>
    match c.cfg.verify with
    | some v => c.endVerify v
    | none => c

/-- MAINT_CLOSE (R355). -/
def execMaintClose (_m : Master) (s : State) : Res := s.nextChip fun c => c.writeMaintCmd 3

/-- MAINT_EXPIRY (R355). -/
def execMaintExpiry (s : State) : Res :=
  s.nextChip fun c => if c.cfg.maint == .opened && c.cfg.openUntil ≤ c.now then c.closeMaint else c

/-- WATCHDOG_KICK (R356). -/
def execWatchdogKick (m : Master) (d : DieId) (k : Nat) (v : Word) (s : State) : Res :=
  s.nextChip fun c => if c.hasDie d && k < 2 then c.writeMcCtrl m d k (v ||| 1) else c

/-- WATCHDOG_EXPIRY (R356). -/
def execWatchdogExpiry (d : DieId) (k : Nat) (s : State) : Res :=
  s.nextChip fun c => if c.hasDie d && k < 2 then c.watchdog d k else c

/-- CORE_RESTART (R356). -/
def execCoreRestart (m : Master) (d : DieId) (k : Nat) (v : Word) (s : State) : Res :=
  s.nextChip fun c => if c.hasDie d && k < 2 then c.writeMcCtrl m d k (v ||| 2) else c

/-- MEASUREMENT_RECOMPUTE_COMPLETE (R358). -/
def execMeasurementRecomputeComplete (s : State) : Res :=
  s.nextChip fun c => if c.cfg.measBusy then c.setMeas c.computeMeas else c

/-- JLOG_RD_IDX_WRITE (R359). -/
def execJlogRdIdxWrite (_m : Master) (d : DieId) (v : Word) (s : State) : Res :=
  s.nextChip fun c => if c.hasDie d then c.writeJlogRdIdx d v else c

/-- FLASH_READ (R337). -/
def execFlashRead (m : Master) (device : Bool) (s : State) : Res :=
  s.nextChip fun c => c.writeFlashCmd m (word (1 + 4 * b2n device))

/-- FLASH_PROGRAM (R337, R372). -/
def execFlashProgram (m : Master) (device : Bool) (s : State) : Res :=
  s.nextChip fun c => c.writeFlashCmd m (word (2 + 4 * b2n device))

/-- FLASH_ERASE (R337, R372). -/
def execFlashErase (m : Master) (device : Bool) (s : State) : Res :=
  s.nextChip fun c => c.writeFlashCmd m (word (3 + 4 * b2n device))

/-- FLASH_OPERATION_DONE (R337). -/
def execFlashOperationDone (failed : Bool) (s : State) : Res :=
  s.nextChip fun c =>
    match c.cfg.flashOp with
    | some o => c.endFlash o failed
    | none => c

end Sys2Proof.Machine
end

