-- ==== Sys2Proof/Machine/Herd.lean ====
section
/-! DEFINITION. Herd operation (chapter 14, R363 to R386). The line encoding of sync messages, and how a module learns that
it is admitted, are not specified: messages are abstract, and a module takes itself as admitted when the buck's HELLO
reaches it with equal settings (PRESUMED, log entry 48). -/

namespace Sys2Proof.Machine

/-! ### Peers and messages -/

/-- CTRL_PTP_STATUS.state. -/
def PtpState.code : PtpState → Nat
  | .freeRun => 0 | .locking => 1 | .locked => 2 | .holdStep => 3 | .holdSync => 4

/-- Change the herd unit. -/
def Chip.onHerd (c : Chip) (f : Herd → Herd) : Chip := { c with herd := f c.herd }

/-- A module not heard of yet. -/
def Peer.fresh (id : Nat) : Peer := ⟨id, false, 0, false, false, 0, false, 0, 0, 0, 0, none, List.replicate 32 0, 0, 0⟩

/-- Another module of the herd. -/
def Herd.peer? (x : Herd) (id : Nat) : Option Peer := x.peers.find? (·.id == id)

/-- Change a peer, known or new; peers are kept in ascending id. -/
def Herd.onPeer (x : Herd) (id : Nat) (f : Peer → Peer) : Herd :=
  let old := (x.peer? id).getD (.fresh id)
  { x with peers := (x.peers.filter (·.id < id)) ++ [f old] ++ (x.peers.filter (id < ·.id)) }

/-- Code of a herd state (R370). -/
def HerdRole.code : HerdRole → Nat
  | .standalone => 0 | .joining => 1 | .member => 2 | .buck => 3 | .lost => 4 | .refused => 5

/-- lat_ns in use. -/
def Chip.latNs (c : Chip) : Nat := (c.herd.settings.map (·.lat)).getD 0

/-- part_code (SYS_ID). -/
def Chip.partCode (c : Chip) : Nat := if c.two then 0x0262 else 0x0131

/-- This module's module unit word (R31). -/
def Chip.moduleWord (c : Chip) : Nat := c.unitWord .w moduleUnit + bits (c.w.reg moduleUnit) 0 0

/-- The sources that hold the gate of a die closed (R309, R316), one bit each; none while it is open. -/
def Chip.gateSources (c : Chip) (d : DieId) : Nat :=
  if (c.die d).ilk.gateOpen || !c.hasDie d then 0
  else bitmapOf ((c.die d).badInputs ++
    (if c.two && !(c.die d.other).ilk.gateOpen && (c.die d.other).ownSource then [8] else []) ++
    (if c.memberGates.isEmpty then [] else [9]) ++ (if (c.die d).ilk.forced then [10] else []))

/-- Sources of a die's own: its inputs, and a forced closing (R316). -/
def ownSources : Nat := 0x4FF

/-- A STATUS tells of a gate held closed by a source of its sender's own (R316). -/
def heldByOwn (s : PeerStatus) : Bool := (s.sourcesW ||| s.sourcesE) &&& ownSources != 0

/-- What this module's STATUS carries (R366). -/
def Chip.statusMsg (c : Chip) : PeerStatus :=
  { gateW := c.w.ilk.gateOpen, gateE := c.two && c.e.ilk.gateOpen
    sourcesW := c.gateSources .w, sourcesE := c.gateSources .e
    swapReady := c.swapReadyHere
    launched := c.herd.launched
    unit := word c.moduleWord
    oldest := (c.oldestUnstarted .w).map fun t => (t.id, t.count)
    geom := c.w.reg (0x060000 + 0x8000)
    rateLimit := c.fld .w F.SLOT_RATE_LIMIT_limit_khz }

/-- A herd forms only with a settings section of two or more members that includes this module (R369). -/
def Chip.herdFits (c : Chip) : Bool :=
  match c.herd.settings with
  | some t => 2 ≤ popcount 8 t.expected && nbit t.expected c.herd.addr
  | none => false

/-! ### The decisions of the buck (R367) -/

/-- The commit of a herd swap acts (R377): the pending copies become active, and a member takes the buck's herd enable. -/
def Chip.actCommit (c : Chip) (on : Bool) : Chip :=
  match c.cfg.swap with
  | none => c
  | some s =>
    c.doSwap (s.slot.getD ((c.sched.slot + 1) % m48)) s.initial (if c.herd.role == .member then some on else none)

/-- A decision acts. -/
def Chip.actDecision (c : Chip) (x : Decision) : Chip :=
  let c1 := match x.slot with
    | some m => c.actSlot m
    | none => c
  match x.commit with
  | some on => c1.actCommit on
  | none => c1

/-! ### Forming and joining (R370, R371, R373, R384) -/

/-- The conditions of R370 that the buck's side and the joining side both judge: equal settings, and the latency check. That local
time is aligned follows from a TIME message sent to the module, and heard by it (`Peer.aligned`, `Herd.aligned`). -/
def Chip.peerFits (c : Chip) (crc long : Nat) : Bool :=
  (c.herd.settings.map (·.crc)) == some crc && long + 20 ≤ c.latNs

/-- A module that says it is refused is no member (R370, R371). -/
def Chip.dropRefused (c : Chip) (id : Nat) : Chip :=
  c.onHerd fun x => { x.onPeer id fun p => { p with admitted := false, refused := true } with measDirty := true }

/-- The buck hears a module that wants to join: admission while its scheduler is idle at the start of the tick and no swap is
armed, or refusal by the latency check (R371, R384, R385). -/
def Chip.judgeJoin (c : Chip) (id state crc long : Nat) : Chip :=
  let p := (c.herd.peer? id).getD (.fresh id)
  let expected := nbit ((c.herd.settings.map (·.expected)).getD 0) id
  if state == 5 then c.dropRefused id
  else if p.admitted || p.refused || !expected || !(state == 1 || state == 2 || state == 4) ||
    (c.herd.settings.map (·.crc)) != some crc then c
  else if c.latNs < long + 20 then (c.onHerd (·.onPeer id fun p => { p with refused := true })).raise .w 229
  else if p.aligned && (c.sched.mode == .idle || (c.sched.mode == .armed && c.sched.armedAt == c.now)) && !c.swapArmed then
    let c1 := (c.onHerd fun x =>
      { x.onPeer id fun p => { p with admitted := true, admittedAt := c.now, gone := false } with
        formed := true, measDirty := true }).raise .w 226
    if c.herd.formed then c1 else c1.raise .w 224
  else c

/-- An armed swap ends with the buck that armed it (R383). -/
def Chip.cancelSwap (c : Chip) : Chip := if c.swapArmed then c.dropSwap.swapOutcome 3 [] (some 204) else c

/-- A rate limit that the map checks use has changed: they run again (R138). -/
def Chip.recheckMaps (before c : Chip) : Chip :=
  if c.checkLimit = before.checkLimit then c else c.forEach c.dies fun c d => c.restartMapCheck d

/-- A joining or lost module becomes a member under the buck's slot number (R370, R373); one that was lost has lost its armed swap,
and another buck than before is a new one (R383). -/
def Chip.becomeMember (c : Chip) (id : Nat) : Chip :=
  let c1 := if c.herd.role == .lost then (if c.herd.buckId == id then c else c.raise .w 227).cancelSwap else c
  let slot := (c.herd.buckSlot.or (((c.herd.peer? id).bind (·.status)).map (·.launched))).getD c.sched.slot
  let c2 := (c1.onHerd fun x => { x with role := .member, buckId := id, decisions := [] }).onSched fun x =>
    { x with slot := slot, decided := slot }
  recheckMaps c c2

/-- A joining or lost module hears the buck: it is admitted when the conditions of R370 hold, and the buck, by its messages, is
idle with no swap armed (R384), or is refused (log entry 48). -/
def Chip.hearBuck (c : Chip) (id crc long : Nat) : Chip :=
  if (c.herd.settings.map (·.crc)) != some crc then c.onHerd fun x => { x with role := .refused }
  else if c.peerFits crc long && c.herd.aligned && c.herd.buckMode = 0 && !c.herd.buckSwap && c.sched.mode == .idle then
    c.becomeMember id
  else c

/-- A HELLO is heard (R371). -/
def Chip.hearHello (c : Chip) (id part state crc long : Nat) : Chip :=
  let c1 := c.onHerd (·.onPeer id fun p => { p with part := part, state := state, crc := crc })
  match c.herd.role with
  | .buck => c1.judgeJoin id state crc long
  | .joining | .lost => if state = 3 then c1.hearBuck id crc long else c1
  | .standalone | .member | .refused => c1

/-- Modules heard since a tick, with this one, that may be buck (R371). -/
def Chip.candidates (c : Chip) (since : Nat) : List Nat :=
  let ok := (c.herd.settings.map (·.buckOk)).getD 0
  (c.herd.addr :: ((c.herd.peers.filter fun p => since ≤ p.heardAt && !p.refused && p.state != 5).map (·.id))).filter (nbit ok)

/-- The election: the lowest present id that may be buck (R371). After the loss of a buck an armed swap is cancelled (R383). -/
def Chip.elect (c : Chip) (since : Nat) (again : Bool) : Chip :=
  match lowest (c.candidates since) with
  | none => c
  | some id =>
    let c1 := c.onHerd fun x => { x with buckId := id, peers := x.peers.map fun p => { p with admitted := false, aligned := false } }
    let c2 := if again then c1.raise .w 227 else c1
    let c3 := if again then (c2.onHerd fun x => { x with elected := true }).cancelSwap else c2
    if id ≠ c.herd.addr then c3
    else driveEnables c3 (c3.onHerd fun x => { x with role := .buck, formed := false, decisions := [], measDirty := true })

/-! ### What messages do (R366) -/

/-- A GATE message: the member's closing closes both gates; one by a source of its own keeps them closed (R309, R316). -/
def Chip.hearGate (c : Chip) (id source : Nat) (closed : Bool) : Chip :=
  if !c.inHerd then c
  else if closed then
    let own : Bool := source < 8 || source == 10
    let c1 := if own then c.memberHolds id else c
    c1.forEach c1.dies fun c d => c.closeGate d 9 id
  else { c with memberGates := c.memberGates.filter (· != id) }

/-- A STATUS message: on a member, a rate limit of the buck's that has changed restarts the map checks (R138). -/
def Chip.hearStatus (c : Chip) (id : Nat) (s : PeerStatus) : Chip :=
  let c1 := recheckMaps c (c.onHerd (·.onPeer id fun p => { p with status := some s }))
  if !c.inHerd then c1
  else
    let gates := c1.memberGates.filter (· != id)
    { c1 with memberGates := if heldByOwn s then gates ++ [id] else gates }

/-- A SWAP message (R347, R348, R377). The phase of a refusal names its reasons (DEDUCED, log entry 48). -/
def Chip.hearSwap (c : Chip) (id : Nat) (p : SwapPhase) (slot : Option Nat) (on : Bool) (due : Nat) : Chip :=
  let fromBuck := c.herd.role == .member && id == c.herd.buckId
  let drop (outcome : Nat) (reasons : List Nat) (source : Option Nat) : Chip :=
    if c.swapArmed && !c.committed then c.dropSwap.swapOutcome outcome reasons source else c
  match p with
  | .arm => if fromBuck then c.onCfg fun x => { x with swap := some ⟨slot, c.now, false, false, !c.two, [], none, [], false⟩ } else c
  | .ready =>
    let add (s : Swap) : Swap := if s.members.contains id then s else { s with members := s.members ++ [id] }
    c.onCfg fun x => { x with swap := x.swap.map add }
  | .commit => if fromBuck then c.onHerd fun x => { x with decisions := x.decisions ++ [⟨due, none, some on⟩] } else c
  | .refused reasons => if fromBuck then drop 2 reasons (some 203) else c
  | .armRefused reasons => if c.inHerd then c.swapOutcome 2 reasons (some 203) else c
  | .cancelled => if c.inHerd then drop 3 [] (some 204) else c
  | .disarmed => if c.inHerd then drop 4 [] none else c

/-- What the messages of the buck tell a module that waits for admission: its slot, scheduler mode and swap (R373, R384). -/
def Chip.noteBuck (c : Chip) (id : Nat) (m : SyncMsg) : Chip :=
  if (c.herd.peer? id).map (·.state) != some 3 then c
  else match m with
  | .slot s => c.onHerd fun x => { x with
      buckMode := s.mode, buckSlot := if s.fires then some s.number else x.buckSlot }
  | .swap .arm _ _ _ => c.onHerd fun x => { x with buckSwap := true }
  | .swap .ready _ _ _ | .swap (.armRefused _) _ _ _ => c
  | .swap .commit _ _ _ | .swap (.refused _) _ _ _ | .swap .cancelled _ _ _ | .swap .disarmed _ _ _ =>
    c.onHerd fun x => { x with buckSwap := false }
  | _ => c

/-- Local time follows the buck's (R373). -/
def Chip.hearTime (c : Chip) (t ptp short : Nat) : Chip :=
  let ns := t / 2 ^ 32 + short
  { c with
    herd := { c.herd with buckPtp := ptp % 8, aligned := true }
    time := (if c.two then ns * 2 ^ 32 + t % 2 ^ 32 else ns * 2 ^ 32) % c.timeModulus }

/-- A message is acted on. -/
def Chip.hear (c : Chip) (id : Nat) (m : SyncMsg) (due short long : Nat) : Chip :=
  match m with
  | .hello part state _ crc => c.hearHello id part state crc long
  | .status s => c.hearStatus id s
  | .slot m =>
    if c.herd.role == .member && id == c.herd.buckId then
      c.onHerd fun x => { x with decisions := x.decisions ++ [⟨due, some m, none⟩] }
    else c
  | .gate _ source closed => c.hearGate id source closed
  | .swap p slot on _ => c.hearSwap id p slot on due
  | .time t ptp _ =>
    let buck : Bool := match c.herd.role with
      | .member => id == c.herd.buckId
      | .joining | .lost => (c.herd.peer? id).map (·.state) == some 3
      | .standalone | .buck | .refused => false
    if buck then c.hearTime t ptp short else c
  | .meas m => c.onHerd fun x => { x.onPeer id fun p => { p with meas := m } with measDirty := true }

/-- The receiver of a sync link. -/
def Herd.rx (x : Herd) (linkB : Bool) : Phy := if linkB then x.rxB else x.rxA

/-- Blocks come on a sync link, after `skip` that its receiver passes over (R365): those with an invalid sync header, and those
that come while a lock is missing, are discarded and counted (HERD_LINK_ERR; which blocks count is DEDUCED, log entry 48). The
link is up while both locks are held. -/
def Chip.syncBlocks (c : Chip) (linkB : Bool) (skip : Nat) (blocks : List LineBlock) : Chip :=
  let r := blocks.foldl (fun (x : Nat × Phy) b =>
    let q := (x.2.block false true b).2
    (x.1 + b2n (!(x.2.usable c.now && validSync b)), q)) (0, (c.herd.rx linkB).skip skip)
  let up := r.2.usable c.now
  (c.onHerd fun x => if linkB then { x with rxB := r.2, linkB := up } else { x with rxA := r.2, linkA := up }).onDie .w
    (·.bumpBy (if linkB then F.HERD_LINK_ERR_b else F.HERD_LINK_ERR_a) r.1)

/-- A HELLO under this module's own id is no copy of its own last one: the id is another module's too (R371). -/
def Chip.conflicts (c : Chip) (seq part state ok crc : Nat) : Bool :=
  !(c.herd.helloSeq == some seq && part == c.partCode && state == c.herd.role.code && crc == ((c.herd.settings.map (·.crc)).getD 0) &&
    ok == b2n (nbit ((c.herd.settings.map (·.buckOk)).getD 0) c.herd.addr))

/-- A message arrives on a link: forwarded on the other while it has passed fewer than 7 links, and acted on when it is the first
copy (R366, R371). `hops` counts the links before this one. -/
def Chip.receiveSync (c : Chip) (linkB : Bool) (origin seq hops : Nat) (m : SyncMsg) (due short long : Nat) : Chip :=
  if origin = c.herd.addr then
    match m with
    | .hello part state ok crc =>
      if c.conflicts seq part state ok crc && c.herd.role != .refused then
        (c.onHerd fun x => { x with role := .refused }).raise .w 231
      else c
    | _ => c
  else
    let c2 := if hops + 1 < 7 then c.emit (.sync (!linkB) origin seq (hops + 1) m) else c
    if c.herd.seen.contains (origin, seq) then c2
    else ((c2.onHerd fun x => { x.onPeer origin fun p => { p with heardAt := c.now, short := short, long := long } with
      seen := ((origin, seq) :: x.seen).take 256 }).noteBuck origin m).hear origin m due short long

/-! ### Losses (R380 to R382) -/

/-- The view of the stripe that the scheduler exposes on die W: the one bound, or, between the decision of S0 and the tick in
which it acts, the one that it is to bind (R367, R381). -/
def Chip.exposedView (c : Chip) : Option View :=
  let x := c.sched
  match c.w.view.filter fun v => v.exposing && v.stripe == x.stripe, c.stripe? .w x.stripe with
  | some v, _ => some v
  | none, some t =>
    some (c.viewNow .w t.id t.job t.vFirst t.count x.s0 x.n c.w.blnk.failedLanes c.w.blnk.named)
  | none, none => none

/-- A member is lost: its beams are logged by the buck while a stripe is exposed (R381). -/
def Chip.memberLost (c : Chip) (p : Peer) : Chip :=
  let c1 := ((c.onHerd fun x => { x.onPeer p.id fun p => { p with admitted := false, gone := true, goneAt := c.now } with
    measDirty := true }).bump .w F.HERD_LOST_COUNT_count).raise .w 225
  let c2 := { c1 with memberGates := c1.memberGates.filter (· != p.id) }
  match (if c2.sched.mode == .exposing then c2.exposedView else none) with
  | some v =>
    let ka := (max 0 (sdiff 48 ((p.status.map (·.launched)).getD v.s0) v.s0)).toNat
    c2.forEach (if p.part = 0x0131 then [.w] else [DieId.w, DieId.e]) fun c d =>
      c.reportSpan .w { c.slotSpan d v 0x12 ka (v.slots - 1) with moduleId := p.id }
  | none => c2

/-- Decisions that act in this tick act (R385). -/
def Chip.actDue (c : Chip) : Chip :=
  let due := c.herd.decisions.filter (·.at_ ≤ c.now)
  (c.onHerd fun h => { h with decisions := h.decisions.filter (c.now < ·.at_) }).forEach due Chip.actDecision

/-- BLANK leaves on every lane of a die that carries a logical lane (R382). Of which slot is not specified: it is an open
value (log entry 48). The triggers of slots fired before follow as BLANK. -/
def Chip.darkenDie (c : Chip) (d : DieId) : Chip :=
  let c1 := c.onBlnk d fun x => { x with groups := x.groups.map fun g => { g with slots := g.slots.map fun r =>
    if r.sent then r else { r with go := [] } } }
  if !c1.flag d F.BLNK_CTRL_en then c1
  else
    let r := c1.freshBelow (2 ^ 32)
    let x := (c1.die d).blnk
    r.2.forEach x.carriers fun c l =>
      c.emitLane d l.2.1 (frameHeader r.1 x.epoch 3 l.1 l.2.2 0 false 0 0) []

/-- A member that hears nothing from the buck (R380, R382); a stripe end that acts in the same tick comes first (R385). -/
def Chip.buckLost (c0 : Chip) : Chip :=
  let buck := c0.herd.buckId
  let c := c0.actDue
  let c1 := c.forEach c.dies fun c d => (c.closeGate d 9 buck).darkenDie d
  let c2 := c1.forEach c1.dies fun c d =>
    match (c.die d).view with
    | some v =>
      if v.exposing then
        let ka := (max 0 (sdiff 48 c.herd.launched v.s0 + 1)).toNat
        c.endEarlyOn d v 0x12 (if ka < v.slots then some ka else none)
      else c
    | none => c
  ((c2.onSched fun x => { x with mode := .idle, idleAt := c.now, decidedAt := c.now }).onHerd fun x =>
    { x with
      role := .lost, lostAt := c.now, decisions := [], elected := false, aligned := false, buckMode := 0, buckSlot := none,
      buckSwap := false }).raise .w 230

/-- Ticks of silence after which a module is lost (R380). -/
def silence : Nat := 2 * usTicks

/-- The herd digest (R363). -/
def Chip.herdDigest (c : Chip) : List Nat :=
  let own : Nat × List Nat := (c.herd.addr, c.measBytes)
  let ps := (c.herd.peers.filter (·.admitted)).map fun p => (p.id, p.meas)
  let all := (ps.filter (·.1 < own.1)) ++ [own] ++ (ps.filter (own.1 < ·.1))
  sha256 (all.flatMap fun p => p.1 :: p.2)

/-! ### Meanings -/

/-- HELLO_SEND (R366): every 10 µs, by every module that does not stand alone. -/
def execHelloSend (s : State) : Res :=
  s.nextChip fun c =>
    match c.herd.settings with
    | some t =>
      if c.herd.role != .standalone && 10 * usTicks * (c.herd.hellos + 1) ≤ c.now then
        (c.onHerd fun x => { x with hellos := c.now / (10 * usTicks), helloSeq := some x.seq }).sendSync
          (.hello c.partCode c.herd.role.code (b2n (nbit t.buckOk c.herd.addr)) t.crc)
      else c
    | none => c

/-- STATUS_SEND (R366): every 1 µs, by every member. -/
def execStatusSend (s : State) : Res :=
  s.nextChip fun c =>
    if c.inHerd && usTicks * (c.herd.statuses + 1) ≤ c.now then
      (c.onHerd fun x => { x with statuses := c.now / usTicks }).sendSync (.status c.statusMsg)
    else c

/-- Local time as the variant's format holds it: a K131's has no fraction (R270, R373). -/
def Chip.formatTime (c : Chip) : Nat := if c.two then c.time else c.time / 2 ^ 32 * 2 ^ 32

/-- TIME_SEND (R366): every 10 µs, by the buck. It aligns the modules that have been heard of (R373). -/
def execTimeSend (s : State) : Res :=
  s.nextChip fun c =>
    if c.herd.role == .buck && 10 * usTicks * (c.herd.times + 1) ≤ c.now then
      (c.onHerd fun x => { x with
        times := c.now / (10 * usTicks), peers := x.peers.map fun p => { p with aligned := true } }).sendSync
          (.time c.formatTime c.ptp.state.code c.now)
    else c

/-- SYNC_MESSAGE_RECEIVE (R365, R366): blocks come on a link, and then a message. Content is used while both locks are held
(R224). A standalone module ignores its sync links (R369). -/
def execSyncMessageReceive (linkB : Bool) (skip : Nat) (blocks : List LineBlock) (origin seq hops : Nat) (m : SyncMsg)
    (due short long : Nat) (s : State) : Res :=
  s.nextChip fun c =>
    if c.herd.role == .standalone then c
    else
      let c1 := c.syncBlocks linkB skip blocks
      if 8 ≤ origin || !(c1.herd.rx linkB).usable c.now then c1
      else c1.receiveSync linkB origin seq hops m due (short % 1024) (long % 1024)

/-- HERD_ELECTION (R371): at form_timeout_ms after boot, or once every expected module has been heard. -/
def execHerdElection (s : State) : Res :=
  s.nextChip fun c =>
    match c.herd.settings with
    | some t =>
      let all := (onesOf 8 t.expected).all fun id => id == c.herd.addr || c.herd.peers.any (·.id == id)
      if c.herd.role == .joining && (all || t.formMs * msTicks ≤ c.now - c.herd.bootAt) &&
        !(c.herd.peers.any (·.state == 3))
      then c.elect 0 false else c
    | none => c

/-- HERD_DECISION_ACT (R367): the oldest decision acts in its tick. -/
def execHerdDecisionAct (s : State) : Res :=
  s.nextChip fun c =>
    match c.herd.decisions with
    | x :: rest => if x.at_ ≤ c.now then (c.onHerd fun h => { h with decisions := rest }).actDecision x else c
    | [] => c

/-- MEMBER_LOSS (R380, R381). -/
def execMemberLoss (id : Nat) (s : State) : Res :=
  s.nextChip fun c =>
    match c.herd.peer? id with
    | some p => if c.herd.role == .buck && p.admitted && silence ≤ c.now - p.heardAt then c.memberLost p else c
    | none => c

/-- BUCK_LOSS (R380, R382). -/
def execBuckLoss (s : State) : Res :=
  s.nextChip fun c =>
    if c.herd.role == .member && silence ≤ c.now - ((c.herd.peer? c.herd.buckId).map (·.heardAt)).getD 0 then c.buckLost
    else c

/-- FAILOVER_ELECTION (R383): 100 µs after the loss, among the modules heard since. -/
def execFailoverElection (s : State) : Res :=
  s.nextChip fun c =>
    match c.herd.settings with
    | some t =>
      if t.failover && c.herd.role == .lost && !c.herd.elected && 100 * usTicks ≤ c.now - c.herd.lostAt then c.elect c.herd.lostAt true else c
    | none => c

/-- SYNC_LINK_LOSS (R380). -/
def execSyncLinkLoss (linkB : Bool) (s : State) : Res :=
  s.nextChip fun c =>
    if c.herd.role != .standalone && (if linkB then c.herd.linkB else c.herd.linkA) then
      (c.onHerd fun x => if linkB then { x with linkB := false, rxB := x.rxB.loseBlock }
        else { x with linkA := false, rxA := x.rxA.loseBlock }).raise .w 228
    else c

/-- HERD_DIGEST_COMPLETE (R363). -/
def execHerdDigestComplete (s : State) : Res :=
  s.nextChip fun c =>
    if c.herd.role == .buck && c.herd.measDirty then c.onHerd fun x => { x with meas := c.herdDigest, measDirty := false }
    else c

end Sys2Proof.Machine
end

