-- ==== Sys2Proof/Machine/Cal.lean ====
section
/-! DEFINITION. Calibration under live exposure (chapter 15, R387 to R404): the measurement chain, bursts, steps and their
results on die W, and lane recalibration on each die. -/

namespace Sys2Proof.Machine

/-- Change the calibration engine. -/
def Chip.onCal (c : Chip) (f : Cal → Cal) : Chip := { c with cal := f c.cal }

/-! ### The measurement chain (R387, R388) -/

/-- Full scale in fA of a range. -/
def fullScale (range : Nat) : Int := (100000 * 10 ^ range : Nat)

/-- Samples of a zero or chain measurement. -/
def zeroSamples : Nat := 1024

/-- z of R388, in 1/256 LSB. -/
def zeroOf (sum : Int) : Int := roundDiv (256 * sum) 1024

/-- C of R388: the mean current in fA. -/
def currentOf (sum : Int) (m : Nat) (z : Int) (fs : Int) (k : Nat) : Int :=
  roundDiv ((256 * sum - m * z) * fs * k) (2 ^ 39 * m)

/-- Q of R388: the charge per slot in zC. -/
def chargeOf (sum : Int) (m n : Nat) (z : Int) (fs : Int) (k : Nat) : Int :=
  roundDiv ((256 * sum - m * z) * fs * k) (2 ^ 39 * n)

/-- A measurement begins. -/
def Cal.begin (x : Cal) (p : CalPhase) (now : Nat) : Cal :=
  { x with phase := p, phaseAt := now, sum := 0, count := 0, clipped := false }

/-- A sample is integrated while a measurement runs; a burst's, until 5 µs after its last slot (R393). -/
def Cal.take (x : Cal) (now : Nat) (v : Int) : Cal :=
  let add := { x with sum := x.sum + v, count := x.count + 1, clipped := x.clipped || v == 32767 || v == -32768 }
  match x.phase with
  | .zero | .chainZero | .chainRef => if x.count < zeroSamples then add else x
  | .slots => add
  | .span => if now ≤ x.slotAt + 5 * usTicks then add else x
  | .idle | .waiting | .gap => x

/-! ### Windows (R391, R395) -/

/-- A chain check may run now (R389). -/
def Chip.chainMayRun (c : Chip) : Bool := c.sched.turnOpen || c.sched.calOpen || c.sched.mode == .idle

/-! ### Steps (R395) -/

/-- The step that CAL_STEP and CAL_STEP_MASK name. -/
def Chip.stepNamed (c : Chip) : CalStep :=
  { die := if c.flag .w F.CAL_STEP_die then .e else .w, cell := c.fld .w F.CAL_STEP_cell
    moduleId := c.fld .w F.CAL_STEP_module_id
    left := onesOf 64 (c.fld .w F.CAL_STEP_MASK_mask_low + 2 ^ 32 * c.fld .w F.CAL_STEP_MASK_1_mask_high)
    qBg := 0, qLo := 0 }

/-- Every result entry becomes not measured. -/
def Chip.clearResults (c : Chip) : Chip :=
  c.forEach (List.range 64) fun c i => c.onDie .w fun x =>
    (((x.setReg (0x141000 + 16 * i) (word (5 * 2 ^ 11))).setReg (0x141004 + 16 * i) 0).setReg (0x141008 + 16 * i) 0).setReg
      (0x14100C + 16 * i) 0

/-- Tag of a burst among the GO slots awaited. -/
def BurstKind.tag : BurstKind → Nat
  | .background => 128
  | .beam p hi => 2 * p + b2n hi

/-- What echoes tell of the burst under way no longer counts. -/
def Cal.dropBurst (x : Cal) : Cal := { x with goSlots := x.goSlots.filter (·.2 != x.burst.tag) }

/-- A step ends. -/
def Chip.endStep (c : Chip) : Chip :=
  ((c.onCal fun x => { x with
    step := none, phase := if x.phase == .chainZero || x.phase == .chainRef then x.phase else .idle }).setBit
    .w F.CAL_STATUS_step_done).raise .w 232

/-- CAL_CTRL.step_go (R395). -/
def Chip.goStep (c : Chip) : Chip :=
  if c.cal.step.isSome then c
  else
    let t := c.stepNamed
    let c1 := c.clearResults.onCal fun x => { x with held := x.held.map fun h => { h with shown := false } }
    if c.fld .w F.CAL_BURST_code_hi ≤ c.fld .w F.CAL_BURST_code_lo || t.left.isEmpty then c1.endStep
    else c1.onCal fun x =>
      if x.phase == .idle then
        { x with step := some t, phase := .waiting, spent := false, range := c.fld .w F.CAL_ADC_range }
      else { x with step := some t, spent := false }

/-- Write of CAL_CTRL. -/
def Chip.writeCalCtrl (c : Chip) (v : Word) : Chip :=
  let c1 := c.puts .w [(F.CAL_CTRL_en, bits v 0 0), (F.CAL_CTRL_apply, bits v 1 1), (F.CAL_CTRL_capture_en, bits v 2 2)]
  let c2 := if bit v 3 then c1.onCal fun x => { x with chainWanted := true } else c1
  let c3 := if bit v 4 then c2.goStep else c2
  if bit v 5 && c3.cal.step.isSome then
    (c3.onCal fun x => if x.phase == .slots || x.phase == .span then x.dropBurst else x).endStep
  else c3

/-! ### Bursts (R392, R393) -/

/-- Slots of a burst. -/
def Chip.burstSlots (c : Chip) : Nat := 2 ^ (max 6 (min 14 (c.fld .w F.CAL_BURST_n_log2)))

/-- Rate of a burst in kHz. -/
def Chip.burstKhz (c : Chip) : Nat := max 1 (min (c.fld .w F.CAL_BURST_rate_khz) c.activeLimit)

/-- Position of the beam whose lane sends GO. -/
def Cal.position (x : Cal) : Nat :=
  match x.burst, x.step with
  | .beam p _, _ => p
  | .background, some t => t.left.headD 0
  | .background, none => 0

/-- Beam under test, within its die. -/
def Cal.beam (x : Cal) : Nat :=
  match x.step with
  | some t => (beamsOfCell t.cell).getD x.position 0
  | none => 0

/-- Die under test. -/
def Cal.die (x : Cal) : DieId := ((x.step.map (·.die)).getD .w)

/-- Code of the burst. -/
def Chip.burstCode (c : Chip) : Nat :=
  match c.cal.burst with
  | .background => 0
  | .beam _ hi => if hi then c.fld .w F.CAL_BURST_code_hi else c.fld .w F.CAL_BURST_code_lo

/-- The step is for a beam of this module. -/
def Chip.ownStep (c : Chip) : Bool := (c.cal.step.map (·.moduleId)) == some c.ownId

/-- A burst slot fires: the engine counts it, and its echo is awaited (R393). -/
def Chip.countBurst (c : Chip) : Chip :=
  let shut := c.dies.any fun d => !(c.die d).ilk.gateOpen
  c.onCal fun x =>
    let n := x.fired + 1
    { x with
      fired := n, slotAt := c.now, gateHit := x.gateHit || shut, phase := if n = x.n then .span else .slots
      goSlots := if c.ownStep then x.goSlots ++ [(c.sched.decided, x.burst.tag)] else x.goSlots }

/-- A burst slot is due by the engine's own pace, or by the buck's message on a member (R392). -/
def Chip.burstSlotDue (c : Chip) (first : Bool) : Bool :=
  if c.herd.role == .member then
    c.sched.slotAt == c.now && c.cal.slotAt != c.now && (c.sched.burst.map (·.1)) == some c.ownId
  else
    !c.w.clockFault && c.sched.decidedAt != c.now && (c.herd.role == .standalone || c.herd.role == .buck) &&
    (c.sched.mode == .idle || (c.sched.mode == .armed && c.sched.armedAt == c.now)) &&
    (first || c.cal.slotAt + tMinOf c.burstKhz ≤ c.now)

/-- A burst slot fires, by the engine or with the buck's message. -/
def Chip.fireBurst (c : Chip) : Chip :=
  let t := c.cal.step
  let c1 := if c.herd.role == .member then c
    else c.fireIdle (some ((t.map (·.moduleId)).getD 0, c.cal.die, c.cal.beam, c.burstCode))
  c1.countBurst

/-- A burst is discarded (R393): the step resumes with it at the next window. -/
def Chip.discard (c : Chip) (reason : Nat) : Chip :=
  let c1 := (c.bump .w F.CAL_DISCARD_COUNT_count).raise .w 233
  c1.onCal fun x => { x.dropBurst with phase := .waiting, spent := true, lastDiscard := reason }

/-- A step that resumes at the next window; a chain check that runs goes on (R389). -/
def Cal.spend (x : Cal) : Cal :=
  { x with phase := (match x.phase with | .chainZero => .chainZero | .chainRef => .chainRef | _ => .waiting), spent := true }

/-- A GO slot of an earlier burst was not confirmed: that burst is discarded after all, and its beam is measured again. -/
def Chip.lateEcho (c : Chip) (tag : Nat) : Chip :=
  let c1 := (c.bump .w F.CAL_DISCARD_COUNT_count).raise .w 233
  c1.onCal fun x =>
    let y := { x with lastDiscard := 3, goSlots := x.goSlots.filter (·.2 != tag) }
    match x.step with
    | none => y
    | some t =>
      if tag = 128 || t.left.head? == some (tag / 2) then y.spend
      else if t.left.contains (tag / 2) then y
      else { y with step := some { t with left := (t.left.filter (· < tag / 2)) ++ [tag / 2] ++ t.left.filter (tag / 2 < ·) } }

/-- What echoes have found unconfirmed is judged. -/
def Chip.judgeBadEchoes (c : Chip) : Chip :=
  let bad := c.cal.badEcho
  let c1 := c.onCal fun x => { x with badEcho := [] }
  c1.forEach bad fun c slot =>
    match c.cal.goSlots.find? (·.1 == slot) with
    | none => c
    | some g =>
      if g.2 = c.cal.burst.tag && (c.cal.phase == .slots || c.cal.phase == .span) then
        c.onCal fun x => { x with echoHit := true, goSlots := x.goSlots.filter (·.1 != slot) }
      else c.lateEcho g.2

/-! ### Results (R396 to R398) -/

/-- A value as a signed 32-bit word; one that does not fit is open. -/
def Chip.fit32 (c : Chip) (v : Int) : Nat × Chip :=
  if -(2 ^ 31) ≤ v && v < 2 ^ 31 then (toBits 32 v, c) else c.freshBelow (2 ^ 32)

/-- The figures of R396, as far as the formulas give them. -/
structure BeamFigures where
  current : Int
  loss : Option Int
  gain : Option Int
  resid : Option Int
  deriving DecidableEq, Repr

/-- R396, from the two net charges. -/
def figuresOf (codeLo codeHi W p0 iRef gainRef : Nat) (qLo qHi : Int) : Option BeamFigures :=
  let dt : Int := ((codeHi - codeLo) * W * 1000 / 63 : Nat)
  if dt = 0 then none
  else
    let I := roundDiv ((qHi - qLo) * 1000000) dt
    let tLo : Int := (codeLo * W * 1000 / 63 : Nat)
    if I = 0 then some ⟨0, none, none, none⟩
    else
      let s : Int := if I < 0 then -1 else 1
      let q (num : Int) : Int := roundDiv (s * num) (s * I)
      let loss := (p0 : Int) * 1000 + tLo - q (qLo * 1000000)
      let gain := q ((gainRef : Int) * iRef)
      let ref : Int := (iRef : Int) * gainRef
      some ⟨I, some loss, some gain, if ref = 0 then none else some (roundDiv ((I * gain - ref) * 1000000) ref)⟩

/-- Hours since a tick. -/
def Chip.hoursSince (c : Chip) (t : Nat) : Nat := (c.now - t) / (3600 * sTicks)

/-- A result is traced (R390). -/
def Chip.traced (c : Chip) : Bool :=
  match c.cal.passAt with
  | some t => c.cal.pass && c.hoursSince t < max 1 (c.fld .w F.CAL_LIMITS_chain_max_h)
  | none => false

/-- Status of a result (R396). -/
def Chip.resultStatus (c : Chip) (f : BeamFigures) : Nat :=
  if f.current < c.fld .w F.CAL_DEAD_FA_dead_fa || f.current ≤ 0 then 1
  else if !(f.gain.any fun g => 1 ≤ g && g ≤ 255) then 2
  else if !(f.resid.any fun r => r.natAbs ≤ c.fld .w F.CAL_LIMITS_resid_max * 100) then 3
  else if !c.traced then 4 else 0

/-- A result is written into the beam's shadow trim entry (R397): the map check runs again. -/
def Chip.applyResult (c : Chip) (h : HeldResult) : Chip :=
  ((c.setTbl h.die (0x880000 + 4 * h.beam) (word (h.gain + 2 ^ 8 * h.prime))).restartMapCheck h.die).whenB h.shown
    (·.put .w (F.CAL_RESULT_applied.at h.pos) 1)

/-- The result of a measured beam (R396). Figures that the formulas do not give, or that do not fit, are open. One that is
applied is written at the end of the tick, unless a swap is armed by then (R397, R403). The trim of another herd member's beam is that member's (log entry 50). -/
def Chip.storeResult (c : Chip) (t : CalStep) (pos : Nat) (qLo qHi : Int) : Chip :=
  let d := t.die
  let b := (beamsOfCell t.cell).getD pos 0
  let f? := figuresOf (c.fld .w F.CAL_BURST_code_lo) (c.fld .w F.CAL_BURST_code_hi) (c.act d F.MAP_WINDOW_window_ns)
    (primeIn d ((c.die d).tableCopy true) b) (c.fld .w F.CAL_TARGET_i_ref_fa) (c.fld .w F.CAL_GAIN_REF_gain_ref) qLo qHi
  let r := c.fresh
  let f := f?.getD ⟨toSigned 32 r.1, none, none, none⟩
  let c0 := if f?.isNone then r.2 else c
  let status := c0.resultStatus f
  let i := c0.fit32 f.current
  let l := match f.loss with | some v => i.2.fit32 v | none => i.2.freshBelow (2 ^ 32)
  let e' := match f.resid with | some v => l.2.fit32 v | none => l.2.freshBelow (2 ^ 32)
  let g := match f.gain with
    | some v => if 0 ≤ v && v ≤ 255 then (v.toNat, e'.2) else e'.2.freshBelow 256
    | none => e'.2.freshBelow 256
  let prime := match f.loss with
    | some v => ((clampI 0 7 (roundDiv v 1000)).toNat, g.2)
    | none => g.2.freshBelow 8
  let c1 := prime.2.puts .w [(F.CAL_RESULT_gain_new.at pos, g.1), (F.CAL_RESULT_prime_new.at pos, prime.1),
    (F.CAL_RESULT_status.at pos, status), (F.CAL_RESULT_applied.at pos, 0), (F.CAL_RESULT_chain_seq.at pos, c.cal.chainSeq),
    (F.CAL_RESULT_1_i_fa.at pos, i.1), (F.CAL_RESULT_2_loss_ps.at pos, l.1), (F.CAL_RESULT_3_resid_ppm.at pos, e'.1)]
  let c2 := if status = 1 || status = 2 || status = 3 then c1.raise .w 236 else c1
  if status ≠ 0 || !c.flag .w F.CAL_CTRL_apply || t.moduleId ≠ c.ownId then c2
  else c2.onCal fun x => { x with held := x.held ++ [⟨pos, d, b, g.1, prime.1, true⟩] }

/-- Held results are written once no swap is armed, in position order (R397). -/
def Chip.writeHeld (c : Chip) : Chip :=
  if c.swapArmed || c.cal.held.isEmpty then c
  else
    let hs := (List.range 64).flatMap fun p => c.cal.held.filter (·.pos == p)
    (c.forEach hs fun c h => c.applyResult h).onCal fun x => { x with held := [] }

/-- The background of a window and the open estimate (R398). An estimate that the formula does not give is open. -/
def Chip.storeBackground (c : Chip) (d : DieId) (q : Int) : Chip :=
  let qGray : Int := (c.fld .w F.CAL_TARGET_i_ref_fa * c.act d F.MAP_WINDOW_window_ns * 256 *
    c.fld .w F.CAL_GAIN_REF_gain_ref / (63 * 16384 * 1000) : Nat)
  let den : Int := c.activeLimit * qGray
  let bg := toSigned 32 (c.fld .w F.CAL_BG_REF_bg_ref)
  let est := if den = 0 then c.freshBelow 65536
    else ((clampI 0 65535 (roundDiv (256 * (q - bg) * c.burstKhz) den)).toNat, c)
  let w := est.2.fit32 q
  w.2.puts .w [(F.CAL_CELL_RESULT_q_bg, w.1), (F.CAL_CELL_RESULT_1_open_dose, est.1)]

/-- The next burst of the step, after its gap. -/
def Chip.nextBurst (c : Chip) (k : BurstKind) : Chip := c.onCal fun x => { x.begin .gap c.now with burst := k }

/-- A burst's span ends (R393, R395). -/
def Chip.burstEnds (c : Chip) : Chip :=
  let x := c.cal
  let Q := chargeOf x.sum x.count x.n x.z (fullScale x.range) x.kChain
  match x.step with
  | none => c.onCal fun x => { x with phase := .idle }
  | some t =>
    if x.clipped then c.discard 1
    else if x.gateHit then c.discard 2
    else if x.echoHit then c.discard 3
    else match x.burst with
    | .background =>
      ((c.storeBackground t.die Q).onCal fun x => { x with step := some { t with qBg := Q } }).nextBurst
        (.beam (t.left.headD 0) false)
    | .beam p false => (c.onCal fun x => { x with step := some { t with qLo := Q - t.qBg } }).nextBurst (.beam p true)
    | .beam p true =>
      let left := t.left.filter (· != p)
      let c1 := (c.storeResult t p t.qLo (Q - t.qBg)).onCal fun x => { x with step := some { t with left := left } }
      match left with
      | [] => c1.endStep
      | q :: _ => c1.nextBurst (.beam q false)

/-! ### Chain checks (R389) -/

/-- A chain check ends. -/
def Chip.endChain (c : Chip) : Chip :=
  let x := c.cal
  let raw := currentOf x.sum x.count x.z (fullScale x.range) 65536
  let ref : Int := c.act .w F.CAL_REF_FA_ref_fa
  let s : Int := if raw < 0 then -1 else 1
  let k := if raw = 0 then 0 else roundDiv (s * 65536 * ref) (s * raw)
  let tol := c.fld .w F.CAL_LIMITS_chain_tol_ppm
  let pass := !x.clipped && raw ≠ 0 && (k - 65536).natAbs * 1000000 ≤ 65536 * tol
  let c1 := c.onCal fun x => { x with
    phase := if x.step.isSome then .waiting else .idle, pass := pass, clip := x.clipped
    kChain := if pass then k.toNat else x.kChain
    chainSeq := if pass then (x.chainSeq + 1) % 65536 else x.chainSeq
    passAt := if pass then some c.now else x.passAt }
  (if pass then c1 else c1.raise .w 235).raise .w 234

/-! ### Capture (R402) -/

/-- The capture ring: base and size in bytes; size 0 where it does not lie in the die's DRAM. -/
def Chip.captureRing (c : Chip) : Nat × Nat :=
  let b := c.fld .w F.CAL_CAP_BASE_base_64k
  let n := c.fld .w F.CAL_CAP_SIZE_size_64k
  if b + n ≤ 524160 then (65536 * b, 65536 * n) else (65536 * b, 0)

/-- A sample enters the on-die capture buffer, or is dropped by a full one. -/
def Chip.capture (c : Chip) (v : Int) : Chip :=
  if !c.flag .w F.CAL_CTRL_capture_en || c.captureRing.2 = 0 then c
  else if c.cal.capture.length < 32768 then c.onCal fun x => { x with capture := x.capture ++ [toBits 16 v] }
  else c.bump .w F.CAL_STATUS_cap_lost

/-- A line of the ring cannot be written yet: its page is being copied, an older read of it waits, or its channel has no room
(R281, R297). -/
def Chip.captureWaits (c : Chip) (at' : Nat) : Bool :=
  let x := c.w.dram
  x.copying at' || x.readWaits (fun a => a / 64 == at' / 64) || x.room (channelOf at') == 0

/-- A line of samples is written into the ring, when there is one and the capture client has budget. -/
def State.writeCapture (s : State) : State :=
  let c := s.chip
  let ring := c.captureRing
  if c.cal.capture.length < 32 || ring.2 = 0 || !c.w.dram.active then s
  else if c.stalls .w 3 then s.onChip (·.stallRead .w 3)
  else if c.captureWaits (ring.1 + c.cal.capPos % ring.2) then s
  else
    let at' := ring.1 + c.cal.capPos % ring.2
    let s1 := s.onChip fun c => c.serve .w 3 (c.w.dram.physical at')
    let s2 := (List.range 8).foldl (fun s i =>
      s.writeWord .w (at' + 8 * i)
        ⟨ofLe ((c.cal.capture.drop (4 * i)).take 4 |>.flatMap (leBytes 2)), 0⟩) s1
    s2.onChip (·.onCal fun x => { x with capture := x.capture.drop 32, capPos := (x.capPos + 64) % ring.2 })

/-! ### The engine in a tick -/

/-- A gate is closed while a burst slot lasts: the burst is noted (R393). -/
def Chip.watchGates (c : Chip) : Chip :=
  if (c.cal.phase == .slots || (c.cal.phase == .span && c.now < c.cal.slotAt + tMinOf c.burstKhz)) &&
    c.dies.any (fun d => !(c.die d).ilk.gateOpen)
  then c.onCal fun x => { x with gateHit := true }
  else c

/-- What the calibration engine does at the end of a tick of its own accord (R389, R393, R395, R397, CAL_ADC). A chain check
that may run no longer waits until it may again, and starts anew (DEDUCED, log entry 71). -/
def Chip.calTick (c : Chip) : Chip :=
  let c1 := c.judgeBadEchoes.writeHeld.watchGates
  let open' := c1.sched.calOpen
  let idle := c1.sched.mode == .idle
  let c2 := if open' then c1 else c1.onCal fun x => { x with spent := false }
  let x := c2.cal
  match x.phase with
  | .slots =>
    if !open' then c2.discard 4 else if !idle then c2.discard 5 else c2
  | .span => if idle then c2 else c2.discard 5
  | .gap | .zero => if !open' || !idle then c2.onCal fun x => { x with phase := .waiting } else c2
  | .waiting =>
    if x.step.isNone then c2.onCal fun x => { x with phase := .idle }
    else if open' && idle && !x.spent && c2.flag .w F.CAL_CTRL_en then c2.onCal fun x => x.begin .zero c2.now
    else c2
  | .idle => c2.onCal fun x => { x with range := c2.fld .w F.CAL_ADC_range }
  | .chainZero | .chainRef =>
    if c2.chainMayRun then c2
    else c2.onCal fun x => { x with chainWanted := true, phase := if x.step.isSome then .waiting else .idle }

/-! ### Lane recalibration (R399) -/

/-- Change a die's lane recalibration. -/
def Chip.onLaneCal (c : Chip) (d : DieId) (f : LaneCal → LaneCal) : Chip :=
  c.onDie d fun x => { x with laneCal := f x.laneCal }

/-- The lane is skipped: the next takes its turn. -/
def Chip.skipLane (c : Chip) (d : DieId) : Chip :=
  c.onLaneCal d fun x => { x with outcome := 2, yielded := false, next := c.nextTurn d x.next }

/-- The recalibration of the lane whose turn has fallen starts; Grist lanes follow only while grist_en is 1. A lane that has
yielded waits while its group's spare is not free (R399, R400). -/
def Chip.startRecal (c0 : Chip) (d : DieId) : Chip :=
  let c := c0.whenB (68 ≤ (c0.die d).laneCal.next && !c0.flag d F.CAL_LANE_CTRL_grist_en) (·.onLaneCal d fun y => { y with next := 0 })
  let l := (c.die d).laneCal.next
  let x := (c.die d).blnk
  let busy (c : Chip) : Chip := c.onLaneCal d fun y => { y with busy := true, due := false, yielded := false }
  if 68 ≤ l then
    if (c.die d).gr.training.any (·.lane == l - 68) || ((c.die d).gr.phy (l - 68)).failed then c.skipLane d
    else busy (c.startGrTrain d (l - 68) true (some 4))
  else if c.retrainsNow d l then (busy c).onLaneCal d fun y => { y with counts := true }
  else if (x.phy l).failed || x.trains l then c.skipLane d
  else match x.carried l with
  | some lam =>
    if isSpare l then c.skipLane d
    else if x.spareFree (groupOf l) then busy (c.startHandover d lam (spareLane (groupOf l)) (some true) false)
    else if (c.die d).laneCal.yielded then c
    else c.skipLane d
  | none => if isSpare l && x.spareFree (groupOf l) then busy (c.startTraining d l none false true) else c.skipLane d

/-- At the end of a tick: a lane that R247 retrains as its turn falls has that as its recalibration (R403). -/
def Chip.judgeRecal (c : Chip) (d : DieId) : Chip :=
  let y := (c.die d).laneCal
  if y.due && !y.busy && y.dueAt == c.now && y.next < 68 && c.retrainsNow d y.next then
    c.onLaneCal d fun y => { y with busy := true, due := false, yielded := false, counts := true }
  else c

/-! ### Meanings -/

/-- CHAIN_CHECK_REQUEST (R389). -/
def execChainCheckRequest (_m : Master) (v : Word) (s : State) : Res :=
  s.nextBus fun c => c.writeCalCtrl (v ||| 8)

/-- CHAIN_CHECK_START (R389, R403): not while a burst runs. -/
def execChainCheckStart (s : State) : Res :=
  s.nextChip fun c =>
    let p := c.cal.phase
    if c.cal.chainWanted && c.flag .w F.CAL_CTRL_en && c.chainMayRun && (p == .idle || p == .waiting || p == .gap) then
      c.onCal fun x => { x.begin .chainZero c.now with
        chainWanted := false, range := if x.step.isSome then x.range else c.fld .w F.CAL_ADC_range }
    else c

/-- CHAIN_CHECK_COMPLETE (R389). -/
def execChainCheckComplete (s : State) : Res :=
  s.nextChip fun c => if c.cal.phase == .chainRef && zeroSamples ≤ c.cal.count then c.endChain else c

/-- CAL_STEP_GO (R395). -/
def execCalStepGo (_m : Master) (v : Word) (s : State) : Res :=
  s.nextBus fun c => c.writeCalCtrl (v ||| 16)

/-- CAL_ABORT (R395). -/
def execCalAbort (_m : Master) (v : Word) (s : State) : Res :=
  s.nextBus fun c => c.writeCalCtrl (v ||| 32)

/-- CAL_ZERO_COMPLETE (R388): a clipped zero measurement is taken again. -/
def execCalZeroComplete (s : State) : Res :=
  s.nextChip fun c =>
    let x := c.cal
    if x.count < zeroSamples then c
    else match x.phase with
    | .zero =>
      if x.clipped then c.onCal fun x => x.begin .zero c.now
      else (c.onCal fun x => { x with z := zeroOf x.sum }).nextBurst .background
    | .chainZero =>
      if x.clipped then c.onCal fun x => x.begin .chainZero c.now
      else c.onCal fun x => { x.begin .chainRef c.now with z := zeroOf x.sum }
    | .idle | .waiting | .gap | .slots | .span | .chainRef => c

/-- CAL_BURST_START (R392): 20 µs after the gap began, the first slot fires. -/
def execCalBurstStart (s : State) : Res :=
  s.nextChip fun c =>
    if c.cal.phase == .gap && 20 * usTicks ≤ c.now - c.cal.phaseAt && c.flag .w F.CAL_CTRL_en && c.sched.calOpen &&
      c.burstSlotDue true
    then
      let c1 := c.onCal fun x => { x.begin .slots x.phaseAt with
        n := c.burstSlots, fired := 0, gateHit := false, echoHit := false
        goSlots := x.goSlots.filter (·.2 != x.burst.tag) }
      c1.fireBurst
    else c

/-- CAL_BURST_SLOT (R392): the next slot of the burst, at its pace. -/
def execCalBurstSlot (s : State) : Res :=
  s.nextChip fun c => if c.cal.phase == .slots && c.burstSlotDue false then c.fireBurst else c

/-- CAL_BURST_COMPLETE (R393): 5 µs after the last slot. -/
def execCalBurstComplete (s : State) : Res :=
  s.nextChip fun c => if c.cal.phase == .span && 5 * usTicks ≤ c.now - c.cal.slotAt then c.burstEnds else c

/-- LANE_RECAL_TURN (R399): period_h hours after the previous recalibration ended. -/
def execLaneRecalTurn (d : DieId) (s : State) : Res :=
  s.nextChip fun c =>
    let x := (c.die d).laneCal
    if c.hasDie d && c.flag d F.CAL_LANE_CTRL_en && !x.busy && !x.due &&
      max 1 (c.fld d F.CAL_LANE_CTRL_period_h) * 3600 * sTicks ≤ c.now - x.endedAt
    then c.onLaneCal d fun y => { y with due := true, dueAt := c.now }
    else c

/-- LANE_RECAL_START (R399): at the opening of a turnaround window, or at once while the scheduler is idle. -/
def execLaneRecalStart (d : DieId) (s : State) : Res :=
  s.nextChip fun c =>
    let x := (c.die d).laneCal
    if c.hasDie d && c.flag d F.CAL_LANE_CTRL_en && !x.busy && x.due &&
      ((c.sched.mode == .idle && !x.yielded) || c.sched.turnAt == some c.now)
    then c.startRecal d
    else c

/-- CAL_ADC_SAMPLE (R387, R402): one in every 1,000 core ticks. -/
def execCalAdcSample (v : Int) (s : State) : Res :=
  s.nextAll fun s =>
    if s.chip.cal.samples < s.chip.now / 1000 then
      let v := toSigned 16 (toBits 16 v)
      (s.onChip fun c => ((c.onCal fun x => { x.take c.now v with samples := c.now / 1000 }).capture v)).writeCapture
    else s

end Sys2Proof.Machine
end

