-- ==== Sys2Proof/Machine/Pwr.lean ====
section
/-! DEFINITION. The supply and thermal monitor (chapter 17, R418 to R430), and the module reset (R361). Its registers are
those of die W, which stand for the module; only PWR_TEMP_DIE is each die's own. -/

namespace Sys2Proof.Machine

/-- Change the monitor's state. -/
def Chip.onPwr (c : Chip) (f : Pwr → Pwr) : Chip := { c with pwr := f c.pwr }

/-- The register words that a module reset keeps: PWR_LAST_RESET and PWR_FAULT_COUNT. -/
def keptRegs (x : Die) : List (Nat × Word) := x.regs.filter fun p => 0x150018 ≤ p.1 && p.1 ≤ 0x150020

/-- A program or erase that a reset cuts short leaves the bytes it worked on open, and an image that they are of invalid (R429). -/
def Chip.tornFlash (c : Chip) : Chip :=
  match c.cfg.flashOp with
  | none => c
  | some o =>
    if o.op = 1 then c
    else
      let c1 := c.openFlash o.device o.addr o.extent
      { c1 with nv := { c1.nv with torn := (o.device, o.addr, o.extent) :: c1.nv.torn } }

/-- A module reset (R361): every block of both dies takes its reset state. The flash devices and boot counter, the failed
maintenance attempts, the two PWR registers, the supply's own state and the herd straps are kept; `missed` boot deadlines
in a row and the image that the next boot must use are R342's. The module is held until its reset is released. -/
def Chip.moduleReset (c : Chip) (missed : Nat) (force : Option Bool) : Chip :=
  let r := Chip.reset c.variant
  { r with
    now := c.now
    nv := c.tornFlash.nv
    out := c.out
    free := c.tornFlash.free
    herd := { r.herd with addr := c.herd.addr }
    cfg := { r.cfg with failCount := c.cfg.failCount, missed := missed, forceImage := force }
    pwr := { c.pwr with
      fault := none, vinWarn := false, powerWarn := false, railLow := false, warnW := false, warnE := false, warnBase := false
      seen := [] }
    w := { r.w with regs := keptRegs c.w } }

/-- The image that CFG_BOOT_SEL.next names for one boot (R341). -/
def Chip.bootSel (c : Chip) : Option Bool :=
  match c.fld .w F.CFG_BOOT_SEL_next with
  | 1 => some false
  | 2 => some true
  | _ => none

/-- PWR_LAST_RESET is loaded: the cause, the VIN last read, and the slot number. -/
def Chip.noteReset (c : Chip) (why : Nat) : Chip :=
  c.puts .w [(F.PWR_LAST_RESET_why, why), (F.PWR_LAST_RESET_vin_min_dv, c.fld .w F.PWR_VIN_vin_dv),
    (F.PWR_LAST_RESET_1_slot_low, c.sched.slot)]

/-- A supply fault (`why` 1 to 4), thermal trip (5) or sensor fault (6) is detected (R420, R423). A condition that has been
detected already is not detected anew. One reset follows, 50 µs after the first; PWR_LAST_RESET records the first supply fault, or
without one the first trip (R429; of two supply faults DESIGN CHOICE, log entry 70). A module that is held in reset has no event
and no gate to act on: R344 resets every block at release. -/
def Chip.detect (c : Chip) (why : Nat) : Chip :=
  let thermal := 5 ≤ why
  let old := c.pwr.fault.map (·.2)
  let known := if c.running then c.pwr.seen.contains why else thermal && c.pwr.hot
  let c1 := (c.onPwr fun p => { p with good := p.good && thermal, hot := p.hot || thermal }).bump .w
    (if thermal then F.PWR_FAULT_COUNT_thermal else F.PWR_FAULT_COUNT_supply)
  if known then c
  else if !c.running then c1.noteReset why
  else
    let first := old.isNone || (!thermal && old.any (5 ≤ ·))
    let c2 := c1.onPwr fun p => { p with
      seen := p.seen ++ [why], fault := some ((p.fault.map (·.1)).getD c.now, if first then why else old.getD why) }
    let c3 := if first then c2.noteReset why else c2
    (c3.forEach c3.dies fun c d => c.forceGate d).raise .w (if thermal then 243 else 241)

/-! ### Temperatures (R422, R423), in 0.5 °C -/

/-- Key of a temperature sensor in `Pwr.temps`. -/
def sensorKey : Sensor → Option Nat
  | .junction .w i => if i < 32 then some i else none
  | .junction .e i => if i < 32 then some (32 + i) else none
  | .base => some 64
  | .dram => some 65
  | _ => none

/-- The junction readings of a die: sensor and value. -/
def Chip.junctions (c : Chip) (d : DieId) : List (Nat × Int) :=
  let lo := match d with
    | .w => 0
    | .e => 32
  (c.pwr.temps.filter fun p => lo ≤ p.1 && p.1 < lo + 32).map fun p => (p.1 - lo, p.2)

/-- The hottest junction sensor of a die, the lowest of equals. -/
def hottest : List (Nat × Int) → Option (Nat × Int)
  | [] => none
  | p :: l => match hottest l with
    | none => some p
    | some q => if p.2 < q.2 then some q else some p

/-- A junction of a die is at or above warn_junction (source 242). -/
def Chip.junctionWarns (c : Chip) (d : DieId) : Bool :=
  (c.junctions d).any fun p => 2 * (c.fld .w F.PWR_THERM_CFG_warn_junction : Int) ≤ p.2

/-- The base is below -40 °C or above 125 °C (source 244). -/
def Chip.baseWarns (c : Chip) : Bool :=
  match c.pwr.temps.find? (·.1 == 64) with
  | some p => p.2 < -80 || 250 < p.2
  | none => false

/-- A junction or base warning holds (PWR_STATUS.therm_warn). -/
def Chip.thermWarn (c : Chip) : Bool := c.dies.any c.junctionWarns || c.baseWarns

/-- The registers of a temperature. -/
def Chip.noteTemp (c : Chip) (s : Sensor) (v : Int) : Chip :=
  match s with
  | .junction d _ =>
    match hottest (c.junctions d) with
    | none => c
    | some (i, t) =>
      let f := F.PWR_TEMP_DIE_junction_peak
      (c.puts d [(F.PWR_TEMP_DIE_junction_max, toBits 11 t), (F.PWR_TEMP_DIE_hot_sensor, i)]).onDie d fun x =>
        (x.put f (toBits 11 (max (toSigned 11 (x.fld f)) t))).noteNow f (toBits 11 (max (toSigned 11 (x.added f)) t))
  | .base => c.put .w F.PWR_TEMP_BASE_base (toBits 11 v)
  | .dram => c.put .w F.PWR_TEMP_BASE_dram_max (toBits 11 v)
  | _ => c

/-- The base's cooling after a trip: below 115 °C for 10 s (R423). -/
def Pwr.cool (p : Pwr) (now : Nat) (v : Int) : Pwr :=
  if v < 230 then
    let since := p.coolSince.getD now
    { p with coolSince := some since, hot := p.hot && now - since < 10 * sTicks }
  else { p with coolSince := none }

/-- Warnings that begin are raised (R422): junctions of each die, and the base. -/
def Chip.judgeWarns (c : Chip) : Chip :=
  let w := c.junctionWarns .w
  let e := c.hasDie .e && c.junctionWarns .e
  let b := c.baseWarns
  let c1 := c.onPwr fun p => { p with warnW := w, warnE := e, warnBase := b }
  ((c1.whenB (w && !c.pwr.warnW) (·.raise .w 242)).whenB (e && !c.pwr.warnE) (·.raise .e 242)).whenB (b && !c.pwr.warnBase)
    (·.raise .w 244)

/-- A temperature is read: its register, the warnings that begin, and the trip (`why`) at 160 °C or 135 °C. -/
def Chip.readTemp (c : Chip) (s : Sensor) (k : Nat) (v : Int) (why : Nat) : Chip :=
  let c1 := c.onPwr fun p =>
    let q := { p with temps := smInsert k v p.temps }
    if k = 64 then q.cool c.now v else q
  let c2 := if c.running then (c1.noteTemp s v).judgeWarns else c1
  match s with
  | .junction _ _ => if 320 ≤ v then c2.detect why else c2
  | .base => if 270 ≤ v then c2.detect why else c2
  | _ => c2

/-! ### Supply (R418, R430) -/

/-- The module power is read, in 0.1 W: its register, its peak, and source 245 when it comes above the limit. -/
def Chip.readPower (c : Chip) (p : Nat) : Chip :=
  let above := 10 * max 1 (c.fld .w F.PWR_THERM_CFG_warn_power_w) < p
  let q := min 65535 p
  let c1 := (c.puts .w [(F.PWR_POWER_power_dw, q), (F.PWR_POWER_peak_dw, max q (c.fld .w F.PWR_POWER_peak_dw))]).onDie .w
    fun x => x.noteNow F.PWR_POWER_peak_dw (max q (x.added F.PWR_POWER_peak_dw))
  (c1.onPwr fun x => { x with powerWarn := above }).whenB (above && !c.pwr.powerWarn) (·.raise .w 245)

/-- VIN is read, in 0.1 V; its lowest value since a fault was detected is kept for PWR_LAST_RESET. -/
def Chip.noteVin (c : Chip) (dv : Nat) : Chip :=
  let v := min 65535 dv
  (c.put .w F.PWR_VIN_vin_dv v).whenB c.pwr.fault.isSome fun c =>
    c.put .w F.PWR_LAST_RESET_vin_min_dv (min v (c.fld .w F.PWR_LAST_RESET_vin_min_dv))

/-- VIN lies within the specified range, 36.0 to 75.0 V. -/
def vinInRange (dv : Nat) : Bool := 360 ≤ dv && dv ≤ 750

/-- SENSOR_READ (R423). While the module is held in reset the monitor still reads, and no register changes. -/
def Chip.readSensor (c : Chip) (s : Sensor) (v : Int) : Chip :=
  match s with
  | .vin => if c.running then
      (c.noteVin v.toNat).onPwr fun p => { p with vinWarn := p.vinWarn && !vinInRange v.toNat }
    else c
  | .iin => if c.running then c.put .w F.PWR_VIN_iin_ma (min 65535 v.toNat) else c
  | .power => if c.running then c.readPower v.toNat else c
  | .junction d _ => match sensorKey s with
    | some k => if c.hasDie d then c.readTemp s k v 5 else c
    | none => c
  | _ => match sensorKey s with
    | some k => c.readTemp s k v 5
    | none => c

/-- PWR_STATUS but for its W1C bit. -/
def Chip.pwrStatus (c : Chip) : Nat :=
  b2n c.pwr.good + 2 * b2n c.pwr.vinWarn + 4 * b2n c.thermWarn + 8 * b2n c.pwr.powerWarn + 16 * b2n c.pwr.railLow

/-- Write of PWR_THERM_CFG: warn_junction is held within 100 to 155. -/
def Chip.writeThermCfg (c : Chip) (v : Word) : Chip :=
  (c.puts .w [(F.PWR_THERM_CFG_warn_junction, max 100 (min 155 (bits v 7 0))), (F.PWR_THERM_CFG_warn_power_w, bits v 25 16)]).judgeWarns

/-! ### Commands -/

/-- POWER_ON (R427): the monitor starts from cold; what only power-on clears is cleared, and supply good is awaited. -/
def execPowerOn (s : State) : Res :=
  s.nextSupply fun c =>
    if c.running then c
    else
      let c1 := c.moduleReset 0 none
      { c1 with cfg := { c1.cfg with failCount := 0 }, w := { c1.w with regs := [] },
                pwr := { Pwr.reset with good := false, noClockW := c.pwr.noClockW, noClockE := c.pwr.noClockE } }

/-- SUPPLY_GOOD (R418). -/
def execSupplyGood (s : State) : Res :=
  s.nextSupply fun c => if c.running then c else c.onPwr fun p => { p with good := true }

/-- SENSOR_READ (R423). -/
def execSensorRead (x : Sensor) (v : Int) (s : State) : Res := s.nextSupply (·.readSensor x v)

/-- SENSOR_FAULT (R423): a sensor has reported no value for 100 µs: source 247, and it is treated as reading its trip value. Only
the junction and base sensors have one. -/
def execSensorFault (x : Sensor) (silent : Nat) (s : State) : Res :=
  s.nextSupply fun c =>
    let d := match x with
      | .junction d _ => d
      | _ => .w
    if !c.hasDie d || silent < 100 * usTicks then c
    else
      let c1 := if c.running then (c.setBit .w F.PWR_STATUS_sensor_fault).raise d 247 else c
      match x, sensorKey x with
      | .junction _ _, some k => c1.readTemp x k 320 6
      | .base, some k => c1.readTemp x k 270 6
      | _, _ => c1

/-- SUPPLY_WARNING (R418): VIN has been out of range for 10 µs; source 240 when a warning begins. -/
def execSupplyWarning (vin held : Nat) (s : State) : Res :=
  s.nextSupply fun c =>
    if !c.running || vinInRange vin || held < 10 * usTicks then c
    else
      ((c.noteVin vin).onPwr fun p => { p with vinWarn := true }).whenB (!c.pwr.vinWarn)
        (·.raise .w 240)

/-- A condition of R418 that is a supply fault, by its value (0.1 V, mA, or ‰ of a rail's set value) and for how long it has
held. The undervoltage and overvoltage thresholds of a module lie within 0.5 V of those of the table (log entry 70). -/
def supplyFaultHolds (why value held : Nat) : Bool :=
  match why with
  | 1 => value < 335 && 10 * usTicks ≤ held
  | 2 => 775 < value && 10 * usTicks ≤ held
  | 3 => 15000 < value && msTicks ≤ held
  | 4 => 50 < value && 2 * usTicks ≤ held
  | _ => false

/-- SUPPLY_FAULT (R418, R420). -/
def execSupplyFault (why value held : Nat) (s : State) : Res :=
  s.nextSupply fun c => if supplyFaultHolds why value held then c.detect why else c

/-- SUPPLY_FAULT_RESET (R420): 50 µs after detection, whether or not VIN has recovered. -/
def execSupplyFaultReset (s : State) : Res :=
  s.nextSupply fun c =>
    match c.pwr.fault with
    | none => c
    | some (t, _) =>
      if c.sinceTick t < 50 * usTicks then c
      else c.moduleReset 0 c.bootSel

/-- RAIL_MARGIN_LOW (R430): the rail that is furthest off has stood `dev` ‰ from its set value. Source 246 when it has been
more than 3 % off for 10 µs, and no more than the 5 % of a rail fault. -/
def execRailMarginLow (dev held : Nat) (s : State) : Res :=
  s.nextSupply fun c =>
    if !c.running then c
    else if dev ≤ 30 then c.onPwr fun p => { p with railLow := false }
    else if 50 < dev || held < 10 * usTicks then c
    else (c.onPwr fun p => { p with railLow := true }).whenB (!c.pwr.railLow) (·.raise .w 246)

/-- POWER_ABOVE_LIMIT (R430). -/
def execPowerAboveLimit (power : Nat) (s : State) : Res :=
  s.nextSupply fun c => if c.running then c.readPower power else c

/-- MODULE_RESET (R361): a module reset takes place, by the supply monitor; its cause stands in PWR_LAST_RESET. -/
def execModuleReset (s : State) : Res := s.nextSupply fun c => c.moduleReset 0 c.bootSel

/-- RESET_COMMAND (R361): CFG_RESET.module = 1. -/
def execResetCommand (_m : Master) (s : State) : Res :=
  s.nextChip fun c => (c.noteReset 7).moduleReset 0 c.bootSel

end Sys2Proof.Machine
end

