-- ==== Sys2Proof/Machine/Live.lean ====
section
/-! DEFINITION. What every read-only field reads that is computed from the state: one function per block, each giving the
word of those fields at an offset (the register chapters). Stored fields are in `Die.regs`. -/

namespace Sys2Proof.Machine

/-! ### Codes -/

/-- CFG_STATUS.stage. -/
def Stage.code : Stage → Nat
  | .held => 0 | .image => 1 | .dram => 2 | .configuration => 3 | .lanes => 4 | .ready => 5 | .recovery => 6

/-- CFG_MC_CTRL_c.state. -/
def McState.code : McState → Nat
  | .running => 0 | .stopped => 1 | .reloading => 2

/-- CFG_LOCK_STATUS.state. -/
def Maint.code : Maint → Nat
  | .boot => 0 | .locked => 1 | .opened => 2 | .lockout => 3

/-- SLOT_POS_STATE_n.state. -/
def ChanState.code : ChanState → Nat
  | .off => 0 | .noLock => 1 | .valid => 2 | .lost => 3 | .invalid => 4

/-- BLNK_STATUS.ho_phase. -/
def HoPhase.code : HoPhase → Nat
  | .wake => 1 | .mirror => 2 | .switch => 3 | .release => 4

/-- Die number of a die. -/
def dieBit : DieId → Nat
  | .w => 0 | .e => 1

/-! ### The herd's unit words (R34, R379) -/

/-- Module m's unit word as the buck sees it. -/
def Chip.memberWord (c : Chip) (m : Nat) : Nat :=
  let expected := nbit ((c.herd.settings.map (·.expected)).getD 0) m
  if m = c.herd.addr then c.moduleWord
  else match c.herd.peer? m with
  | some p => if p.admitted then ((p.status.map fun s => s.unit.toNat).getD 0) else if expected then 8 + 2 ^ 31 else 0
  | none => if expected then 8 + 2 ^ 31 else 0

/-- State, defects, span_pending and fault of a unit word. -/
def unitStateOf (w : Nat) : Nat := w / 2 % 8

/-- The herd word on the buck: every herd member's module word is a child (R33, R34, R379). -/
def Chip.herdWord (c : Chip) (d : DieId) : Nat :=
  let kids := ((List.range 8).map c.memberWord).filter fun w => unitStateOf w ≠ 0
  let states := kids.map unitStateOf
  let defects := (kids.map fun w => w / 256 % 2 ^ 22).sum
  let state := unitState (unitOn (c.die d).activeUnits herdUnit) (states.all fun s => s == 4 || s == 5)
    (!(c.die d).ilk.gateOpen) (0 < defects || states.any fun s => s == 2 || s == 4 || s == 5)
  let x := c.die d
  let pend := kids.any (nbit · 30) || x.topPend.getLsbD 2
  let fault := kids.any (nbit · 31) || x.topFault.getLsbD 2
  state * 2 + defects % 2 ^ 22 * 256 + b2n pend * 2 ^ 30 + b2n fault * 2 ^ 31

/-- On the buck, a herd word whose state becomes failed gets its fault bit (R31, R34). -/
def Chip.judgeHerdWord (c : Chip) : Chip :=
  let failed (d : DieId) : Bool := c.hasDie d && c.herd.role == .buck && unitStateOf (c.herdWord d) == 4
  let w := failed .w && !c.herd.failedW
  let e := failed .e && !c.herd.failedE
  let c1 := c.onHerd fun x => { x with failedW := failed .w, failedE := failed .e }
  (c1.whenB w (·.onDie .w (·.failUnits 0 0 4))).whenB e (·.onDie .e (·.failUnits 0 0 4))

/-! ### Blocks -/

/-- SYS: identity (R6), the Evune link (R28), unit words (R31 to R34). A lane is in use
only while the link is up. -/
def Chip.liveSys (c : Chip) (d : DieId) (off : Nat) : Nat :=
  if off = 0x000000 then 0x4D7 * 2 ^ 20 + c.partCode * 16 + 2
  else if off = 0x000004 then dieBit d + 2 * b2n c.two + 16 * (c.ownId % 8) + 256 * (if c.two then 256 else 128)
  else if off = 0x000010 then
    if !c.two then 0
    else
      let x := c.evune
      let tx := if d = .w then x.maskWE else x.maskEW
      let rx := if d = .w then x.maskEW else x.maskWE
      match x.link with
      | .down => 2 ^ 18 * x.latency
      | .training => 1 + 2 ^ 18 * x.latency
      | .up => (if tx = 255 && rx = 255 then 2 else 3) + 4 * tx + 1024 * rx + 2 ^ 18 * x.latency
  else if 0x004000 ≤ off && off ≤ 0x006084 then c.unitWord d off
  else if off = herdUnit then (if c.herd.role == .buck then c.herdWord d else c.unitWord d moduleUnit)
  else 0

/-- CFG, chapter 13. -/
def Chip.liveCfg (c : Chip) (d : DieId) (off : Nat) : Nat :=
  let g := c.cfg
  let x := c.die d
  let image (i : ImageInfo) (hi : Bool) : Nat := if hi then b2n i.valid + 2 * i.why else i.seq
  if off = 0x010000 then
    g.stage.code + 8 * b2n g.imageB + 16 * b2n g.fallback + 32 * b2n (g.stage == .ready) + 64 * b2n g.measBusy +
      128 * min 511 g.recSkipped + 65536 * (c.nv.bootCount % 65536)
  else if off = 0x010010 then Config.serial.toNat % 2 ^ 32
  else if off = 0x010014 then Config.serial.toNat / 2 ^ 32
  else if off = 0x010020 || off = 0x010024 then image g.imageA (off == 0x010024)
  else if off = 0x010028 || off = 0x01002C then image g.imageBInfo (off == 0x01002C)
  else if off = 0x01010C then
    match g.swap with
    | none => 0
    | some s => if (if d = .w then s.readyW else s.readyE) then 2 else 1
  else if 0x010200 ≤ off && off < 0x010220 then leAt c.measBytes (off - 0x010200) 4
  else if off = 0x010300 then
    g.maint.code + 4 * g.failCount + 64 * b2n g.challengeFresh + 128 * b2n g.verify.isSome +
      256 * (if g.maint == .opened then (g.openUntil - c.now) / sTicks else 0)
  else if 0x010320 ≤ off && off < 0x010340 then leAt g.challenge (off - 0x010320) 4
  else if off = 0x010400 || off = 0x010404 then
    let m := x.mc ((off - 0x010400) / 4)
    8 * m.state.code + 32 * m.cause
  else if off = 0x010508 then b2n g.flashOp.isSome + 2 * b2n g.flashError
  else if off = 0x010600 then x.jlog.count + 512 * x.jlog.wr
  else if off = 0x010604 then x.jlog.rd
  else 0

/-- GRIST and MASH, chapter 2. -/
def Chip.liveGrist (c : Chip) (d : DieId) (off : Nat) : Nat :=
  let g := (c.die d).grist
  if off = 0x020014 then
    g.descs + 512 * (g.stripes.filter fun t => !t.finished).length + 2048 * b2n (g.jobs.any (!·.closing)) +
      4096 * b2n (g.jobs.any (·.closing)) + 8192 * ((g.used + 15) / 16)
  else if off = 0x020018 then ((g.jobs.find? (!·.closing)).map (·.id)).getD 0
  else if off = 0x02001C then g.sentGranted
  else if off = 0x020020 then g.sentDesc
  else if off = 0x020034 then g.used
  else if off = 0x030000 then
    let m := (c.die d).mash
    let blocks := g.stripes.flatMap (·.blocks)
    b2n m.verify.isSome + 2 * b2n m.feed.isSome + 4 * (blocks.filter (·.state == .waiting)).length +
      2048 * (blocks.filter fun b => b.state == .verified || b.state == .feeding).length
  else 0

/-- KILN and TASTE, chapter 3. -/
def Chip.liveKiln (c : Chip) (d : DieId) (off : Nat) : Nat :=
  if off = 0x040004 then
    let n := c.engines d
    let used := c.storeUsed d
    n + 64 * b2n (n < 17) + 128 * b2n (262144 ≤ used) +
      256 * b2n (c.swapArmed && (c.stripes d).any fun t => t.binding.isNone && t.play.isNone && !t.ended) + 512 * used
  else if off = 0x050004 then b2n (c.die d).kiln.suspect
  else if 0x050040 ≤ off && off < 0x0500C0 then (c.die d).kiln.misses ((off - 0x050040) / 4)
  else 0

/-- MAP and CASK, chapters 4 and 5. -/
def Chip.liveMap (c : Chip) (d : DieId) (off : Nat) : Nat :=
  let k := (c.die d).mapCheck
  if off = 0x060010 then b2n k.busy + 2 * b2n k.passed + 4 * k.kind + 256 * k.index
  else if off = 0x060014 then (((c.die d).view.map fun v => v.closed + 2 ^ 18 * v.openBeams)).getD 0
  else if off = 0x060018 then (((c.die d).view.map fun v => v.stripe + 2 ^ 24 * b2n v.exposing)).getD 0
  else if off = 0x07000C then c.caskStatus d
  else if off = 0x070010 then (c.die d).cask.freeGranules
  else 0

/-- SLOT, chapter 6, on the die whose scheduler runs. -/
def Chip.liveSlot (c : Chip) (off : Nat) : Nat :=
  let x := c.sched
  if 0x080020 ≤ off && off < 0x08002C then
    let k := c.chan ((off - 0x080020) / 4)
    k.state.code + 8 * b2n k.lock + 16 * k.status + 256 * k.seq + 4096 * k.track.speed.code + 16384 * b2n k.provisional
  else if 0x080040 ≤ off && off < 0x080070 then
    let k := c.chan ((off - 0x080040) / 16)
    match (off - 0x080040) / 4 % 4 with
    | 0 => k.pos % 2 ^ 32
    | 1 => k.pos / 2 ^ 32
    | 2 => k.stamp % 2 ^ 32
    | _ => k.stamp / 2 ^ 32
  else if 0x080070 ≤ off && off < 0x08007C then
    toBits 32 (clampI (-(2 ^ 31)) (2 ^ 31 - 1) (asr (c.vS ((off - 0x080070) / 4)) 16))
  else if off = 0x080080 then
    x.mode.code + 4 * b2n x.slow + 8 * b2n x.turnOpen + 16 * b2n x.calOpen + 256 * x.stripe
  else if off = 0x080094 then toBits 32 x.phi
  else if off = 0x080098 then toBits 32 (asr x.phi 32)
  else if off = 0x08009C then toBits 32 x.inc
  else if off = 0x0800A0 then x.hwm
  else if off = 0x0800A4 then x.s0 % 2 ^ 32
  else if off = 0x0800A8 then x.s0 / 2 ^ 32
  else if off = 0x0800AC then x.n
  else 0

/-- SLOT_NUMBER and SLOT_TICK, which read on every die. -/
def Chip.liveSlotCount (c : Chip) (off : Nat) : Nat :=
  if off = 0x080084 then c.sched.slot % 2 ^ 32
  else if off = 0x080088 then c.sched.slot / 2 ^ 32
  else if off = 0x08008C then c.tick48 % 2 ^ 32
  else if off = 0x080090 then c.tick48 / 2 ^ 32
  else 0

/-- DEFL and AXIS, chapter 7, on die W. -/
def Chip.liveMotion (c : Chip) (off : Nat) : Nat :=
  if off = 0x090030 then
    let k := c.defl.check
    b2n k.busy + 2 * b2n k.passed + 4 * k.kind + 64 * c.settleIndex
  else if 0x0A0000 ≤ off then
    let n := (off - 0x0A0000) / 256
    let a := c.axis n
    match off % 256 with
    | 0x2C => toBits 32 (micro a.x)
    | 0x30 => c.axisState n + 8 * b2n a.homed + 16 * b2n a.atHold + 32 * b2n a.limFwd.active + 64 * b2n a.limRev.active +
        128 * b2n a.dir + 256 * b2n a.encProvisional
    | 0x38 => a.enc
    | 0x3C => toBits 32 a.encSpeed
    | _ => 0
  else 0

/-- A lane receiver's word but for its state (PHY_BL_n, PHY_GR_n). -/
def Phy.word (p : Phy) : Nat :=
  8 * p.preset + 64 * b2n p.blockLock + 128 * b2n p.frozen + 256 * min 255 p.eyeH + 65536 * (p.eyeW % 64)

/-- State code of a Grist lane (PHY_GR_n). -/
def Chip.grLaneState (c : Chip) (d : DieId) (l : Nat) : Nat :=
  let g := (c.die d).gr
  if g.training.any (·.lane == l) then 3 else if (g.phy l).failed then 4 else if (g.phy l).frozen || !c.lanesUp then 0 else 2

/-- BLNK and PHY, chapters 8 and 9. -/
def Chip.liveLanes (c : Chip) (d : DieId) (off : Nat) : Nat :=
  let x := (c.die d).blnk
  let g := (c.die d).gr
  if off = 0x0B0004 then
    let ho := x.hos.head?
    x.epoch + 256 * x.bankInUse + 512 * b2n (x.confirmed x.spareBank) + 1024 * b2n x.loading.isSome +
      2048 * (x.bank x.spareBank).tag + 2 ^ 19 * (ho.map (·.lam)).getD 0 + 2 ^ 25 * (ho.map (·.phase.code)).getD 0
  else if 0x0B0100 ≤ off && off < 0x0B0200 then c.mapWord d ((off - 0x0B0100) / 4)
  else if 0x0B0200 ≤ off && off < 0x0B0210 then c.spareWord d ((off - 0x0B0200) / 4)
  else if 0x0C0000 ≤ off && off < 0x0C0110 then
    let l := (off - 0x0C0000) / 4
    c.laneState d l + (x.phy l).word
  else if off = 0x0C0408 then
    match x.training.head? with
    | some t => 1 + 2 * t.lane
    | none =>
      let t := x.lastTrain
      2 * t.1 + 256 * t.2.1 + 1024 * t.2.2.1 + 2 ^ 13 * b2n t.2.2.2.1 + 2 ^ 14 * (t.2.2.2.2 % 256)
  else if off = 0x0C0804 then
    g.setId + 256 * b2n g.aligned + 512 * (onesOf 16 g.mask).headD 0 + 65536 * g.mask
  else if 0x0C0810 ≤ off && off < 0x0C0850 then
    let l := (off - 0x0C0810) / 4
    c.grLaneState d l + (g.phy l).word
  else 0

/-- The port through which a die's messages leave: its own, or the other die's while its own has no link (R269). -/
def Chip.msgPort (c : Chip) (d : DieId) : Option DieId :=
  if (c.die d).port.link then some d
  else if c.evuneUp && (c.die d.other).port.link then some d.other
  else none

/-- CTRL, chapter 9. -/
def Chip.liveCtrl (c : Chip) (d : DieId) (off : Nat) : Nat :=
  let p := (c.die d).port
  if off = 0x0D0000 then b2n p.link + 2 * b2n (c.msgPort d == some d.other)
  else if off = 0x0D0024 then p.queue.length + 128 * b2n p.outstanding.isSome + 65536 * p.seq
  else if 0x0D0100 ≤ off && off < 0x0D010C then (c.timeWords c.time).getD ((off - 0x0D0100) / 4) 0
  else if off = 0x0D0144 then (if c.herd.role == .member then c.herd.buckPtp else c.ptp.state.code) + 8 * dieBit c.ptp.port
  else 0

/-- State code of a DRAM channel (DRAM_STATUS). -/
def Chip.chState (c : Chip) (d : DieId) (k : Nat) : Nat :=
  let x := (c.die d).dram
  if !nbit x.trained k then 0
  else if x.active then (if !x.fills.isEmpty then 1 else if nbit x.asleep k then 3 else 2)
  else if c.bootFilling d then 1
  else 0

/-- DRAM and ECC, chapter 10. -/
def Chip.liveDram (c : Chip) (d : DieId) (off : Nat) : Nat :=
  let x := (c.die d).dram
  let busy := c.bootFilling d || !x.fills.isEmpty
  if off = 0x0E0004 then
    ((List.range 4).map fun k => c.chState d k * 4 ^ k).sum + 256 * ((List.range 4).map fun k => smGet 0 k x.mult * 4 ^ k).sum +
      2 ^ 16 * b2n x.panic + 2 ^ 17 * b2n busy
  else if off = 0x0E002C then c.budgetSum d + 2 ^ 18 * b2n (14336 < c.budgetSum d)
  else if off = 0x0E0058 then 8 * b2n busy
  else if off = 0x0E0100 then 256 * b2n x.train.isSome
  else if 0x0F0040 ≤ off && off < 0x0F0050 then x.poolFree ((off - 0x0F0040) / 4)
  else 0

/-- ILK, chapter 11. -/
def Chip.liveIlk (c : Chip) (d : DieId) (off : Nat) : Nat :=
  let x := (c.die d).ilk
  if off = 0x100010 then
    x.raw + 256 * x.good + 2 ^ 16 * b2n x.gateOpen + 2 ^ 17 * b2n c.blankAll + 2 ^ 18 * b2n (c.gateRemote d) +
      2 ^ 19 * b2n (c.gateReady d && !x.gateOpen)
  else 0

/-- Sleep state of a core (EVT_SLEEP_c): 3 is unavailable for another reason of R334. -/
def Die.sleepCode (x : Die) (k : Nat) : Nat :=
  if (x.mc k).state != .running then 3
  else match (x.evt.core k).sleep with
  | .awake => 0
  | .asleep => 1
  | .woken => 2

/-- EVT, chapter 12. -/
def Chip.liveEvt (c : Chip) (d : DieId) (off : Nat) : Nat :=
  let x := c.die d
  if 0x110100 ≤ off && off < 0x110140 then
    let k := (off - 0x110100) / 4 % 8
    bitmapOf ((List.range 32).filter fun i => x.evtPending (32 * k + i))
  else if 0x110200 ≤ off && off < 0x110300 then
    let m := (off - 0x110200) / 4
    ((List.range 4).map fun i => x.evtCount (4 * m + i) * 256 ^ i).sum
  else if 0x110400 ≤ off && off < 0x110800 then
    let n := (off - 0x110400) / 4
    if sourceUsed n then 256 * b2n (isFault n) + 512 * smGet 0 n x.evt.sw else 0
  else if 0x110800 ≤ off && off < 0x110880 then
    let k := (off - 0x110800) / 64
    let q := x.evt.core k
    match (off - 0x110800) % 64 with
    | 0x00 => 2 * b2n (q.scan != (x.fld (F.EVT_CORE_CTRL_mode.at k) == 1))
    | 0x10 => 2 * x.sleepCode k
    | 0x14 => q.stack.length + 32 * (q.stack.head?.map (·.id)).getD 0x3FF + 2 ^ 15 * (q.stack.head?.map (·.group)).getD 0
    | _ => 0
  else if off = 0x110910 then 256 * min 255 (x.evt.counts.filter fun p => c.hostEligible d p.1).length
  else 0

/-- CHK, chapter 13. -/
def Chip.liveChk (c : Chip) (d : DieId) (off : Nat) : Nat :=
  let u := (c.die d).chkUnit ((off - 0x120000) / 64)
  match off % 64 with
  | 0x00 => 32 * u.owner + 128 * b2n u.busy + 256 * b2n u.error
  | 0x0C => u.result
  | _ => 0

/-- HERD, chapter 14. -/
def Chip.liveHerd (c : Chip) (off : Nat) : Nat :=
  let h := c.herd
  let buck := h.role == .buck
  if off = 0x130000 then
    h.role.code + 8 * h.addr + 64 * h.buckId + 512 * b2n h.linkA + 1024 * b2n h.linkB + 2048 * h.armReason
  else if off = 0x130004 then
    match h.settings with
    | none => 0
    | some s => s.expected + 256 * s.buckOk + 2 ^ 16 * b2n s.failover + 2 ^ 17 * s.lat
  else if 0x130020 ≤ off && off < 0x130040 then (if buck then c.memberWord ((off - 0x130020) / 4) else 0)
  else if 0x130040 ≤ off && off < 0x130060 then
    match h.peer? ((off - 0x130040) / 4) with
    | some p => if buck then p.short % 1024 + 1024 * (p.long % 1024) else 0
    | none => 0
  else if 0x130100 ≤ off && off < 0x130120 then (if buck then leAt h.meas (off - 0x130100) 4 else 0)
  else 0

/-- CAL_STATUS.state (chapter 15). -/
def Cal.stateCode (x : Cal) : Nat :=
  match x.phase with
  | .idle => 0
  | .waiting => 5
  | .zero => 1
  | .chainZero | .chainRef => 4
  | .gap | .slots | .span =>
    match x.burst with
    | .background => 2
    | .beam _ _ => 3

/-- CAL, chapter 15: dose calibration on die W, lane calibration on each die. -/
def Chip.liveCal (c : Chip) (d : DieId) (off : Nat) : Nat :=
  let x := c.cal
  let y := (c.die d).laneCal
  if off = 0x140108 then y.next + 128 * b2n y.busy + 256 * y.outcome
  else if 0x140200 ≤ off && off < 0x140310 then
    65536 * (match y.trainedAt.find? (·.1 == (off - 0x140200) / 4) with
      | none => 65535
      | some p => min 65535 (c.hoursSince p.2))
  else if d = .e then 0
  else if off = 0x140004 then
    x.stateCode + 16 * ((x.step.map fun t => t.left.headD 0).getD 0) + 1024 * x.lastDiscard + 2 ^ 13 * b2n (!x.held.isEmpty)
  else if off = 0x140040 then x.kChain
  else if off = 0x140044 then
    x.chainSeq % 65536 + 65536 * (match x.passAt with
      | none => 255
      | some t => min 255 (c.hoursSince t)) + 2 ^ 24 * b2n x.pass + 2 ^ 25 * b2n x.clip
  else 0

/-- EVL, chapter 1. -/
def Chip.liveEvl (c : Chip) (d : DieId) (off : Nat) : Nat :=
  let x := (c.die d).evl
  if off = 0x160004 then
    x.count + 65536 * x.wr + 2 ^ 26 * b2n (x.count == 1024) + 2 ^ 27 * b2n x.overflowed +
      2 ^ 28 * b2n ((x.last?.map (·.isOpen)).getD false)
  else if off = 0x160008 then x.rd
  else 0

/-- The computed fields of the register at an offset of a die. -/
def Chip.liveWord (c : Chip) (d : DieId) (off : Nat) : Nat :=
  match off / 65536 with
  | 0x00 => c.liveSys d off
  | 0x01 => c.liveCfg d off
  | 0x02 | 0x03 => c.liveGrist d off
  | 0x04 | 0x05 => c.liveKiln d off
  | 0x06 | 0x07 => c.liveMap d off
  | 0x08 => if 0x080084 ≤ off && off ≤ 0x080090 then c.liveSlotCount off else c.liveSlot off
  | 0x09 | 0x0A => c.liveMotion off
  | 0x0B | 0x0C => c.liveLanes d off
  | 0x0D => c.liveCtrl d off
  | 0x0E | 0x0F => c.liveDram d off
  | 0x10 => c.liveIlk d off
  | 0x11 => c.liveEvt d off
  | 0x12 => c.liveChk d off
  | 0x13 => c.liveHerd off
  | 0x14 => c.liveCal d off
  | 0x15 => if off = 0x150000 then c.pwrStatus else 0
  | 0x16 => c.liveEvl d off
  | _ => 0

end Sys2Proof.Machine
end

