-- ==== Sys2Proof/Machine/Bus.lean ====
section
/-! DEFINITION. Register and table accesses (R14 to R20): where each register lives, what a read returns and does, and what
a write does, for every offset of a die; and the commands that are register accesses. -/

namespace Sys2Proof.Machine

/-! ### Which die holds a register -/

/-- Registers of the flash devices, which die E lacks (R337). -/
def isFlashOff (off : Nat) : Bool := (0x010500 ≤ off && off < 0x01050C) || (0x010800 ≤ off && off < 0x010900)

/-- CFG registers that each die holds for itself: core control, the swap's report, the job log, the management windows. -/
def isOwnCfg (off : Nat) : Bool :=
  (0x010400 ≤ off && off < 0x010408) || off == 0x01010C || (0x010110 ≤ off && off < 0x010118) ||
  (0x010600 ≤ off && off < 0x010608) || 0x014000 ≤ off

/-- CTRL_TIME_INC and CTRL_TIME_STEP. -/
def isTimeReg (off : Nat) : Bool := 0x0D010C ≤ off && off < 0x0D0120

/-- The registers of the ordinary clock, a module unit. -/
def isPtpReg (off : Nat) : Bool := 0x0D0140 ≤ off && off < 0x0D0154

/-- SLOT_NUMBER and SLOT_TICK. -/
def isSlotCount (off : Nat) : Bool := 0x080084 ≤ off && off < 0x080094

/-- CAL registers that each die holds (chapter 15). -/
def isLaneCal (off : Nat) : Bool := (0x140100 ≤ off && off < 0x14010C) || (0x140200 ≤ off && off < 0x140310)

/-- The die whose registers an access to an offset of a die meets; `none` reads as zero and ignores writes. -/
def Chip.home (c : Chip) (d : DieId) (off : Nat) : Option DieId :=
  let b := off / 0x10000
  if b = 0x08 && !isSlotCount off && !c.schedHere then none
  else match d with
    | .w => some .w
    | .e =>
      if b = 0x01 then (if isFlashOff off then none else if isOwnCfg off then some .e else some .w)
      else if b = 0x08 then (if isSlotCount off then some .e else none)
      else if b = 0x09 || b = 0x0A || b = 0x94 || b = 0x95 then none
      else if b = 0x0D then (if isTimeReg off || isPtpReg off then some .w else some .e)
      else if b = 0x13 then some .w
      else if b = 0x14 then (if isLaneCal off then some .e else none)
      else if b = 0x15 then (if off = 0x15000C then some .e else some .w)
      else some .e

/-- Writes that an access to the other die's or a member's copy ignores. -/
def Chip.writeIgnored (c : Chip) (d : DieId) (off : Nat) : Bool :=
  (d == .e && (off == 0x010100 || isTimeReg off || off / 0x10000 == 0x13)) ||
  (!c.schedHere && (off / 0x10000 == 0x08 || isTimeReg off || off == 0x0D0140))

/-! ### Reads -/

/-- The bits of a table word that a read shows: the reserved bits of a remap entry, which the map check judges (R136), read
as zero (R16). -/
def tableView (off : Nat) (v : Word) : Word := if off < 0x880000 then v &&& 0x0103FFFF else v

/-- A word of a table window (R54): remap and trim entries are viewed by MAP_TABLE_VIEW, the others at their upper half.
An active entry found unreadable reads as the poison word (R299, R300). -/
def Chip.peekTable (c : Chip) (d : DieId) (off : Nat) : Word :=
  let upper := splitTable off && 0x8000 ≤ off % 0x10000
  let a := if upper then off - 0x8000 else off
  if upper || (off < 0x900000 && c.flag d F.MAP_TABLE_VIEW_active) then
    (if (c.die d).badTables.any (·.1 == a) then poisonWord else tableView a (c.tblAct d a))
  else tableView a (c.tbl d a)

/-- A read at an offset meets an active table entry that is poison (R299, R300). -/
def Chip.tablePoison (c : Chip) (d : DieId) (off : Nat) : Bool :=
  let upper := splitTable off && 0x8000 ≤ off % 0x10000
  let a := if upper then off - 0x8000 else off
  isTable off && (upper || (off < 0x900000 && c.flag d F.MAP_TABLE_VIEW_active)) && (c.die d).badTables.any (·.1 == a)

/-- An entry of the retirement table (R306). -/
def Chip.retirement (c : Chip) (d : DieId) (i : Nat) : Word :=
  match (c.die d).dram.retired.find? (·.1 == i) with
  | some p => word (p.2 % 2 ^ 21 + 2 ^ 31)
  | none => 0

/-- What a word reads as, without any effect of the read. -/
def Chip.peek (c : Chip) (d : DieId) (off : Nat) : Word :=
  if isTable off then c.peekTable d off
  else if 0x0F2000 ≤ off && off < 0x0F3000 then c.retirement d ((off - 0x0F2000) / 4)
  else if (findReg off).isSome then (c.die d).reg off ||| word (c.liveWord d off)
  else if 0x8000 ≤ off % 0x10000 && rwsMask (off - 0x8000) != 0 then (c.die d).reg off
  else 0

/-- The offset of the register that an offset reads: itself, or that whose active copy it is. -/
def baseOff (off : Nat) : Nat := if (findReg off).isNone && 0x8000 ≤ off % 0x10000 then off - 0x8000 else off

/-- Words of the value whose low word stands at an offset (R20). -/
def wideAt (off : Nat) : Nat :=
  match findReg (baseOff off) with
  | some r => r.wide
  | none => 1

/-- The eight words of an entry of the correctable-error log (R305). -/
def Chip.eccWords (c : Chip) (d : DieId) (i : Nat) : List Word :=
  match (c.die d).dram.log.find? (·.1 == i) with
  | none => List.replicate 8 0
  | some (_, x) =>
    let first := c.timeWords x.firstTime
    [word (x.region + 16 * (x.channel % 4) + 64 * x.state + 256 * (x.bit % 256) + 2 ^ 16 * b2n x.checkBit + 2 ^ 17 * min 3 x.recurrence),
     word (x.syndrome % 512 + 2 ^ 16 * min 65535 x.corrections),
     word x.addr, word (x.addr / 2 ^ 32 % 8), word (first.getD 1 0), word (first.getD 2 0),
     word ((c.timeWords x.lastTime).getD 1 0), word x.lastSlot]

/-- Read of word `i` of a correctable-error log entry (R305). -/
def Chip.readEccWord (c : Chip) (d : DieId) (idx i : Nat) : Word × Chip :=
  let r := captureRead (c.die d).dram.logCapture idx i (c.eccWords d idx)
  (r.1, c.onDram d fun x => { x with logCapture := r.2 })

/-- Read of word `i` of a job record (R359). -/
def Chip.readJobWord (c : Chip) (d : DieId) (idx i : Nat) : Word × Chip :=
  let r := captureRead (c.die d).jlog.capture idx i ((c.die d).jlog.words idx)
  (r.1, c.onJlog d fun x => { x with capture := r.2 })

/-- The upper words of a wide value are captured as its low word is read (R20). -/
def Chip.captureUpper (c : Chip) (d : DieId) (off : Nat) : Chip :=
  (List.range (wideAt off - 1)).foldl (fun c' i =>
    let a := off + 4 * (i + 1)
    c'.onDie d fun x => { x with caps := smInsert a (c.peek d a) x.caps }) c

/-- The RC fields of the register at an offset. -/
def rcFields (off : Nat) : List Fld :=
  match findReg off with
  | some r => (r.fields.filter (·.acc == .rc)).map fun f => ⟨off, 0, f.hi, f.lo⟩
  | none => []

/-- What a read of an RC field returns: its value before the clock, when hardware has changed it in this tick (R19). -/
def Chip.rcValue (c : Chip) (d : DieId) (f : Fld) : Nat :=
  if (c.die d).added f = 0 then c.fld d f else (c.startDie d).fld f

/-- RC fields are cleared by a read at the register's own offset (R17, R18); what hardware has set or counted in this tick
stays (R19). -/
def Chip.clearRc (c : Chip) (d : DieId) (off : Nat) : Chip :=
  c.forEach (rcFields off) fun c f =>
    (c.onDie d fun x => x.put f (min (x.added f) (2 ^ (f.hi + 1 - f.lo) - 1))).onStart d (·.put f 0)

/-- A read of a register: the captured word of a wide value if one is held, else the live word (R20), with its RC fields as
R19 gives them. -/
def Chip.readReg (c : Chip) (d : DieId) (off : Nat) : Word × Chip :=
  let v := match (c.die d).caps.find? (·.1 == off) with
    | some p => p.2
    | none => (rcFields off).foldl (fun w f => putBits w f.hi f.lo (c.rcValue d f)) (c.peek d off)
  (v, (c.captureUpper d off).clearRc d off)

/-- A read of a word of the die that holds it. -/
def Chip.readAt (c : Chip) (d : DieId) (off : Nat) : Word × Chip :=
  if 0x164000 ≤ off && off < 0x16C000 then c.readSpanWord d ((off - 0x164000) / 32) (off % 32 / 4)
  else if 0x014000 ≤ off && off < 0x01C000 then c.readJobWord d ((off - 0x014000) / 128) (off % 128 / 4)
  else if 0x01C000 ≤ off && off < 0x020000 then
    let r := c.freshBelow (2 ^ 32)
    (word r.1, r.2)
  else if 0x071000 ≤ off && off < 0x071800 then c.readDirectory d ((off - 0x071000) / 32) (off % 32 / 4)
  else if 0x0F1000 ≤ off && off < 0x0F1200 then c.readEccWord d ((off - 0x0F1000) / 32) (off % 32 / 4)
  else if 0x110800 ≤ off && off < 0x110880 && off % 64 = 4 then c.readEvtAck d ((off - 0x110800) / 64)
  else if 0x110800 ≤ off && off < 0x110880 && off % 64 = 0x0C then (c.readEvtScan d ((off - 0x110800) / 64), c)
  else
    let r := c.readReg d off
    (r.1, r.2.whenB (c.tablePoison d off) (·.sramReadError d .poison 6))

/-- A read of an offset of a die (R14 to R20). -/
def Chip.busRead (c : Chip) (d : DieId) (off : Nat) : Word × Chip :=
  if off % 4 ≠ 0 || 2 ^ 24 ≤ off then (0, c)
  else match c.home d off with
    | none => (0, c)
    | some h => c.readAt h off

/-! ### The closed region (R352) -/

/-- A write of CFG_MC_CTRL_c that would restart the core or change wd_ms. -/
def Chip.mcDenied (c : Chip) (d : DieId) (off : Nat) (v : Word) : Bool :=
  (0x010400 ≤ off && off < 0x010408) &&
    (bit v 1 || bits v 31 16 != c.fld d (F.CFG_MC_CTRL_wd_ms.at ((off - 0x010400) / 4)))

/-- A write that R352 closes to the control port. -/
def Chip.closedWrite (c : Chip) (d : DieId) (off : Nat) (v : Word) : Bool :=
  off == 0x010004 || off == 0x010500 || off == 0x010504 || (0x010800 ≤ off && off < 0x010900) ||
  (0x01C000 ≤ off && off < 0x020000) || c.mcDenied d off v || off == 0x100004 || off == 0x100008 || off == 0x10000C ||
  (0x0F0060 ≤ off && off < 0x0F006C)

/-- A read that R352 closes to the control port. -/
def closedRead (off : Nat) : Bool := 0x01C000 ≤ off && off < 0x020000

/-! ### Writes -/

/-- W1C bits of a register that hardware has set in this tick: a write does not clear them (R19). -/
def Die.heldBits (x : Die) (off : Nat) : Word :=
  match findReg off with
  | some r => (r.fields.filter (·.acc == .w1c)).foldl (fun w f => w ||| word (x.added ⟨off, 0, f.hi, f.lo⟩ * 2 ^ f.lo)) 0
  | none => 0

/-- A write by the access codes of the fields alone (R17, R19). -/
def Chip.writeFields (c : Chip) (d : DieId) (off : Nat) (v : Word) : Chip :=
  match findReg off with
  | none => c
  | some r =>
    let keep := r.mask fun a => a == .rw || a == .rws
    let clear := r.mask (· == .w1c)
    let old := (c.die d).reg off
    c.onDie d (·.setReg off (((old &&& ~~~ keep) ||| (v &&& keep)) &&& ~~~ (v &&& clear &&& ~~~ (c.die d).heldBits off)))

/-- What the map check reads among the RWS registers of a die (R137, R138). -/
def mapCheckReg (off : Nat) : Bool := off == 0x060000 || off == 0x060004 || off == 0x060008

/-- A shadow copy has been written (R348, R138, R197): an armed swap ends, and the checks that read the word start again. -/
def Chip.shadowWritten (c : Chip) (d : DieId) (off : Nat) : Chip :=
  let c0 := c.endSwapBy 3
  let mapTable := (0x800000 ≤ off && off < 0x904000) || off / 0x10000 == 0x93
  let c1 := if mapCheckReg off || mapTable then c0.restartMapCheck d
    else if off = 0x080008 then c0.forEach c0.dies fun c d => c.restartMapCheck d
    else c0
  if off / 0x10000 = 0x09 || off / 0x10000 = 0x94 || off = 0x080004 || (d == .w && (off = 0x060000 || off / 0x10000 = 0x93)) then
    c1.restartDeflCheck
  else c1

/-- A write to a shadow table entry (R54, R102); while MAP_TABLE_VIEW shows the active remap and trim copies, a write to
those windows is ignored (R147). -/
def Chip.writeTable (c : Chip) (d : DieId) (off : Nat) (v : Word) : Chip :=
  let m := tableMask off
  if m = 0 || (off < 0x900000 && c.flag d F.MAP_TABLE_VIEW_active) then c
  else
    let c1 := c.shadowWritten d off
    let i := (off - 0x920000) / 4
    if off / 0x10000 = 0x92 && i < bits v 8 0 then (c1.setTbl d off (word i)).raise d 66
    else c1.setTbl d off (v &&& m)

/-- A write of a unit word: its enable, and its two W1C bits (R31, R34); bits that hardware has set in this tick stay
(R19). -/
def Chip.writeUnit (c : Chip) (d : DieId) (off : Nat) (v : Word) : Chip :=
  let c1 := (c.shadowWritten d off).onDie d (·.setReg off (v &&& 1))
  let pend := bit v 30
  let fault := bit v 31
  if off < 0x006000 then
    let m := ~~~ cellBits [(off - 0x004000) / 4]
    c1.onDie d fun x => { x with
      cellPend := if pend then x.cellPend &&& (m ||| x.unitsNow.cellPend) else x.cellPend
      cellFault := if fault then x.cellFault &&& (m ||| x.unitsNow.cellFault) else x.cellFault }
  else if off < halfUnit then
    let m : BitVec 32 := ~~~ BitVec.ofNat 32 (2 ^ ((off - 0x006000) / 4))
    c1.onDie d fun x => { x with
      fieldPend := if pend then x.fieldPend &&& (m ||| x.unitsNow.fieldPend) else x.fieldPend
      fieldFault := if fault then x.fieldFault &&& (m ||| x.unitsNow.fieldFault) else x.fieldFault }
  else
    let i := (off - halfUnit) / 4
    let m : BitVec 3 := ~~~ BitVec.ofNat 3 (if i = 2 && c.herd.role != .buck then 6 else 2 ^ i)
    c1.onDie d fun x => { x with
      topPend := if pend then x.topPend &&& (m ||| x.unitsNow.topPend) else x.topPend
      topFault := if fault then x.topFault &&& (m ||| x.unitsNow.topFault) else x.topFault }

/-- Reception begins (R73, R260): credit restarts, no header has been accepted, and a new set is announced. -/
def Chip.enableGrist (c : Chip) (d : DieId) : Chip :=
  ((((c.put d F.GRIST_CTRL_enable 1).restartCredit d).onGrist d fun g => { g with last := none }).openArea d
    (c.fld d F.GRIST_RX_BASE_base_64k) (c.fld d F.GRIST_RX_SIZE_size_64k)).changeSet d 1

/-- Reception ends (R74): nothing of a block in progress is used. -/
def Chip.disableGrist (c : Chip) (d : DieId) : Chip :=
  ((c.put d F.GRIST_CTRL_enable 0).discardBlocks d).onGr d fun g => { g with rx := none }

/-- Write of GRIST_CTRL (R73, R74). -/
def Chip.writeGristCtrl (c : Chip) (d : DieId) (v : Word) : Chip :=
  let was := c.flag d F.GRIST_CTRL_enable
  let c1 :=
    if !bit v 0 then (if was then c.disableGrist d else c)
    else if was then c
    else if c.rxAreaOk d then c.enableGrist d
    else c.raise d 34
  if !bit v 1 then c1
  else if c1.flag d F.GRIST_CTRL_enable then ((c1.discardBlocks d).restartCredit d).tryCredit d
  else c1.discardBlocks d

/-- GRIST_RX_BASE and GRIST_RX_SIZE while reception is enabled: ignored, and the configuration event is raised. -/
def Chip.writeRxArea (c : Chip) (d : DieId) (off : Nat) (v : Word) : Chip :=
  if c.flag d F.GRIST_CTRL_enable then c.raise d 34 else c.writeFields d off v

/-- A value stored as the nearer limit, with the slot configuration event (SLOT_PITCH, SLOT_RATE_LIMIT). -/
def Chip.writeLimited (c : Chip) (off : Nat) (n m : Nat) : Chip :=
  let c1 := (c.shadowWritten .w off).onDie .w (·.setReg off (word m))
  if n = m then c1 else c1.raise .w 112

/-- The offset of CTRL_TIME_STEP, signed, in 2^-32 ns. -/
def Chip.stepOffset (c : Chip) : Int :=
  toSigned 96 ((c.w.reg 0x0D0114).toNat + 2 ^ 32 * (c.w.reg 0x0D0118).toNat + 2 ^ 64 * (c.w.reg 0x0D011C).toNat)

/-- The clock's measurements start anew, on another port. -/
def Ptp.moveTo (x : Ptp) (p : DieId) : Ptp :=
  { x with port := p, mpd16 := none, outlier := none, stepRef := none, stepInHold := false, moved := x.state == .holdSync, syncRx := none, t2mt1 := none,
           reqTx := none, masters := [], parent := none }

/-- Write of a CTRL register of the time, the clock, or the port. -/
def Chip.writeCtrl (c : Chip) (d : DieId) (off : Nat) (v : Word) : Chip :=
  let c1 := c.writeFields d off v
  if off = 0x0D0110 then { c1 with inc := (c1.w.reg 0x0D010C).toNat + 2 ^ 32 * bits v 7 0 }
  else if off = 0x0D011C then { c1 with time := (((c1.time : Int) + c1.stepOffset) % (c1.timeModulus : Int)).toNat }
  else if off = 0x0D0140 then
    let p : DieId := if bit v 8 then .e else .w
    if p = (if bits (c.w.reg 0x0D0140) 8 8 = 1 then DieId.e else DieId.w) then c1
    else { c1 with ptp := c1.ptp.moveTo (if c.hasDie p then p else .w) }
  else c1

/-- Write of a DRAM or ECC register. -/
def Chip.writeDramReg (c : Chip) (d : DieId) (off : Nat) (v : Word) : Chip :=
  if off = 0x0E0058 then c.writeFillCtrl d v
  else if off = 0x0E0100 then c.writeTrainCtrl d v
  else if off = 0x0F0050 then c.retireCmd d v
  else
    let c1 := c.writeFields d off v
    if 0x0E0010 ≤ off && off < 0x0E002C && 14336 < c1.budgetSum d then c1.raise d 7 else c1

/-- Write of an EVT register (chapter 12). -/
def Chip.writeEvt (c : Chip) (d : DieId) (off : Nat) (v : Word) : Chip :=
  if 0x110100 ≤ off && off < 0x110120 then c.writeEvtSet d ((off - 0x110100) / 4) v
  else if 0x110120 ≤ off && off < 0x110140 then c.writeEvtClr d ((off - 0x110120) / 4) v
  else if 0x110400 ≤ off && off < 0x110800 then c.writeEvtCfg d ((off - 0x110400) / 4) v
  else if 0x110800 ≤ off && off < 0x110880 then
    let k := (off - 0x110800) / 64
    match (off - 0x110800) % 64 with
    | 0x00 => c.writeCoreCtrl d k v
    | 0x08 => c.writeEvtEoi d k (bits v 9 0)
    | 0x10 => if bit v 0 then c.sleepCore d k else c
    | _ => c
  else c.writeFields d off v

/-- Write of a CHK register (R350, R351). -/
def Chip.writeChk (c : Chip) (m : Master) (d : DieId) (off : Nat) (v : Word) : Chip :=
  let u := (off - 0x120000) / 64
  if 4 ≤ u then c
  else match off % 64 with
    | 0x00 => c.writeChkCtrl m d u v
    | 0x04 => c.feedChk m d u (leBytes 4 v.toNat)
    | 0x08 => c.feedChk m d u [bits v 7 0]
    | 0x10 => c.writeChkRange m d u 0 v
    | 0x14 => c.writeChkRange m d u 1 v
    | 0x18 => c.writeChkRange m d u 2 v
    | 0x0C => c.asOwner m d u fun c => c
    | _ => c

/-- The seeds of the job log's chain (R360): L_0, from M at boot, the boot counter and the serial. -/
def Chip.chain0 (c : Chip) : List Nat := sha256 (c.measBytes ++ leBytes 4 c.nv.bootCount ++ serialBytes)

/-- Boot completes (R344): the lock closes, the boot record is written, ready is set and source 200 is raised. -/
def Chip.bootOk (c : Chip) : Chip :=
  if c.cfg.stage != .lanes then c
  else
    let m := if 8 ≤ c.cfg.failCount then Maint.lockout else if c.cfg.maint == .opened then .opened else .locked
    let c1 := c.onCfg fun x => { x with stage := .ready, maint := m, missed := 0 }
    let chain := c1.chain0
    let c2 := c1.forEach c1.dies fun c d => c.onJlog d fun x => { x with chain := chain, seq := 0 }
    let c3 := c2.storeBoth
      { kind := 1, w2 := c2.nv.bootCount, w3 := b2n c2.cfg.imageB + 2 * b2n c2.cfg.fallback, time := c2.time,
        first := c2.measBytes }
    let c4 := c3.onHerd fun h => { h with
      role := if c3.herdFits then .joining else h.role, bootAt := c3.now }
    (driveEnables c3 c4).raise .w 200

/-- Write of a CFG register (chapter 13). -/
def Chip.writeCfg (c : Chip) (m : Master) (d : DieId) (off : Nat) (v : Word) : Chip :=
  if off = 0x010008 then (if bit v 0 then c.bootOk else c)
  else if off = 0x01000C then (if bit v 0 then (c.noteReset 7).moduleReset 0 c.bootSel else c)
  else if off = 0x010100 then c.writeSwapCtrl v
  else if off = 0x010304 then c.writeMaintCmd v
  else if 0x010400 ≤ off && off < 0x010408 then c.writeMcCtrl m d ((off - 0x010400) / 4) v
  else if off = 0x010500 then c.writeFlashCmd m v
  else if off = 0x010604 then c.writeJlogRdIdx d v
  else c.writeFields d off v

/-- Write of a SLOT register (chapter 6), on die W of the module whose scheduler runs. -/
def Chip.writeSlot (c : Chip) (off : Nat) (v : Word) : Chip :=
  if off = 0x080004 then c.writeLimited off (bits v 12 0) (max 640 (min 5120 (bits v 12 0)))
  else if off = 0x080008 then
    let n := bits v 11 0
    c.writeLimited off n (if n = 0 || 4000 < n then 4000 else n)
  else if off = 0x08001C then c.writePosCtrl v
  else if off = 0x0800C8 then c.writeArmCtrl v
  else if 0x080100 ≤ off && off < 0x080180 && off % 16 = 8 then c.writeCmp ((off - 0x080100) / 16) v
  else c.writeFields .w off v

/-- Write of a BLNK or PHY register (chapters 8 and 9). -/
def Chip.writeLanes (c : Chip) (d : DieId) (off : Nat) (v : Word) : Chip :=
  if off = 0x0B0000 then c.writeBlnkCtrl d v
  else if off = 0x0B0008 then c.writeHandover d v
  else if off = 0x0C0404 then (if bit v 7 && bits v 6 0 < 68 then c.callTraining d (bits v 6 0) false true else c)
  else if off = 0x0C0800 then c.writeGrCtrl d v
  else if off = 0x0C0890 then (if bit v 4 then c.grTrainCommand d (bits v 3 0) else c)
  else c.writeFields d off v

/-- Write of a GRIST, KILN, CASK, ILK or EVL register that acts, or of any other register (R17). -/
def Chip.writeOther (c : Chip) (m : Master) (d : DieId) (off : Nat) (v : Word) : Chip :=
  if off = 0x020000 then c.writeGristCtrl d v
  else if off = 0x020004 || off = 0x020008 then c.writeRxArea d off v
  else if off = 0x040008 then c.writeEngineEn d v
  else if off = 0x070000 then c.writeCaskCtrl d v
  else if off = 0x070004 then c.writeCaskArea d F.CASK_BASE_base_64k v
  else if off = 0x070008 then c.writeCaskArea d F.CASK_SIZE_size_64k v
  else if off = 0x070014 then c.writeCaskCmd d v
  else if 0x070020 ≤ off && off < 0x070030 then c.writeCaskPlay d ((off - 0x070020) / 4) v
  else if off = 0x100000 then c.writeIlkCtrl d v
  else if off = 0x100004 then (if c.mayClosed m then c.writeIlkCfg d v else c)
  else if off = 0x100008 then (if c.mayClosed m then c.writeIlkMask d v else c)
  else if off = 0x10000C then (if c.mayClosed m then c.writeIlkPol d v else c)
  else if off = 0x140000 then c.writeCalCtrl v
  else if off = 0x150014 then c.writeThermCfg v
  else if off = 0x160000 then c.writeEvlCtrl d v
  else if off = 0x160008 then c.writeRdIdx d v
  else c.writeFields d off v

/-- Write of a DEFL or AXIS register (chapter 7), on die W; a member's axes take no command (R364). -/
def Chip.writeMotion (c : Chip) (off : Nat) (v : Word) : Chip :=
  if off = 0x090000 then c.writeDeflCtrl v
  else if off < 0x0A0000 then c.writeFields .w off v
  else if 0x0A0200 ≤ off then c
  else
    let n := (off - 0x0A0000) / 256
    match off % 256 with
    | 0 => c.writeAxisCtrl n v
    | 4 => if c.schedHere then c.writeAxisCmd n v else c
    | _ => c.writeFields .w off v

/-- A write of a register of the die that holds it. -/
def Chip.writeReg (c : Chip) (m : Master) (d : DieId) (off : Nat) (v : Word) : Chip :=
  if (findReg off).isNone then c
  else if 0x004000 ≤ off && off ≤ herdUnit then c.writeUnit d off v
  else
    let c1 := if rwsMask off ≠ 0 && off ≠ 0x080004 && off ≠ 0x080008 then c.shadowWritten d off else c
    match off / 0x10000 with
    | 0x01 => c1.writeCfg m d off v
    | 0x08 => if isSlotCount off then c1.writeFields d off v else c1.writeSlot off v
    | 0x09 | 0x0A => c1.writeMotion off v
    | 0x0B | 0x0C => c1.writeLanes d off v
    | 0x0D => c1.writeCtrl d off v
    | 0x0E | 0x0F => c1.writeDramReg d off v
    | 0x11 => c1.writeEvt d off v
    | 0x12 => c1.writeChk m d off v
    | _ => c1.writeOther m d off v

/-- The control port may not reach this write now (R352). -/
def Chip.denied (c : Chip) (m : Master) (d : DieId) (off : Nat) (v : Word) : Bool := !c.mayClosed m && c.closedWrite d off v

/-- A write to an offset of a die (R14 to R19). A write that is denied changes nothing. -/
def Chip.busWrite (c : Chip) (m : Master) (d : DieId) (off : Nat) (v : Word) : Chip :=
  if off % 4 ≠ 0 || 2 ^ 24 ≤ off then c
  else if c.writeIgnored d off then c.whenB (d == .w && off == F.SLOT_ARM_CTRL_arm.off && bit v 30 && !bit v 31) (·.turnAwayArm)
  else match c.home d off with
    | none => c
    | some h =>
      if c.denied m h off v then c
      else if isTable off then c.writeTable h off v
      else c.writeReg m h off v

/-! ### Meanings -/

/-- Only SYS and CFG are reachable in recovery mode, and die E is held in reset (R343). -/
def Chip.reachable (c : Chip) (d : DieId) (off : Nat) : Bool :=
  c.hasDie d && (c.cfg.stage != .recovery || (d == .w && off < 0x020000))

/-- A register access of a master. -/
def State.nextAccess (s : State) (d : DieId) (off : Nat) (f : Chip → Chip) : Res :=
  s.nextChip fun c => if c.reachable d off then f c else c

/-- A read at an offset of a die meets a memory word that is poison: a table entry, or a span entry (R300). -/
def Chip.meetsPoison (c : Chip) (d : DieId) (off : Nat) : Bool :=
  match c.home d off with
  | some h =>
    c.tablePoison h off || (0x164000 ≤ off && off < 0x16C000 && (c.die h).evl.bad.contains ((off - 0x164000) / 32) &&
      readsLive (c.die h).evl.capture ((off - 0x164000) / 32) (off % 32 / 4))
  | none => false

/-- A core that has read poison takes a machine check (R300, R356). -/
def Chip.checkMaster (c : Chip) (m : Master) : Chip :=
  match m with
  | .mc k => c.machineCheck (targetDie k) k
  | .port => c

/-- A read returns its word to the master. A read that R352 closes to the control port returns none. -/
def Chip.readFor (c : Chip) (m : Master) (d : DieId) (off : Nat) : Chip :=
  if !c.mayClosed m && closedRead off then c
  else
    let r := c.busRead d off
    (r.2.emit (.readData m r.1)).whenB (off % 4 == 0 && c.meetsPoison d off) (·.checkMaster m)

/-- REGISTER_WRITE (R17). -/
def execRegisterWrite (m : Master) (d : DieId) (off : Nat) (v : Word) (s : State) : Res :=
  s.nextAccess d off fun c => c.busWrite m d off v

/-- RC_READ (R17, R19). -/
def execRcRead (m : Master) (d : DieId) (off : Nat) (s : State) : Res := s.nextAccess d off fun c => c.readFor m d off

/-- WIDE_LOW_WORD_READ (R20). -/
def execWideLowWordRead (m : Master) (d : DieId) (off : Nat) (s : State) : Res :=
  s.nextAccess d off fun c => c.readFor m d off

/-- SHADOW_COPY_WRITE (R348). -/
def execShadowCopyWrite (m : Master) (d : DieId) (off : Nat) (v : Word) (s : State) : Res :=
  s.nextAccess d off fun c => c.busWrite m d off v

/-- SPAN_ENTRY_CAPTURE_READ (R44). -/
def execSpanEntryCaptureRead (m : Master) (d : DieId) (idx : Nat) (s : State) : Res :=
  s.nextBus fun c => if c.hasDie d && idx < 1024 then c.readFor m d (0x164000 + 32 * idx) else c

/-- JOB_LOG_CAPTURE_READ (R359). -/
def execJobLogCaptureRead (m : Master) (d : DieId) (idx : Nat) (s : State) : Res :=
  s.nextChip fun c => if c.hasDie d && idx < 256 then c.readFor m d (0x014000 + 128 * idx) else c

/-- ERROR_LOG_CAPTURE_READ (R305). -/
def execErrorLogCaptureRead (m : Master) (d : DieId) (idx : Nat) (s : State) : Res :=
  s.nextBus fun c => if c.hasDie d && idx < 16 then c.readFor m d (0x0F1000 + 32 * idx) else c

/-- GRIST_ENABLE (R73). -/
def execGristEnable (_m : Master) (d : DieId) (s : State) : Res :=
  s.nextBus fun c => if c.hasDie d then c.writeGristCtrl d 1 else c

/-- GRIST_DISABLE (R74). -/
def execGristDisable (_m : Master) (d : DieId) (s : State) : Res :=
  s.nextBus fun c => if c.hasDie d then c.writeGristCtrl d 0 else c

/-- GRIST_FLUSH (R74): a write of GRIST_CTRL with enable and flush. -/
def execGristFlush (_m : Master) (d : DieId) (s : State) : Res :=
  s.nextBus fun c => if c.hasDie d && c.flag d F.GRIST_CTRL_enable then c.writeGristCtrl d 3 else c

/-- SHIFT_TABLE_WRITE (R102). -/
def execShiftTableWrite (m : Master) (d : DieId) (k : Nat) (v : Word) (s : State) : Res :=
  s.nextBus fun c => if c.hasDie d && k < 256 then c.busWrite m d (0x920000 + 4 * k) v else c

/-- DEFL_ENABLE (R201). -/
def execDeflEnable (m : Master) (v : Word) (s : State) : Res := s.nextBus fun c => c.busWrite m .w 0x090000 v

/-- TIME_STEP (CTRL_TIME_STEP): the write of its high word. -/
def execTimeStep (m : Master) (v : Word) (s : State) : Res := s.nextBus fun c => c.busWrite m .w 0x0D011C v

/-- TIME_INC_WRITE (R270): the write of the word that puts the increment in force. -/
def execTimeIncWrite (m : Master) (v : Word) (s : State) : Res := s.nextBus fun c => c.busWrite m .w 0x0D0110 v

/-- BOOT_OK (R344). -/
def execBootOk (m : Master) (s : State) : Res := s.nextChip fun c => c.busWrite m .w 0x010008 1

end Sys2Proof.Machine
end

