-- ==== Sys2Proof/Machine/Boot.lean ====
section
/-! DEFINITION. Start-up (chapter 13, R338 to R344): images, their choice, the stages of boot, and core reloads (R356). The
stages advance at the commands RESET_RELEASE, IMAGE_VERIFY_COMPLETE, DRAM_FILL_COMPLETE, SWAP_POINT and BOOT_OK. -/

namespace Sys2Proof.Machine

/-! ### Images (R338 to R340) -/

/-- A directory entry of an image (R339). -/
structure Section where
  kind : Nat
  target : Nat
  flags : Nat
  off : Nat
  len : Nat
  crc : Nat
  deriving DecidableEq, Repr

/-- An image's header bytes, as a flash device holds them. -/
def imageHeader (f : List (Nat × Nat)) : List Nat := flashBytes f 0 128

/-- Bytes of the image's body. -/
def imageBodyLen (f : List (Nat × Nat)) : Nat := leAt (imageHeader f) 12 4

/-- The image's body. -/
def imageBody (f : List (Nat × Nat)) : List Nat := flashBytes f 128 (imageBodyLen f)

/-- magic, format, hdr_crc and the ranges of R338. -/
def headerOk (f : List (Nat × Nat)) : Bool :=
  let h := imageHeader f
  let n := leAt h 6 2
  let b := leAt h 12 4
  leAt h 0 4 = 0x454C4C4D && leAt h 4 2 = 1 && 1 ≤ n && n ≤ 64 && b % 64 = 0 && 64 ≤ b && b ≤ 33554432 &&
  crc32c (h.take 124) = leAt h 124 4

/-- The directory of an image (R339). -/
def imageSections (f : List (Nat × Nat)) : List Section :=
  (List.range (leAt (imageHeader f) 6 2)).map fun i =>
    let e := flashBytes f (128 + 16 * i) 16
    ⟨leAt e 0 2, leAt e 2 1, leAt e 3 1, leAt e 4 4, leAt e 8 4, leAt e 12 4⟩

/-- The bytes of a section. -/
def sectionBytes (f : List (Nat × Nat)) (x : Section) : List Nat := flashBytes f (128 + x.off) x.len

/-- Two sections share a byte. -/
def Section.overlaps (x y : Section) : Bool := x.off < y.off + y.len && y.off < x.off + x.len

/-- Every section lies within the body, after the directory, and overlaps no other. -/
def directoryOk (body : Nat) (l : List Section) : Bool :=
  16 * l.length ≤ body && l.all (fun x => 16 * l.length ≤ x.off && x.off + x.len ≤ body) &&
  (l.zipIdx).all fun p => (l.take p.2).all fun y => !(p.1.overlaps y)

/-- The herd settings section keeps the conditions of R368. -/
def herdSectionOk (b : List Nat) : Bool :=
  let mask := leAt b 1 1
  b.length = 32 && leAt b 0 1 = 1 && Nat.land (leAt b 2 1) mask = leAt b 2 1 && leAt b 3 1 ≤ 1 &&
  100 ≤ leAt b 4 2 && leAt b 4 2 ≤ 1000 && 10 ≤ leAt b 6 2 && leAt b 6 2 ≤ 10000 && nbit (leAt b 8 1) 0 &&
  leAt b 14 2 = 0 && leAt b 16 4 ≠ 0 && leAt b 20 12 = 0

/-- A section's type and flags are not reserved; a herd section that breaks R368 counts as reserved flags would. -/
def sectionKnown (f : List (Nat × Nat)) (x : Section) : Bool :=
  [0x01, 0x02, 0x10, 0x11, 0x12, 0x13, 0x20].contains x.kind && x.flags = 0 &&
  (x.kind ≠ 0x20 || herdSectionOk (sectionBytes f x))

/-- The first failure of an image (CFG_IMAGE.why); 0 is a valid image (R340). One of which an extent is torn fails its digest
(R429). -/
def imageWhy (f : List (Nat × Nat)) (torn : List (Nat × Nat)) : Nat :=
  if !headerOk f then 1
  else if torn.any (fun t => t.1 < 128 + imageBodyLen f) then 2
  else if sha256 (imageBody f) ≠ sliceBytes (imageHeader f) 80 32 then 2
  else
    let l := imageSections f
    if !directoryOk (imageBodyLen f) l then 3
    else if !(l.all fun x => crc32c (sectionBytes f x) = x.crc) then 4
    else if !(l.all (sectionKnown f)) then 5
    else if (l.filter fun x => x.kind = 1 && x.target = 0).length ≠ 1 then 6
    else 0

/-- The torn extents of a device: first byte, bytes. -/
def NonVolatile.tornOf (x : NonVolatile) (dev : Nat) : List (Nat × Nat) := (x.torn.filter (·.1 == dev)).map (·.2)

/-- An image as judged at boot. -/
def judgeImage (f torn : List (Nat × Nat)) : ImageInfo :=
  let why := imageWhy f torn
  ⟨leAt (imageHeader f) 8 4, why == 0, why⟩

/-! ### Choosing an image (R341 to R343) -/

/-- Source 229 and the herd settings of the running image (R368, R369). -/
def Chip.takeHerd (c : Chip) (f : List (Nat × Nat)) : Chip :=
  match (imageSections f).find? (·.kind = 0x20) with
  | none => c
  | some x =>
    let b := sectionBytes f x
    let t : HerdSettings :=
      { expected := leAt b 1 1, buckOk := leAt b 2 1, failover := leAt b 3 1 = 1, lat := leAt b 4 2, formMs := leAt b 6 2,
        groupMac := ofBe (sliceBytes b 8 6), crc := crc32c b }
    let c1 := c.onHerd fun h => { h with settings := some t }
    if c1.herdFits then { c1 with ownId := c1.herd.addr }
    else if nbit t.expected c1.herd.addr then c1 else c1.raise .w 229

/-- Target code of a core's sections: the local core, with the die in bit 7 (R339). -/
def coreTarget (d : DieId) (k : Nat) : Nat := k + (if d = .w then 0 else 128)

/-- The bytes that the sections of a kind give a core's memory: up to 1 MiB (R339); what lies beyond is not loaded (DESIGN CHOICE,
log entry 44). -/
def coreMemory (f : List (Nat × Nat)) (kind target : Nat) : List Nat :=
  (((imageSections f).filter fun x => x.kind = kind && x.target = target).flatMap (sectionBytes f)).take (2 ^ 20)

/-- A core is loaded from an image and starts; its watchdog runs from now (R339, R356). -/
def Chip.loadCore (c : Chip) (f : List (Nat × Nat)) (d : DieId) (k : Nat) : Chip :=
  c.onDie d (·.onMc k fun q => { q with
    state := .running, kickAt := c.now, code := coreMemory f 1 (coreTarget d k), data := coreMemory f 2 (coreTarget d k) })

/-- The cores are loaded from the image chosen, and start (R341, R344). -/
def Chip.startCores (c : Chip) (f : List (Nat × Nat)) : Chip :=
  c.forEach c.dies fun c d => (c.loadCore f d 0).loadCore f d 1

/-- Boot goes on with an image (R341, R342). -/
def Chip.runImage (c : Chip) (b fallback : Bool) : Chip :=
  let f := c.flash (b2n b)
  let h := imageHeader f
  let c1 := c.onCfg fun x => { x with
    imageB := b
    fallback := fallback
    keyX := ofBe (sliceBytes h 16 32)
    keyY := ofBe (sliceBytes h 48 32)
    dImg := sha256 (h ++ imageBody f)
    stage := .dram }
  ((c1.takeHerd f).startCores f).whenB fallback (·.raise .w 201)

/-- Recovery mode (R343): M is computed without an image, and die E is held in reset, so that the link is down. -/
def Chip.enterRecovery (c : Chip) : Chip :=
  let c1 := { c with e := .reset, evune := .reset }.onCfg fun x => { x with stage := .recovery }
  c1.setMeas c1.computeMeas

/-- Both images have been judged: the one to run is chosen (R341, R342). -/
def Chip.chooseImage (c : Chip) : Chip :=
  let a := judgeImage c.nv.flash0 (c.nv.tornOf 0)
  let b := judgeImage c.nv.flash1 (c.nv.tornOf 1)
  let c1 := c.onCfg fun x => { x with imageA := a, imageBInfo := b }
  let valid (i : Bool) : Bool := if i then b.valid else a.valid
  if (!a.valid && !b.valid) || 2 ≤ c.cfg.missed then c1.enterRecovery
  else
    let best := b.valid && (!a.valid || 0 < sdiff 32 b.seq a.seq)
    match c.cfg.forceImage with
    | some i => if valid i then c1.runImage i (0 < c.cfg.missed) else c1.runImage best false
    | none => c1.runImage best false

/-! ### What boot applies (R339, R344) -/

/-- An offset that no register, table entry or log window occupies. -/
def reservedOff (off : Nat) : Bool :=
  let a := baseOff off
  off % 4 ≠ 0 || !((findReg a).isSome && (a == off || rwsMask a != 0) ||
    (isTable off && (tableMask off ≠ 0 || (splitTable off && 0x8000 ≤ off % 0x10000 && tableMask (off - 0x8000) ≠ 0))) ||
    (0x071000 ≤ off && off < 0x071800) || (0x0F1000 ≤ off && off < 0x0F1200) || (0x0F2000 ≤ off && off < 0x0F3000))

/-- A configuration record (R339, R340): firmware writes it, or it is skipped and counted. -/
def Chip.configRecord (c : Chip) (addr : Nat) (v : Word) : Chip :=
  let d : DieId := if nbit addr 27 then .e else .w
  let off := addr % 2 ^ 24
  let block := off / 0x10000
  if addr / 2 ^ 24 % 8 ≠ 0 || !c.hasDie d || block = 0x01 || block = 0x12 || block = 0x16 || reservedOff off then
    c.onCfg fun x => { x with recSkipped := min 511 (x.recSkipped + 1) }
  else c.busWrite (.mc 0) d off v

/-- Lane presets of a die (section 0x0012); 0xFF is none. -/
def Chip.takePresets (c : Chip) (d : DieId) (b : List Nat) : Chip :=
  let set (c : Chip) (grist : Bool) (l v : Nat) : Chip := if v < 8 then c.onPhy d grist l fun p => { p with preset := v } else c
  let c1 := (List.range 68).foldl (fun c l => set c false l (leAt b l 1)) c
  (List.range 16).foldl (fun c l => set c true l (leAt b (68 + l) 1)) c1

/-- A port's MAC address, as a number with its first byte highest. -/
def Chip.setMac (c : Chip) (d : DieId) (mac : Nat) : Chip :=
  c.onDie d fun x => (x.setReg 0x0D0008 (word (mac % 2 ^ 32))).setReg 0x0D000C (word (mac / 2 ^ 32 % 65536))

/-- The default MAC address of a port (R339). -/
def defaultMac (d : DieId) : Nat := (if d = .w then 0x024B4C else 0x024B4D) * 2 ^ 24 + Config.serial.toNat % 2 ^ 24

/-- One section of the running image is applied. -/
def Chip.takeSection (c : Chip) (f : List (Nat × Nat)) (x : Section) : Chip :=
  let b := sectionBytes f x
  let d : DieId := if x.target = 1 then .e else .w
  let ws := (List.range (x.len / 4)).map fun i => leAt b (4 * i) 4
  if x.kind = 0x11 then (if c.hasDie d then c.forEach ws fun c v => c.retireCmd d (word (v % 2 ^ 23 + 2 ^ 31)) else c)
  else if x.kind = 0x12 then (if c.hasDie d then c.takePresets d b else c)
  else if x.kind = 0x13 then (c.setMac .w (ofBe (sliceBytes b 0 6))).setMac .e (ofBe (sliceBytes b 6 6))
  else if x.kind = 0x10 then
    c.forEach (List.range (x.len / 8)) fun c i => c.configRecord (ws.getD (2 * i) 0) (word (ws.getD (2 * i + 1) 0))
  else c

/-- The retire list, MAC addresses, presets and configuration records are applied, in this order, and the initial swap is
armed (R344). -/
def Chip.applyImage (c : Chip) : Chip :=
  let f := c.flash (b2n c.cfg.imageB)
  let l := imageSections f
  let c1 := [0x11, 0x13, 0x12, 0x10].foldl (fun c k => (l.filter (·.kind = k)).foldl (fun c x => c.takeSection f x) c) c
  (c1.onCfg fun x => { x with stage := .configuration }).beginSwap none true

/-! ### Meanings -/

/-- Reset is released (R344): the boot counter advances and saturates (R412); local time starts, Evune training begins, and the
module id is read from HERD_ADDR (R369). -/
def Chip.release (c : Chip) (straps : Nat) : Chip :=
  let n := min (2 ^ 32 - 1) (c.nv.bootCount + 1)
  let c1 : Chip := { c with
    now := 0, time := 0, nv := { c.nv with bootCount := n }, cfg := { c.cfg with stage := .image, releasedAt := 0 }
    pwr := { c.pwr with coolSince := none }
    herd := { c.herd with addr := straps % 8 }
    evune := if c.two then { c.evune with link := .training, since := 0 } else c.evune }
  (c1.forEach c1.dies fun c d => c.setMac d (defaultMac d)).markStart

/-- RESET_RELEASE (R344, R423, R427): once the supply is good, no trip holds the reset, and on every die the reference is present
and the PLL has locked. `straps` are the levels of HERD_ADDR. -/
def execResetRelease (straps : Nat) (s : State) : Res :=
  s.nextSupply fun c =>
    if !c.running && c.pwr.good && !c.pwr.hot && c.pwr.fault.isNone && !c.pwr.noClockW && !(c.two && c.pwr.noClockE) then
      c.release straps
    else c

/-- IMAGE_VERIFY_COMPLETE (R341). -/
def execImageVerifyComplete (s : State) : Res :=
  s.nextChip fun c => if c.cfg.stage == .image then c.chooseImage else c

/-- DRAM_FILL_COMPLETE (R291): the boot fill, once the channels are trained, or a fill of DRAM_FILL_CTRL, once its budget has
let every transaction through. -/
def execDramFillComplete (d : DieId) (s : State) : Res :=
  s.nextAll fun s =>
    let x := (s.chip.die d).dram
    if !s.chip.hasDie d then s
    else if s.chip.bootFilling d then
      (s.bootFill d).onChip fun c => if c.dies.all fun y => (c.die y).dram.active then c.applyImage else c
    else match x.fills with
    | [] => s
    | f :: _ => if x.active && x.fillDone f then s.fillArea d f else s

/-- BOOT_DEADLINE (R342): CFG_BOOT_OK has not been written within 3,500 ms of reset release. -/
def execBootDeadline (s : State) : Res :=
  s.nextChip fun c =>
    match c.cfg.stage with
    | .image => if 3500 * msTicks ≤ c.now then (c.noteReset 8).moduleReset (c.cfg.missed + 1) none else c
    | .dram | .configuration | .lanes =>
      if 3500 * msTicks ≤ c.now then (c.noteReset 8).moduleReset (c.cfg.missed + 1) (some (!c.cfg.imageB)) else c
    | .held | .ready | .recovery => c

/-- The sections of a core match their CRCs in the running image (R356). -/
def Chip.coreSectionsOk (c : Chip) (d : DieId) (k : Nat) : Bool :=
  let f := c.flash (b2n c.cfg.imageB)
  ((imageSections f).filter fun x => (x.kind = 1 || x.kind = 2) && x.target = coreTarget d k).all fun x =>
    crc32c (sectionBytes f x) = x.crc

/-- CORE_RELOAD_COMPLETE (R356): the core restarts, or stays stopped when a section fails its CRC. -/
def execCoreReloadComplete (d : DieId) (k : Nat) (s : State) : Res :=
  s.nextChip fun c =>
    if c.hasDie d && k < 2 && ((c.die d).mc k).state == .reloading then
      if c.coreSectionsOk d k then
        (c.loadCore (c.flash (b2n c.cfg.imageB)) d k).raise d 215
      else (c.onDie d (·.onMc k fun q => { q with state := .stopped })).raise d 217
    else c

end Sys2Proof.Machine
end

