-- ==== Sys2Proof/Machine/Ctrl.lean ====
section
/-! DEFINITION. The control ports (chapter 9): control requests and replies (R264 to R268), the host message channel
(R269), the ordinary clock (R272, R273, R275, R276) and the schedule window (R274). -/

namespace Sys2Proof.Machine

/-- Change a die's port. -/
def Chip.onPort (c : Chip) (d : DieId) (f : Port → Port) : Chip := c.onDie d fun x => { x with port := f x.port }

/-- A port carries frames: its die is there, out of reset, and it has a link. Die E is held in reset in recovery (R343). -/
def Chip.portUp (c : Chip) (p : DieId) : Bool :=
  c.hasDie p && (c.die p).port.link

/-! ### Frames leave (R274) -/

/-- Time of a frame of a PDU on the line at 10 Gbit/s, in ns rounded up: preamble, headers, padding and FCS. -/
def frameNs (f : PortFrame) : Nat :=
  let tag := if f.tag.isSome then 4 else 0
  ((8 + max 64 (14 + tag + f.bytes.length + 4)) * 4 + 4) / 5

/-- Room left in the open window for a frame that would begin `wait` ns from now: `none` while the window never closes. -/
def Chip.windowRoom (c : Chip) (p : DieId) (wait : Nat) : Option Nat :=
  let cycle := max 1 (c.fld p F.CTRL_SCHED_CYCLE_ns)
  let opened := c.fld p F.CTRL_SCHED_OPEN_ns
  if cycle ≤ opened then none
  else
    let at' := ((c.timeNs + wait : Nat) - (c.fld p F.CTRL_SCHED_PHASE_ns : Int)) % (cycle : Int)
    some (opened - at'.toNat)

/-- A frame that would begin `wait` ns from now ends within the window, or none is in force (R274). -/
def Chip.mayLaunch (c : Chip) (p : DieId) (wait : Nat) (f : PortFrame) : Bool :=
  !c.flag p F.CTRL_MSG_CFG_sched_en ||
  match c.windowRoom p wait with
  | none => true
  | some n => frameNs f ≤ n

/-- A frame leaves, behind those launched before it. -/
def Chip.sendFrame (c : Chip) (p : DieId) (f : PortFrame) : Chip :=
  (c.onPort p fun x => { x with lineFree := max c.now x.lineFree + frameNs f + 10 }).emit (.frame p f.tag f.dst f.bytes)

/-- Frames leave in order, one behind the other, while they end within the window; the rest waits. -/
def Chip.flushHeld (c : Chip) (p : DieId) : List PortFrame → Chip
  | [] => c.onPort p fun x => { x with held := [] }
  | f :: l =>
    if c.mayLaunch p ((c.die p).port.lineFree - c.now) f then Chip.flushHeld (c.sendFrame p f) p l
    else c.onPort p fun x => { x with held := f :: l }

/-- A frame is sent, or waits for the window behind those that wait already. -/
def Chip.launch (c : Chip) (p : DieId) (f : PortFrame) : Chip :=
  let held := (c.die p).port.held
  if c.flag p F.CTRL_MSG_CFG_sched_en && !held.isEmpty then c.onPort p fun x => { x with held := held ++ [f] }
  else c.flushHeld p (held ++ [f])

/-- Frames that still wait when sched_en is 0 leave at once (R274). -/
def Chip.flushOpen (c : Chip) (p : DieId) : Chip :=
  let held := (c.die p).port.held
  if held.isEmpty || c.flag p F.CTRL_MSG_CFG_sched_en || !c.portUp p then c else c.flushHeld p held

/-- A schedule window that has opened in the tick (R274, R276). -/
def Chip.openWindow (c : Chip) (p : DieId) : Chip :=
  if !(c.die p).port.openDue then c
  else
    let c1 := c.onPort p fun x => { x with openDue := false }
    if c1.portUp p then c1.flushHeld p (c1.die p).port.held else c1

/-! ### Control requests (R265 to R268) -/

/-- The fields of a control PDU's header. -/
structure Pdu where
  version : Nat
  op : Nat
  seq : Nat
  count : Nat
  status : Nat
  flags : Nat
  addr : Nat
  rest : Nat
  deriving DecidableEq, Repr

/-- The header of a PDU's bytes (R265). -/
def readPdu (b : List Nat) : Pdu :=
  ⟨leAt b 0 1, leAt b 1 1, leAt b 2 2, leAt b 4 2, leAt b 6 1, leAt b 7 1, leAt b 8 4, leAt b 12 4⟩

/-- Die that a request addresses. -/
def Pdu.die (x : Pdu) : DieId := if nbit x.addr 27 then .e else .w

/-- Offset of the `i`-th word of a request. -/
def Pdu.off (x : Pdu) (i : Nat) : Nat := x.addr % 2 ^ 24 + (if nbit x.flags 0 then 4 * i else 0)

/-- The length of a PDU with `n` bytes of data: exact, or that of a frame of minimum size with zeros after the data. -/
def lengthOk (b : List Nat) (tag : Option Nat) (n : Nat) : Bool :=
  b.length = 16 + n || (b.length = (if tag.isSome then 42 else 46) && 16 + n ≤ b.length && (b.drop (16 + n)).all (· == 0))

/-- Status 0x01 (R266, R372; in recovery only SYS and CFG of die W are reachable, R343: on a die the module has). -/
def Chip.malformed (c : Chip) (x : Pdu) (b : List Nat) (tag : Option Nat) : Bool :=
  let group := x.addr / 2 ^ 28 = 0xF
  (x.op ≠ 1 && x.op ≠ 2) || x.count = 0 || 256 < x.count || x.status ≠ 0 || 1 < x.flags || x.rest ≠ 0 ||
  !lengthOk b tag (if x.op = 2 then 4 * x.count else 0) || x.addr / 2 ^ 24 % 8 ≠ 0 || x.addr % 4 ≠ 0 ||
  2 ^ 24 ≤ x.off (x.count - 1) || (group && x.op = 1) ||
  (group && x.op = 2 && (List.range x.count).any fun i => isFlashOff (x.off i)) ||
  (c.cfg.stage == .recovery && c.hasSilicon x.die && (x.die == .e || (List.range x.count).any fun i => 0x020000 ≤ x.off i))

/-- A reply PDU: the request's fields, with the status, this module's id and the data. -/
def Chip.replyPdu (c : Chip) (x : Pdu) (status : Nat) (data : List Nat) : List Nat :=
  [1, (if x.op < 128 then x.op + 128 else x.op)] ++ leBytes 2 x.seq ++ leBytes 2 x.count ++ [status, x.flags] ++
  leBytes 4 (x.addr % 2 ^ 28 + 2 ^ 28 * (c.ownId % 8)) ++ [0, 0, 0, 0] ++ data

/-- The last request of a source address, as a port remembers it. -/
def Port.lastOf (x : Port) (mac : Nat) : Option Replay := x.replay.find? (·.mac == mac)

/-- A request of an address becomes its last; the 8 addresses heard last are kept, newest first (R268). -/
def Port.remember (x : Port) (r : Replay) : Port :=
  { x with replay := (r :: x.replay.filter (·.mac != r.mac)).take 8 }

/-- The reply of a forwarded request is kept if it is still its address' last (R268). -/
def Port.answer (x : Port) (r : Replay) : Port :=
  { x with replay := x.replay.map fun y => if y = { r with reply := none } then r else y }

/-- A reply leaves a port, counted if its status is not 0 (R266). -/
def Chip.postReply (c : Chip) (p : DieId) (status : Nat) (f : PortFrame) : Chip :=
  (if status = 0 then c else c.bump p F.CTRL_REQ_ERR_COUNT_count).launch p f

/-- The reply of a request that the receiving die answered itself, kept for a repeated request (R266, R268). -/
def Chip.sendReply (c : Chip) (p : DieId) (src : Nat) (tag : Option Nat) (x : Pdu) (status : Nat) (data : List Nat) : Chip :=
  let f : PortFrame := ⟨tag, src, c.replyPdu x status data⟩
  (c.onPort p (·.remember ⟨src, x.seq, some f⟩)).postReply p status f

/-- The reply of a request that was forwarded. -/
def Chip.sendLate (c : Chip) (p : DieId) (q : Fwd) (status : Nat) (data : List Nat) : Chip :=
  let x := readPdu q.pdu
  let f : PortFrame := ⟨q.tag, q.src, c.replyPdu x status data⟩
  (c.onPort p (·.answer ⟨q.src, x.seq, some f⟩)).postReply p status f

/-- The words of a READ, in order (R267). -/
def Chip.readWords (c : Chip) (d : DieId) : List Nat → List Nat × Chip
  | [] => ([], c)
  | off :: l =>
    let r := c.busRead d off
    let t := r.2.readWords d l
    (leBytes 4 r.1.toNat ++ t.1, t.2)

/-- The words of a WRITE, in order (R267). A write that resets the module ends them. -/
def Chip.writeWords (c : Chip) (d : DieId) : List (Nat × Word) → Chip
  | [] => c
  | p :: l => if c.running then (c.busWrite .port d p.1 p.2).writeWords d l else c

/-- A request is executed on the die it addresses, which judges status 0x03 (R267): status, data, state. -/
def Chip.perform (c : Chip) (x : Pdu) (b : List Nat) : Nat × List Nat × Chip :=
  let d := x.die
  let offs := (List.range x.count).map x.off
  if x.op = 1 then
    if !c.portOpen && offs.any closedRead then (3, [], c)
    else
      let r := c.readWords d offs
      (0, r.1, r.2)
  else
    let ws := (List.range x.count).map fun i => (x.off i, word (leAt b (16 + 4 * i) 4))
    if ws.any fun p => c.denied .port ((c.home d p.1).getD d) p.1 p.2 then (3, [], c)
    else (0, [], c.writeWords d ws)

/-- A request that is not a repetition. Where several statuses apply, the version is judged first, then the form, then the
die; R266 and R267 give no order (DESIGN CHOICE, log entry 47). -/
def Chip.freshRequest (c : Chip) (p : DieId) (src : Nat) (tag : Option Nat) (b : List Nat) (x : Pdu) : Chip :=
  if x.version ≠ 1 then c.sendReply p src tag x 5 []
  else if c.malformed x b tag then c.sendReply p src tag x 1 []
  else if !c.hasDie x.die then c.sendReply p src tag x 2 []
  else if x.die = p then
    let r := c.perform x b
    if r.2.2.running then r.2.2.sendReply p src tag x r.1 r.2.1 else r.2.2
  else c.onPort p fun y =>
    { (y.remember ⟨src, x.seq, none⟩) with fwd := y.fwd ++ [⟨src, tag, b, c.now, false⟩] }

/-- A control request arrives at a port (R264 to R268). A repeated request is not executed again; its address is the one heard
last all the same. -/
def Chip.request (c : Chip) (p : DieId) (src : Nat) (tag : Option Nat) (b : List Nat) : Chip :=
  let x := readPdu b
  let id := x.addr / 2 ^ 28
  if id ≠ 0xF && id ≠ c.ownId then c.bump p F.CTRL_RX_DISCARD_COUNT_count
  else match (c.die p).port.lastOf src with
    | some r =>
      if r.seq = x.seq then
        let c1 := c.onPort p (·.remember r)
        match r.reply with
        | some f => c1.launch p { f with tag := tag }
        | none => c1
      else c.freshRequest p src tag b x
    | none => c.freshRequest p src tag b x

/-! ### The host message channel (R269) -/

/-- The host's MAC address. -/
def Chip.hostMac (c : Chip) (d : DieId) : Nat :=
  c.fld d F.CTRL_HOST_MAC_mac_low + 2 ^ 32 * c.fld d F.CTRL_HOST_MAC_1_mac_high

/-- The 16 bytes of an entry. -/
def Chip.entryBytes (c : Chip) (e : MsgEntry) : List Nat :=
  [e.kind, e.source, e.count % 256, 0] ++ (c.timeWords e.time).flatMap (leBytes 4)

/-- A MSG PDU. -/
def Chip.msgPdu (c : Chip) (d : DieId) (m : OutMsg) : List Nat :=
  [1, 0x10] ++ leBytes 2 m.seq ++ leBytes 2 m.entries.length ++ [0, 2 * b2n m.lost] ++
  leBytes 4 (2 ^ 28 * (c.ownId % 8) + 2 ^ 27 * dieBit d) ++ [0, 0, 0, 0] ++ m.entries.flatMap c.entryBytes

/-- A MSG leaves, through the die's own port or the other die's. -/
def Chip.emitMsg (c : Chip) (d : DieId) (m : OutMsg) : Chip :=
  match c.msgPort d with
  | some p => c.launch p ⟨none, c.hostMac d, c.msgPdu d m⟩
  | none => c

/-- Up to 32 queued entries become the MSG outstanding. -/
def Chip.sendMsg (c : Chip) (d : DieId) : Chip :=
  let x := (c.die d).port
  let seq := (x.seq + 1) % 65536
  let m : OutMsg := ⟨seq, x.lostFlag, x.queue.take 32, c.now, false⟩
  (c.onPort d fun x => { x with seq := seq, lostFlag := false, queue := x.queue.drop 32, outstanding := some m }).emitMsg d m

/-- A retry that fell due in the tick is sent, if it is still awaited (R276). -/
def Chip.retryEnd (c : Chip) (d : DieId) : Chip :=
  match (c.die d).port.outstanding with
  | some m =>
    if m.again then
      let m' := { m with sentAt := c.now, again := false }
      (c.onPort d fun x => { x with outstanding := some m' }).emitMsg d m'
    else c
  | none => c

/-! ### The ordinary clock (R272, R273, R275) -/

/-- Change the clock. -/
def Chip.onPtp (c : Chip) (f : Ptp → Ptp) : Chip := { c with ptp := f c.ptp }

/-- Stamps of an event message at a port, corrected by CTRL_TS_LAT (R272). -/
def Chip.rxStamp (c : Chip) (p : DieId) : Int := (c.timeNs : Int) - c.fld p F.CTRL_TS_LAT_rx_ns
def Chip.txStamp (c : Chip) (p : DieId) : Int := (c.timeNs : Int) + c.fld p F.CTRL_TS_LAT_tx_ns

/-- Ticks of 2^n s. -/
def syncTicks (n : Int) : Nat := if 0 ≤ n then sTicks * 2 ^ n.toNat else sTicks / 2 ^ (-n).toNat

/-- The filtered mean path delay in ns, as CTRL_PTP_MPD reports it. -/
def Ptp.mpdNs (x : Ptp) : Int := (x.mpd16.map fun m => roundDiv m 16).getD 0

/-- A measured offset from the master is reported and handed to the servo. What the servo makes of it is not specified:
the increment, and when it is locked, are open values. -/
def Chip.servo (c : Chip) (offset : Int) : Chip :=
  let v := toBits 32 (clampI (-(2 ^ 31)) (2 ^ 31 - 1) offset)
  let c1 := c.put .w F.CTRL_PTP_OFFSET_value v
  let inc := c1.freshBelow (2 ^ 40)
  let lock := inc.2.freshBelow 2
  let c2 := lock.2.puts .w [(F.CTRL_TIME_INC_frac, inc.1), (F.CTRL_TIME_INC_1_ns, inc.1 / 2 ^ 32)]
  { c2 with
    inc := inc.1
    ptp := { c2.ptp with
      offset := offset, state := if c2.ptp.state == .locked || lock.1 = 1 then .locked else .locking } }

/-- A Sync has returned, or an offset is measured on the port moved to: a holdover without Sync ends; after a step met in
it, holdover goes on for holdover_ms (R275, R276). -/
def Chip.endSyncHold (c : Chip) : Chip :=
  if c.ptp.state != .holdSync then c
  else if c.ptp.stepInHold then c.onPtp fun x => { x with state := .holdStep, stepInHold := false, holdSince := c.now }
  else c.onPtp fun x => { x with state := .locking }

/-- The receive-minus-origin time of a Sync is known. -/
def Chip.syncMeasured (c : Chip) (d : Int) : Chip :=
  let c1 := c.onPtp fun x => { x with t2mt1 := some d, syncRx := none }
  match c1.ptp.mpd16 with
  | none => c1
  | some _ =>
    let c2 := c1.endSyncHold.onPtp fun x => { x with moved := false }
    if c2.ptp.state == .holdStep then c2 else c2.servo (d - c2.ptp.mpdNs)

/-- A path-delay step (R275). -/
def Chip.pathStep (c : Chip) (m : Int) : Chip :=
  let c1 := (c.raise c.ptp.port 133).bump .w F.CTRL_PTP_STEP_COUNT_value
  c1.onPtp fun x =>
    let y := { x with outlier := none, stepRef := some m }
    if x.state == .holdSync then { y with stepInHold := true } else { y with state := .holdStep, holdSince := c.now }

/-- A measurement of the mean path delay (R275). In a holdover those near the delay that its step led to are discarded and
counted, and are no further step: the holdover of the rule's table ends although they go on (DEDUCED, log entry 69). -/
def Chip.pathMeasured (c : Chip) (m : Int) : Chip :=
  let c0 := c.onPtp fun x => { x with lastMpd := m }
  let limit : Int := max 1 (c.fld .w F.CTRL_PTP_CFG_step_ns)
  let accept (c : Chip) (f : Int) : Chip :=
    let c1 := c.onPtp fun x => { x with mpd16 := some f, outlier := none }
    c1.put .w F.CTRL_PTP_MPD_value (toBits 32 c1.ptp.mpdNs)
  match c.ptp.mpd16 with
  | none => accept c0 (16 * m)
  | some f =>
    let up : Bool := f < 16 * m
    if limit * 16 < (16 * m - f).natAbs then
      let c1 := c0.onPtp fun x => { x with discards := x.discards + 1 }
      if c.ptp.stepRef.any fun r => (m - r).natAbs ≤ limit then c1.onPtp fun x => { x with outlier := none }
      else if c.ptp.outlier == some up then c1.pathStep m
      else c1.onPtp fun x => { x with outlier := some up }
    else accept c0 (f + divZ (16 * m - f) 16)

/-- The module runs the ordinary clock: standing alone, or as the buck (R373). -/
def Chip.clockHere (c : Chip) : Bool := c.schedHere && c.cfg.stage != .recovery

/-- A list of numbers comes before another, the first difference deciding. -/
def lexBefore : List Nat → List Nat → Bool
  | a :: l, b :: m => a < b || (a == b && lexBefore l m)
  | _, _ => false

/-- A master is better than another (R273; the order of IEEE 1588's data set comparison, PRESUMED, log entry 69): of one
grandmaster the shorter way, of two the better data set. -/
def betterMaster (a b : Announce) : Bool :=
  let key (x : Announce) : List Nat := [x.priority1, x.clockClass, x.accuracy, x.variance, x.priority2, x.grandmaster]
  if a.grandmaster = b.grandmaster then lexBefore [a.steps, a.source] [b.steps, b.source] else lexBefore (key a) (key b)

/-- A master heard of counts (PRESUMED, log entry 69): the one followed, or one with two Announces within four intervals. -/
def Ptp.qualifies (x : Ptp) (now : Nat) (m : Foreign) : Bool :=
  m.ann.steps < 255 &&
  (x.parent == some m.ann.source || 2 ≤ (m.heard.filter fun t => now - t < 4 * syncTicks m.ann.logInterval).length)

/-- The clock follows the best master, of those heard within three of their intervals; a change of master voids the exchanges
under way. -/
def Ptp.choose (x : Ptp) (now : Nat) : Ptp :=
  let live := x.masters.filter fun m => m.heard.head?.any fun t => now - t < 3 * syncTicks m.ann.logInterval
  let best := (live.filter (x.qualifies now)).foldl (fun (b : Option Announce) m =>
    match b with
    | none => some m.ann
    | some a => if betterMaster m.ann a then some m.ann else some a) none
  let y := { x with masters := live, parent := best.map (·.source) }
  if y.parent == x.parent then y else { y with syncRx := none, t2mt1 := none, reqTx := none }

/-- An Announce is taken. -/
def Ptp.hearAnnounce (x : Ptp) (a : Announce) (now : Nat) : Ptp :=
  let old := ((x.masters.find? (·.ann.source == a.source)).map (·.heard)).getD []
  { x with masters := (x.masters.filter (·.ann.source != a.source)) ++ [⟨a, (now :: old).take 4⟩] }

/-- A Delay_Req message of the clock (R273; layout of IEEE 1588, PRESUMED, log entry 69). -/
def delayReqBytes (domain seq : Nat) : List Nat :=
  [0x01, 0x12, 0, 44, domain, 0, 0, 0] ++ List.replicate 12 0 ++ (leBytes 8 Config.clockIdentity).reverse ++ [0, 1] ++
    (leBytes 2 seq).reverse ++ [1, 0x7F] ++ List.replicate 10 0

/-- A message of the ordinary clock at its port (R273): it takes those of its domain from the master it follows. -/
def Chip.ptpMessage (c : Chip) (p : DieId) (m : PtpMsg) : Chip :=
  let own := c.fld .w F.CTRL_PTP_CFG_domain
  let c0 := c.onPtp (·.choose c.now)
  let mine (domain source : Nat) : Bool := domain == own && c0.ptp.parent == some source
  match m with
  | .unsupported => c0
  | .announce a => if a.domain == own then c0.onPtp fun x => (x.hearAnnounce a c.now).choose c.now else c0
  | .sync domain source seq t1 logInterval =>
    if !mine domain source then c0
    else
      let rx := c.rxStamp p
      let c1 := c0.onPtp fun x => { x with
        lastSync := c.now, syncInterval := syncTicks logInterval, syncRx := some rx, syncSeq := seq }
      let c2 := if c1.ptp.mpd16.isSome && !c1.ptp.moved then c1.endSyncHold else c1
      match t1 with
      | some t => c2.syncMeasured (rx - t)
      | none => c2
  | .followUp domain source seq t1 =>
    match c0.ptp.syncRx with
    | some rx => if mine domain source && seq == c0.ptp.syncSeq then c0.syncMeasured (rx - t1) else c0
    | none => c0
  | .delayReq =>
    let seq := (c0.ptp.reqSeq + 1) % 65536
    (c0.onPtp fun x => { x with reqTx := some (c.txStamp p), reqSeq := seq }).emit (.ptp p (delayReqBytes own seq))
  | .delayResp domain source seq t4 =>
    match c0.ptp.reqTx, c0.ptp.t2mt1 with
    | some t3, some a =>
      if mine domain source && seq == c0.ptp.reqSeq then
        (c0.onPtp fun x => { x with reqTx := none }).pathMeasured (divZ (a + (t4 - t3)) 2)
      else c0
    | _, _ => c0

/-- A port loses its link: the clock on it enters holdover, and with port_auto moves to the other port (R273). A holdover after a
path-delay step becomes one that lasts until Sync returns, and then for holdover_ms (R275, R276). -/
def Chip.portDown (c : Chip) (p : DieId) : Chip :=
  let c1 := c.onPort p fun x => { x with link := false }
  if c.ptp.port != p then c1
  else
    let c2 := c1.onPtp fun x => { x with state := .holdSync, stepInHold := x.stepInHold || x.state == .holdStep }
    if c.flag .w F.CTRL_PTP_CFG_port_auto && c.portUp p.other then c2.onPtp (·.moveTo p.other) else c2

/-- A port gains its link; the clock moves to it when its own port has none. -/
def Chip.portGains (c : Chip) (p : DieId) : Chip :=
  let c1 := c.onPort p fun x => { x with link := true }
  if c.ptp.port != p && !c.portUp c.ptp.port && c.flag .w F.CTRL_PTP_CFG_port_auto then c1.onPtp (·.moveTo p) else c1

/-! ### Meanings -/

/-- CONTROL_READ (R264 to R268): a frame of the control protocol addressed to the port, other than a WRITE, arrives.
PDUs that are no requests are not answered. -/
def execControlRead (p : DieId) (src : Nat) (tag : Option Nat) (pdu : List Nat) (s : State) : Res :=
  s.nextChip fun c =>
    let op := leAt pdu 1 1
    if c.portUp p && op ≠ 2 && op ≠ 0x81 && op ≠ 0x82 && op ≠ 0x10 && op ≠ 0x11 then c.request p src tag pdu else c

/-- CONTROL_WRITE (R264 to R268). -/
def execControlWrite (p : DieId) (src : Nat) (tag : Option Nat) (pdu : List Nat) (s : State) : Res :=
  s.nextChip fun c => if c.portUp p && leAt pdu 1 1 = 2 then c.request p src tag pdu else c

/-- FORWARDED_REQUEST (R267): the other die executes the oldest request forwarded to it, and its outcome is reported to the
receiving port, or the report is lost. -/
def execForwardedRequest (p : DieId) (reported : Bool) (s : State) : Res :=
  s.nextChip fun c =>
    match (c.die p).port.fwd.find? (!·.lost) with
    | none => c
    | some q =>
      if !c.evuneUp then c
      else
        let x := readPdu q.pdu
        let r := c.perform x q.pdu
        if !r.2.2.running then r.2.2
        else if reported then
          (r.2.2.onPort p fun y => { y with fwd := y.fwd.erase q }).sendLate p q r.1 r.2.1
        else r.2.2.onPort p fun y => { y with fwd := y.fwd.map fun z => if z = q then { z with lost := true } else z }

/-- FORWARD_TIMEOUT (R267): the other die has not answered within 100 µs. -/
def execForwardTimeout (p : DieId) (s : State) : Res :=
  s.nextChip fun c =>
    match (c.die p).port.fwd with
    | [] => c
    | q :: l =>
      if 100 * usTicks ≤ c.sinceTick q.sentAt then
        (c.onPort p fun y => { y with fwd := l }).sendLate p q 4 []
      else c

/-- FRAME_DISCARD (R264): a frame is discarded and counted unless it is one that the port accepts. -/
def execFrameDiscard (p : DieId) (dst etherType : Nat) (fcsOk : Bool) (s : State) : Res :=
  s.nextChip fun c =>
    let mine := dst = c.fld p F.CTRL_MAC_mac_low + 2 ^ 32 * c.fld p F.CTRL_MAC_1_mac_high ||
      (c.herdFits && (c.herd.settings.map (·.groupMac)) == some dst)
    if !c.portUp p || (fcsOk && ((etherType = 0x88B5 && mine) || etherType = 0x88F7)) then c
    else c.bump p F.CTRL_RX_DISCARD_COUNT_count

/-- MSG_SEND (R269). -/
def execMsgSend (d : DieId) (s : State) : Res :=
  s.nextChip fun c =>
    let x := (c.die d).port
    if c.hasDie d && x.outstanding.isNone && !x.queue.isEmpty && c.hostMac d ≠ 0 && (c.msgPort d).isSome then c.sendMsg d else c

/-- MSG_RETRY (R269): the MSG is sent again at the end of the tick, unless its acknowledgement arrives in it (R276). -/
def execMsgRetry (d : DieId) (s : State) : Res :=
  s.nextChip fun c =>
    match (c.die d).port.outstanding with
    | none => c
    | some m =>
      if max 1 (c.fld d F.CTRL_MSG_CFG_retry_us) * usTicks ≤ c.sinceTick m.sentAt && c.hostMac d ≠ 0 && (c.msgPort d).isSome then
        c.onPort d fun x => { x with outstanding := some { m with again := true } }
      else c

/-- MSG_ACK (R269). -/
def execMsgAck (d : DieId) (seq : Nat) (s : State) : Res :=
  s.nextChip fun c =>
    if ((c.die d).port.outstanding.map (·.seq)) == some seq then c.onPort d fun x => { x with outstanding := none } else c

/-- PTP_MESSAGE (R272, R273, R275). -/
def execPtpMessage (p : DieId) (msg : PtpMsg) (s : State) : Res :=
  s.nextChip fun c => if c.portUp p && c.clockHere && p == c.ptp.port then c.ptpMessage p msg else c

/-- SYNC_LOSS (R275): no Sync for 3 of their intervals. -/
def execSyncLoss (s : State) : Res :=
  s.nextChip fun c =>
    if (c.ptp.state == .locking || c.ptp.state == .locked) && c.clockHere && 3 * c.ptp.syncInterval ≤ c.sinceTick c.ptp.lastSync
    then c.onPtp fun x => { x with state := .holdSync }
    else c

/-- HOLDOVER_END (R275): the filter is reseeded, and the servo resumes from the next offset measured. -/
def execHoldoverEnd (s : State) : Res :=
  s.nextChip fun c =>
    if c.ptp.state == .holdStep && c.fld .w F.CTRL_PTP_CFG_holdover_ms * msTicks ≤ c.sinceTick c.ptp.holdSince then
      let c1 := c.onPtp fun x => { x with state := .locking, mpd16 := some (16 * x.lastMpd), outlier := none, stepRef := none }
      c1.put .w F.CTRL_PTP_MPD_value (toBits 32 c1.ptp.mpdNs)
    else c

/-- CONTROL_PORT_LINK_LOSS (R273). -/
def execControlPortLinkLoss (p : DieId) (s : State) : Res :=
  s.nextChip fun c => if c.portUp p then c.portDown p else c

/-- CONTROL_PORT_LINK_UP (R264, R273). -/
def execControlPortLinkUp (p : DieId) (s : State) : Res :=
  s.nextChip fun c => if c.hasDie p && !(c.die p).port.link then c.portGains p else c

/-- SCHEDULE_WINDOW_OPEN (R274): the frames that wait are launched while they fit, judged at the end of the tick, on the time
that a CTRL_TIME_STEP of the tick has stepped (R276). -/
def execScheduleWindowOpen (p : DieId) (s : State) : Res :=
  s.nextChip fun c => if c.portUp p then c.onPort p fun x => { x with openDue := true } else c

end Sys2Proof.Machine
end

