-- ==== Sys2Proof/Machine/Tick.lean ====
section
/-! DEFINITION. One core tick (log entry 2): what the module does of its own accord while no command waits. What the commands
of the ending tick have brought about is judged; then the clocks advance, and what falls due at its tick takes place. -/

namespace Sys2Proof.Machine

/-! ### The end of a tick -/

/-- What a die judges at the end of a tick: its Cask (R163), its ALIGN rounds, its port (R276), its lane recalibration (R403), its cores' sleep
(R335). -/
def Chip.endTickOn (c : Chip) (d : DieId) : Chip :=
  ((((((c.caskEnd d).judgeAlign d).retryEnd d).openWindow d).judgeRecal d).judgeSleep d 0).judgeSleep d 1

/-- The judgements that R318, R349, R393, R163, R276, R335 and the early ends of R187 put at the end of a tick. -/
def Chip.endTick (c : Chip) : Chip :=
  let c1 := c.fireDue.finishEnding.judgeDueSwap.judgeGates.finishSwap.calTick
  c1.forEach c1.dies fun c d => c.endTickOn d

/-! ### The clocks (R37, R40, R270) -/

/-- Ticks and local time advance. In a clock fault of die W a tick is one of the internal oscillator, and how much local
time that is, is not specified (R40). -/
def Chip.advanceClock (c : Chip) : Chip :=
  if c.w.clockFault then
    let r := c.freshBelow (2 ^ 40)
    { r.2 with now := c.now + 1, time := (c.time + r.1) % c.timeModulus }
  else { c with now := c.now + 1, time := (c.time + c.inc) % c.timeModulus }

/-! ### Frames that leave at their tick (R228, R230, R392) -/

/-- Fired slots of a die whose trigger is due: it leaves 80 ns after the slot. -/
def Blnk.triggersDue (x : Blnk) (now : Nat) : List SlotRec :=
  x.groups.flatMap fun g => g.slots.filter fun r => !r.sent && r.firedAt + 80 ≤ now

/-- DATA of the next stripe slot follows a trigger of the stripe (R228). -/
def Chip.nextData (c : Chip) (d : DieId) (r : SlotRec) : Chip :=
  match r.k, (c.die d).view with
  | some k, some v =>
    if v.exposing && (v.s0 + k) % m48 == r.slot && k + 1 < v.slots then
      c.launchData d v (k + 1) (c.now + dataTicks)
    else c
  | _, _ => c

/-- A due trigger leaves, and DATA follows it. -/
def Chip.sendTrigger (c : Chip) (d : DieId) (r : SlotRec) : Chip :=
  let c1 := (c.launchTrigger d r).nextData d r
  { c1 with herd := { c1.herd with launched := r.slot } }

/-- DATA of the next burst slot follows the trigger of a burst slot (R392). -/
def Chip.burstAhead (c : Chip) (slots : List Nat) : Chip :=
  if c.cal.phase == .slots && slots.contains c.sched.slot then
    c.forEach c.dies fun c d =>
      match c.burstHere d c.sched.burst with
      | some (b, code) => if c.slotsReach d then c.burstData d c.nextSlot b code (c.now + dataTicks) else c
      | none => c
  else c

/-- The DATA frames of stripe slot 0 on a die, from the copies that bind at S0, behind a trigger still in progress; rows that
are missing are noted (R230). They belong to the stripe whose start ends an earlier hold of the die (R29, R39). -/
def Chip.armDataOn (c : Chip) (d : DieId) : Chip :=
  match c.stripe? d c.sched.stripe with
  | none => c
  | some t =>
    if !c.slotsReach d then c
    else
      let x := (c.die d).blnk
      let v := c.viewNow d t.id t.job t.vFirst t.count c.nextSlot ((c.activeGeo d).slots t.count) x.failedLanes x.named
      let codes := if (c.die d).clockFault then [] else c.slotCodes d v t 0
      let missing := t.missing v 0
      let ends := max (c.now + frameTicks) (x.trigAt + dataTicks)
      (((c.emitData d v.s0 true codes x.named (c.now + frameTicks < x.trigAt + dataTicks)).countCapped d codes).noteLaunch d
        v.s0 ends).onSched
        fun x =>
          match d with
          | .w => { x with missingW := missing }
          | .e => { x with missingE := missing }

/-- After an arming the frames of stripe slot 0 leave, behind an idle trigger that is still due (R230). -/
def Chip.armFrames (c : Chip) : Chip :=
  let waiting := c.dies.any fun d => (c.die d).blnk.groups.any fun g => g.slots.any (!·.sent)
  if c.sched.armData && c.sched.armedAt < c.now && !waiting then
    let c1 := c.onSched fun x => { x with armData := false, missingW := [], missingE := [] }
    c1.forEach c1.dies fun c d => c.armDataOn d
  else c

/-- What the lanes send in a tick. -/
def Chip.laneTick (c : Chip) : Chip :=
  let due := c.dies.flatMap fun d => ((c.die d).blnk.triggersDue c.now).map fun r => (d, r)
  let c1 := c.forEach due fun c x => c.sendTrigger x.1 x.2
  (c1.burstAhead (due.map fun x => x.2.slot)).armFrames

/-! ### What falls due on a die, the herd -/

/-- What falls due on a die: entries that the host freed (R162), requests that waited for their budgets (R48), training
frames and return messages (R244, R259, R263), and the scrub lap (R302). -/
def Chip.dieTick (c : Chip) (d : DieId) : Chip :=
  (((((((c.caskTick d).budgetTick d).flushTrain d).flushGrTrain d).holdRounds d).flushReturn d).flushOpen d).judgeLap d

/-- A change of M is told to the herd (R366). -/
def Chip.measTick (c : Chip) : Chip :=
  if c.inHerd && c.herd.measSent ≠ c.measBytes then
    (c.onHerd fun x => { x with measSent := c.measBytes }).sendSync (.meas c.measBytes)
  else c

/-- One core tick of a module that is out of reset. -/
def Chip.coreTick (c : Chip) : Chip :=
  let c1 := c.endTick.advanceClock.markStart.schedTick.laneTick
  (c1.forEach c1.dies fun c d => c.dieTick d).measTick.judgeHerdWord.judgeWarns

/-- One core tick. A module held in reset only counts time (R423's cooling, R420's reset delay). -/
def Chip.tick (c : Chip) : Chip := if c.running then c.coreTick else { c with now := c.now + 1 }

/-- One core tick of the machine: reads of DRAM that waited are served as far as they now can be (R48, R280). -/
def State.tick (s : State) : State :=
  let t : State := { s with chip := s.chip.tick }
  if s.chip.running then (t.runReads .w).runReads .e else t

end Sys2Proof.Machine
end

