-- ==== Sys2Proof/Machine/Dispatch.lean ====
section
/-! DEFINITION. The meaning of each command: one arm per row of the table. -/

namespace Sys2Proof.Machine

/-- The effect of a command on everything but the queue of commands. -/
def exec (i : Instr) (s : State) : Host.Outcome State Fault Refusal :=
  match i with
  | .registerWrite m d off v => Sys2Proof.Machine.execRegisterWrite m d off v s
  | .rcRead m d off => Sys2Proof.Machine.execRcRead m d off s
  | .wideLowWordRead m d off => Sys2Proof.Machine.execWideLowWordRead m d off s
  | .shadowCopyWrite m d off v => Sys2Proof.Machine.execShadowCopyWrite m d off v s
  | .evuneLaneFail fromW lane => Sys2Proof.Machine.execEvuneLaneFail fromW lane s
  | .evuneTrainingTimeout => Sys2Proof.Machine.execEvuneTrainingTimeout s
  | .evuneRetrain => Sys2Proof.Machine.execEvuneRetrain s
  | .evuneLinkReturn maskWE maskEW latency => Sys2Proof.Machine.execEvuneLinkReturn maskWE maskEW latency s
  | .clockFault d => Sys2Proof.Machine.execClockFault d s
  | .clockFaultEnd d => Sys2Proof.Machine.execClockFaultEnd d s
  | .tunRowRelease d stripe row => Sys2Proof.Machine.execTunRowRelease d stripe row s
  | .logEntryWrite d => Sys2Proof.Machine.execLogEntryWrite d s
  | .evlRdIdxWrite m d v => Sys2Proof.Machine.execEvlRdIdxWrite m d v s
  | .evlClearOverflow m d halt => Sys2Proof.Machine.execEvlClearOverflow m d halt s
  | .spanEntryCaptureRead m d idx => Sys2Proof.Machine.execSpanEntryCaptureRead m d idx s
  | .budgetPeriodStart d => Sys2Proof.Machine.execBudgetPeriodStart d s
  | .gristBlockArrival d rounds => Sys2Proof.Machine.execGristBlockArrival d rounds s
  | .creditPeriodic d => Sys2Proof.Machine.execCreditPeriodic d s
  | .verifyDecodeStart d => Sys2Proof.Machine.execVerifyDecodeStart d s
  | .verifyDecodeEnd d read => Sys2Proof.Machine.execVerifyDecodeEnd d read s
  | .feedDecodeStart d => Sys2Proof.Machine.execFeedDecodeStart d s
  | .feedDecodeEnd d read fault => Sys2Proof.Machine.execFeedDecodeEnd d read fault s
  | .blockTreatedAsFed d => Sys2Proof.Machine.execBlockTreatedAsFed d s
  | .figuresCreditReturn d stripe seq => Sys2Proof.Machine.execFiguresCreditReturn d stripe seq s
  | .gristEnable m d => Sys2Proof.Machine.execGristEnable m d s
  | .gristDisable m d => Sys2Proof.Machine.execGristDisable m d s
  | .gristFlush m d => Sys2Proof.Machine.execGristFlush m d s
  | .rowDeadline d row => Sys2Proof.Machine.execRowDeadline d row s
  | .figureRecord d sram => Sys2Proof.Machine.execFigureRecord d sram s
  | .kilnStripeBind d stripe => Sys2Proof.Machine.execKilnStripeBind d stripe s
  | .kilnRowRasterize d stripe row run => Sys2Proof.Machine.execKilnRowRasterize d stripe row run s
  | .tasterCompareComplete d stripe tx ty mismatch => Sys2Proof.Machine.execTasterCompareComplete d stripe tx ty mismatch s
  | .kilnEngineEnWrite m d v => Sys2Proof.Machine.execKilnEngineEnWrite m d v s
  | .shiftTableWrite m d c v => Sys2Proof.Machine.execShiftTableWrite m d c v s
  | .stripeOpenReport d => Sys2Proof.Machine.execStripeOpenReport d s
  | .marginMessageSend d stripe row => Sys2Proof.Machine.execMarginMessageSend d stripe row s
  | .marginMessageReceive d => Sys2Proof.Machine.execMarginMessageReceive d s
  | .seamMismatchReceive d => Sys2Proof.Machine.execSeamMismatchReceive d s
  | .mapCheckComplete d => Sys2Proof.Machine.execMapCheckComplete d s
  | .caskChunkCommit d stream read flips => Sys2Proof.Machine.execCaskChunkCommit d stream read flips s
  | .caskPlayBind d stripe dir => Sys2Proof.Machine.execCaskPlayBind d stripe dir s
  | .caskChunkRead d stripe chunk read flips => Sys2Proof.Machine.execCaskChunkRead d stripe chunk read flips s
  | .caskFreeEntry m d entry => Sys2Proof.Machine.execCaskFreeEntry m d entry s
  | .caskFreeAll m d => Sys2Proof.Machine.execCaskFreeAll m d s
  | .caskEnable m d effort => Sys2Proof.Machine.execCaskEnable m d effort s
  | .caskDisable m d effort => Sys2Proof.Machine.execCaskDisable m d effort s
  | .caskEntryFreed d entry => Sys2Proof.Machine.execCaskEntryFreed d entry s
  | .positionWord ch errors control bytes => Sys2Proof.Machine.execPositionWord ch errors control bytes s
  | .positionLockAcquire ch => Sys2Proof.Machine.execPositionLockAcquire ch s
  | .positionLockLoss ch symbols => Sys2Proof.Machine.execPositionLockLoss ch symbols s
  | .coastExpiry ch => Sys2Proof.Machine.execCoastExpiry ch s
  | .stillTimeout ch => Sys2Proof.Machine.execStillTimeout ch s
  | .channelEnable m ch => Sys2Proof.Machine.execChannelEnable m ch s
  | .channelDisable m ch => Sys2Proof.Machine.execChannelDisable m ch s
  | .channelRearm m ch => Sys2Proof.Machine.execChannelRearm m ch s
  | .slotFire => Sys2Proof.Machine.execSlotFire s
  | .overspeedEnd => Sys2Proof.Machine.execOverspeedEnd s
  | .idleSlotFire => Sys2Proof.Machine.execIdleSlotFire s
  | .slotArm m stripe => Sys2Proof.Machine.execSlotArm m stripe s
  | .slotDisarm m stripe => Sys2Proof.Machine.execSlotDisarm m stripe s
  | .stripeNotBegun => Sys2Proof.Machine.execStripeNotBegun s
  | .stripeStart => Sys2Proof.Machine.execStripeStart s
  | .compareFire n => Sys2Proof.Machine.execCompareFire n s
  | .stripeEnd => Sys2Proof.Machine.execStripeEnd s
  | .deflectionSample => Sys2Proof.Machine.execDeflectionSample s
  | .deflectionCheckComplete => Sys2Proof.Machine.execDeflectionCheckComplete s
  | .deflEnable m v => Sys2Proof.Machine.execDeflEnable m v s
  | .axisStepTick n => Sys2Proof.Machine.execAxisStepTick n s
  | .axisProfileTick n => Sys2Proof.Machine.execAxisProfileTick n s
  | .axisStillTimeout n => Sys2Proof.Machine.execAxisStillTimeout n s
  | .limitFilterChange n fwd => Sys2Proof.Machine.execLimitFilterChange n fwd s
  | .limitRawEdge n fwd => Sys2Proof.Machine.execLimitRawEdge n fwd s
  | .encoderTransition n a b heldA heldB => Sys2Proof.Machine.execEncoderTransition n a b heldA heldB s
  | .encoderIndexEdge n => Sys2Proof.Machine.execEncoderIndexEdge n s
  | .encoderSpeedEstimate n => Sys2Proof.Machine.execEncoderSpeedEstimate n s
  | .axisMove m n => Sys2Proof.Machine.execAxisMove m n s
  | .axisStop m n => Sys2Proof.Machine.execAxisStop m n s
  | .axisHome m n => Sys2Proof.Machine.execAxisHome m n s
  | .axisFaultStop m n => Sys2Proof.Machine.execAxisFaultStop m n s
  | .paramSegmentSend d => Sys2Proof.Machine.execParamSegmentSend d s
  | .bankLoadStart d => Sys2Proof.Machine.execBankLoadStart d s
  | .echoReceive d lane bytes => Sys2Proof.Machine.execEchoReceive d lane bytes s
  | .echoDeadline d => Sys2Proof.Machine.execEchoDeadline d s
  | .handoverToSpare m d lam => Sys2Proof.Machine.execHandoverToSpare m d lam s
  | .handback m d lam => Sys2Proof.Machine.execHandback m d lam s
  | .handoverWakeEnd d group => Sys2Proof.Machine.execHandoverWakeEnd d group s
  | .handoverAbandon d group => Sys2Proof.Machine.execHandoverAbandon d group s
  | .blnkEnable m d v => Sys2Proof.Machine.execBlnkEnable m d v s
  | .blnkDisable m d v => Sys2Proof.Machine.execBlnkDisable m d v s
  | .rxBlockLockGain d grist lane skip blocks => Sys2Proof.Machine.execRxBlockLockGain d grist lane skip blocks s
  | .rxBlockLockLoss d grist lane skip blocks => Sys2Proof.Machine.execRxBlockLockLoss d grist lane skip blocks s
  | .descramblerLockGain d grist lane skip blocks => Sys2Proof.Machine.execDescramblerLockGain d grist lane skip blocks s
  | .descramblerLockLoss d grist lane skip blocks => Sys2Proof.Machine.execDescramblerLockLoss d grist lane skip blocks s
  | .transitionWindowEnd d grist lane transitions skip blocks => Sys2Proof.Machine.execTransitionWindowEnd d grist lane transitions skip blocks s
  | .laneTrainCommand m d lane => Sys2Proof.Machine.execLaneTrainCommand m d lane s
  | .trainReportReceive d lane bytes eyeH eyeW errors => Sys2Proof.Machine.execTrainReportReceive d lane bytes eyeH eyeW errors s
  | .trainReportTimeout d lane eyeH eyeW errors => Sys2Proof.Machine.execTrainReportTimeout d lane eyeH eyeW errors s
  | .alignRound d blocks => Sys2Proof.Machine.execAlignRound d blocks s
  | .deskewTimeout d => Sys2Proof.Machine.execDeskewTimeout d s
  | .laneSetChange d => Sys2Proof.Machine.execLaneSetChange d s
  | .laneMessageResend d => Sys2Proof.Machine.execLaneMessageResend d s
  | .returnLaneSleep d => Sys2Proof.Machine.execReturnLaneSleep d s
  | .returnLaneWake d => Sys2Proof.Machine.execReturnLaneWake d s
  | .gristResync m d v => Sys2Proof.Machine.execGristResync m d v s
  | .gristLaneEnWrite m d v => Sys2Proof.Machine.execGristLaneEnWrite m d v s
  | .gristLaneTrainCommand m d lane => Sys2Proof.Machine.execGristLaneTrainCommand m d lane s
  | .gristTrainStepEnd d lane eyeH eyeW errors => Sys2Proof.Machine.execGristTrainStepEnd d lane eyeH eyeW errors s
  | .controlRead p src tag pdu => Sys2Proof.Machine.execControlRead p src tag pdu s
  | .controlWrite p src tag pdu => Sys2Proof.Machine.execControlWrite p src tag pdu s
  | .forwardedRequest p reported => Sys2Proof.Machine.execForwardedRequest p reported s
  | .forwardTimeout p => Sys2Proof.Machine.execForwardTimeout p s
  | .frameDiscard p dst etherType fcsOk => Sys2Proof.Machine.execFrameDiscard p dst etherType fcsOk s
  | .msgSend d => Sys2Proof.Machine.execMsgSend d s
  | .msgRetry d => Sys2Proof.Machine.execMsgRetry d s
  | .msgAck d seq => Sys2Proof.Machine.execMsgAck d seq s
  | .ptpMessage p msg => Sys2Proof.Machine.execPtpMessage p msg s
  | .syncLoss => Sys2Proof.Machine.execSyncLoss s
  | .holdoverEnd => Sys2Proof.Machine.execHoldoverEnd s
  | .controlPortLinkLoss p => Sys2Proof.Machine.execControlPortLinkLoss p s
  | .timeStep m v => Sys2Proof.Machine.execTimeStep m v s
  | .timeIncWrite m v => Sys2Proof.Machine.execTimeIncWrite m v s
  | .dramRead d client core addr flips early => Sys2Proof.Machine.execDramRead d client core addr flips early s
  | .pageRetireComplete d => Sys2Proof.Machine.execPageRetireComplete d s
  | .sramReadError d word poison => Sys2Proof.Machine.execSramReadError d word poison s
  | .retireCommand m d v => Sys2Proof.Machine.execRetireCommand m d v s
  | .refreshRateUpdate d t0 t1 t2 t3 => Sys2Proof.Machine.execRefreshRateUpdate d t0 t1 t2 t3 s
  | .refreshDue d channel bank wanted => Sys2Proof.Machine.execRefreshDue d channel bank wanted s
  | .selfRefreshEntry d channel => Sys2Proof.Machine.execSelfRefreshEntry d channel s
  | .dramTrainStart m d v => Sys2Proof.Machine.execDramTrainStart m d v s
  | .dramTrainComplete d misread => Sys2Proof.Machine.execDramTrainComplete d misread s
  | .dramDelayWrite m d channel lane v => Sys2Proof.Machine.execDramDelayWrite m d channel lane v s
  | .dramFillStart m d v => Sys2Proof.Machine.execDramFillStart m d v s
  | .dramFillComplete d => Sys2Proof.Machine.execDramFillComplete d s
  | .scrubRead d flips => Sys2Proof.Machine.execScrubRead d flips s
  | .sramScrubRead d region idx rewritten flips last => Sys2Proof.Machine.execSramScrubRead d region idx rewritten flips last s
  | .interlockInputDrop d input held => Sys2Proof.Machine.execInterlockInputDrop d input held s
  | .interlockInputRestore d input held => Sys2Proof.Machine.execInterlockInputRestore d input held s
  | .gateCloseReport d member => Sys2Proof.Machine.execGateCloseReport d member s
  | .forceClose m d alsoReopen => Sys2Proof.Machine.execForceClose m d alsoReopen s
  | .reopen m d => Sys2Proof.Machine.execReopen m d s
  | .ilkMaskWrite m d v => Sys2Proof.Machine.execIlkMaskWrite m d v s
  | .evtSet m d k v => Sys2Proof.Machine.execEvtSet m d k v s
  | .evtClr m d k v => Sys2Proof.Machine.execEvtClr m d k v s
  | .evtAck m d c => Sys2Proof.Machine.execEvtAck m d c s
  | .evtEoi m d c id => Sys2Proof.Machine.execEvtEoi m d c id s
  | .evtScan m d c => Sys2Proof.Machine.execEvtScan m d c s
  | .coreSleep d c => Sys2Proof.Machine.execCoreSleep d c s
  | .coreWake d c => Sys2Proof.Machine.execCoreWake d c s
  | .fallbackTimeout d source => Sys2Proof.Machine.execFallbackTimeout d source s
  | .remoteCandidate d c => Sys2Proof.Machine.execRemoteCandidate d c s
  | .takenMessage d => Sys2Proof.Machine.execTakenMessage d s
  | .evtTargetWrite m d n v => Sys2Proof.Machine.execEvtTargetWrite m d n v s
  | .evtModeWrite m d c v => Sys2Proof.Machine.execEvtModeWrite m d c v s
  | .hostQueueDelivery d => Sys2Proof.Machine.execHostQueueDelivery d s
  | .powerOn => Sys2Proof.Machine.execPowerOn s
  | .supplyGood => Sys2Proof.Machine.execSupplyGood s
  | .resetRelease straps => Sys2Proof.Machine.execResetRelease straps s
  | .imageVerifyComplete => Sys2Proof.Machine.execImageVerifyComplete s
  | .bootOk m => Sys2Proof.Machine.execBootOk m s
  | .bootDeadline => Sys2Proof.Machine.execBootDeadline s
  | .moduleReset => Sys2Proof.Machine.execModuleReset s
  | .resetCommand m => Sys2Proof.Machine.execResetCommand m s
  | .swapArm m mode => Sys2Proof.Machine.execSwapArm m mode s
  | .swapDisarm m mode => Sys2Proof.Machine.execSwapDisarm m mode s
  | .swapPrepareComplete d bad => Sys2Proof.Machine.execSwapPrepareComplete d bad s
  | .swapPoint => Sys2Proof.Machine.execSwapPoint s
  | .chkAcquire m d u algo => Sys2Proof.Machine.execChkAcquire m d u algo s
  | .chkRelease m d u algo => Sys2Proof.Machine.execChkRelease m d u algo s
  | .chkStart m d u algo => Sys2Proof.Machine.execChkStart m d u algo s
  | .chkData m d u v => Sys2Proof.Machine.execChkData m d u v s
  | .chkDataB m d u v => Sys2Proof.Machine.execChkDataB m d u v s
  | .chkRangeGo m d u v => Sys2Proof.Machine.execChkRangeGo m d u v s
  | .chkRangeComplete d u read good => Sys2Proof.Machine.execChkRangeComplete d u read good s
  | .maintChallenge m => Sys2Proof.Machine.execMaintChallenge m s
  | .maintVerify m => Sys2Proof.Machine.execMaintVerify m s
  | .maintVerifyComplete => Sys2Proof.Machine.execMaintVerifyComplete s
  | .maintClose m => Sys2Proof.Machine.execMaintClose m s
  | .maintExpiry => Sys2Proof.Machine.execMaintExpiry s
  | .watchdogKick m d c v => Sys2Proof.Machine.execWatchdogKick m d c v s
  | .watchdogExpiry d c => Sys2Proof.Machine.execWatchdogExpiry d c s
  | .coreRestart m d c v => Sys2Proof.Machine.execCoreRestart m d c v s
  | .coreReloadComplete d c => Sys2Proof.Machine.execCoreReloadComplete d c s
  | .measurementRecomputeComplete => Sys2Proof.Machine.execMeasurementRecomputeComplete s
  | .jlogRdIdxWrite m d v => Sys2Proof.Machine.execJlogRdIdxWrite m d v s
  | .jobLogCaptureRead m d idx => Sys2Proof.Machine.execJobLogCaptureRead m d idx s
  | .caskDirectoryCaptureRead m d idx => Sys2Proof.Machine.execCaskDirectoryCaptureRead m d idx s
  | .errorLogCaptureRead m d idx => Sys2Proof.Machine.execErrorLogCaptureRead m d idx s
  | .flashRead m device => Sys2Proof.Machine.execFlashRead m device s
  | .flashProgram m device => Sys2Proof.Machine.execFlashProgram m device s
  | .flashErase m device => Sys2Proof.Machine.execFlashErase m device s
  | .flashOperationDone failed => Sys2Proof.Machine.execFlashOperationDone failed s
  | .helloSend => Sys2Proof.Machine.execHelloSend s
  | .statusSend => Sys2Proof.Machine.execStatusSend s
  | .timeSend => Sys2Proof.Machine.execTimeSend s
  | .syncMessageReceive linkB skip blocks origin seq hops msg due short long => Sys2Proof.Machine.execSyncMessageReceive linkB skip blocks origin seq hops msg due short long s
  | .herdElection => Sys2Proof.Machine.execHerdElection s
  | .herdDecisionAct => Sys2Proof.Machine.execHerdDecisionAct s
  | .memberLoss id => Sys2Proof.Machine.execMemberLoss id s
  | .buckLoss => Sys2Proof.Machine.execBuckLoss s
  | .failoverElection => Sys2Proof.Machine.execFailoverElection s
  | .syncLinkLoss linkB => Sys2Proof.Machine.execSyncLinkLoss linkB s
  | .chainCheckRequest m v => Sys2Proof.Machine.execChainCheckRequest m v s
  | .chainCheckStart => Sys2Proof.Machine.execChainCheckStart s
  | .chainCheckComplete => Sys2Proof.Machine.execChainCheckComplete s
  | .calStepGo m v => Sys2Proof.Machine.execCalStepGo m v s
  | .calAbort m v => Sys2Proof.Machine.execCalAbort m v s
  | .calZeroComplete => Sys2Proof.Machine.execCalZeroComplete s
  | .calBurstStart => Sys2Proof.Machine.execCalBurstStart s
  | .calBurstSlot => Sys2Proof.Machine.execCalBurstSlot s
  | .calBurstComplete => Sys2Proof.Machine.execCalBurstComplete s
  | .laneRecalTurn d => Sys2Proof.Machine.execLaneRecalTurn d s
  | .laneRecalStart d => Sys2Proof.Machine.execLaneRecalStart d s
  | .calAdcSample x => Sys2Proof.Machine.execCalAdcSample x s
  | .sensorRead x v => Sys2Proof.Machine.execSensorRead x v s
  | .sensorFault x silent => Sys2Proof.Machine.execSensorFault x silent s
  | .supplyWarning vin held => Sys2Proof.Machine.execSupplyWarning vin held s
  | .supplyFault why value held => Sys2Proof.Machine.execSupplyFault why value held s
  | .supplyFaultReset => Sys2Proof.Machine.execSupplyFaultReset s
  | .railMarginLow dev held => Sys2Proof.Machine.execRailMarginLow dev held s
  | .powerAboveLimit power => Sys2Proof.Machine.execPowerAboveLimit power s
  | .herdDigestComplete => Sys2Proof.Machine.execHerdDigestComplete s
  | .controlPortLinkUp p => Sys2Proof.Machine.execControlPortLinkUp p s
  | .scheduleWindowOpen p => Sys2Proof.Machine.execScheduleWindowOpen p s

end Sys2Proof.Machine
end

