-- ==== Sys2Proof/Safety.lean ====
section
/-! DEFINITION. What counts as a safe state and a safe step, in the terms the statements use. -/

namespace Sys2Proof.Machine

/-- The stored words of a die's DRAM are in their canonical form: word indices rise, and no listed word is the poison word
that an unlisted one holds (R287, R291). -/
def Memory.wf (m : List (Nat × DWord)) : Bool := smWf (fun _ => poisonDWord) m

/-- Both dies' DRAM is in its canonical form. -/
def State.dramWf (s : State) : Bool := Memory.wf s.dramW && Memory.wf s.dramE

/-- The module is out of reset: commands act on it (R361). -/
abbrev State.runs (s : State) : Prop := s.chip.running = true

/-- The module is out of reset and not in recovery: every register block is reachable (R343). -/
abbrev State.serves (s : State) : Prop := s.chip.running = true ∧ s.chip.cfg.stage ≠ .recovery

/-- A command completes: `exec` answers the next state that has this chip, with the queue and both DRAMs as they were. -/
def Completes (i : Instr) (s : State) (c : Chip) : Prop := exec i s = .next { s with chip := c }

/-- Offsets of the block windows whose write does more than the access codes of the fields say (R17): the register's own
chapter gives the write a meaning, and most of them have a row of their own. -/
def actsOnWrite (off : Nat) : Bool :=
  (0x004000 ≤ off && off ≤ 0x006088) ||
  [0x010008, 0x01000C, 0x010100, 0x010304, 0x010400, 0x010404, 0x010500, 0x010604, 0x020000, 0x020004, 0x020008, 0x040008,
   0x070000, 0x070004, 0x070008, 0x070014, 0x070020, 0x070024, 0x070028, 0x07002C, 0x080004, 0x080008, 0x08001C, 0x0800C8,
   0x090000, 0x0A0000, 0x0A0004, 0x0A0100, 0x0A0104, 0x0B0000, 0x0B0008, 0x0C0404, 0x0C0800, 0x0C0890, 0x0D0110, 0x0D011C,
   0x0D0140, 0x0E0058, 0x0E0100, 0x0F0050, 0x100000, 0x100004, 0x100008, 0x10000C, 0x140000, 0x150014, 0x160000,
   0x160008].contains off ||
  (0x080100 ≤ off && off < 0x080180 && off % 16 = 8) || (0x0E0010 ≤ off && off < 0x0E002C) ||
  (0x110100 ≤ off && off < 0x110140) || (0x110400 ≤ off && off < 0x110880) || (0x120000 ≤ off && off < 0x130000)

/-- Offsets of the block windows whose read does no more than return the word, capture the upper words of a wide value and
clear RC bits (R17, R20): not the windows with a capture buffer of their own, the management cores' windows, and EVT_ACK and
EVT_SCAN. -/
def readsPlain (off : Nat) : Prop :=
  off % 4 = 0 ∧ off < 0x800000 ∧ (off < 0x014000 ∨ 0x020000 ≤ off) ∧ (off < 0x071000 ∨ 0x071800 ≤ off) ∧
  (off < 0x0F1000 ∨ 0x0F1200 ≤ off) ∧ (off < 0x110800 ∨ 0x110880 ≤ off) ∧ (off < 0x164000 ∨ 0x16C000 ≤ off)

end Sys2Proof.Machine
end

