-- ==== Sys2Proof/WellFormed.lean ====
section
/-! DEFINITION. Well-formed commands: every operand within the range that its field, index or address has in the spec. A
command outside these ranges is none of the hardware's; `exec` leaves the state as it is for most of them. -/

namespace Sys2Proof

/-- MC0 to MC3, or the control port. -/
def Master.wf : Master → Bool
  | .mc k => k < 4
  | .port => true

/-- An offset of a die's 16 MiB register space (R14). -/
def offWf (off : Nat) : Bool := off % 4 = 0 && off < 2 ^ 24

/-- A list of bytes. -/
def bytesWf (l : List Nat) : Bool := l.all (· < 256)

/-- An address in the table windows (R54). -/
def isEntry (a : Nat) : Bool := a % 4 = 0 && 0x800000 ≤ a && a < 0x960000

/-- A block of 66 bits. -/
def LineBlock.wf (b : LineBlock) : Bool := b.sync < 4 && b.payload < 2 ^ 64

/-- A word of the data path's SRAM that exists. -/
def SramWord.wf : SramWord → Bool
  | .tun _ a => a < 2 ^ 12
  | .remap b => b < 131072
  | .trim b => b < 131072
  | .walk s => s < 256
  | .defects => true
  | .directory e => e < 64
  | .spanEntry i => i < 1024
  | .core k => k < 2

/-- A sensor that exists. -/
def Sensor.wf : Sensor → Bool
  | .junction _ i => i < 32
  | .base | .dram | .vin | .iin | .power => true

/-- A command is well formed. -/
def Instr.wf : Instr → Bool
  | .registerWrite m _ off _ => m.wf && offWf off
  | .rcRead m _ off => m.wf && offWf off
  | .wideLowWordRead m _ off => m.wf && offWf off
  | .shadowCopyWrite m _ off _ => m.wf && offWf off
  | .evuneLaneFail _ lane => lane < 8
  | .evuneTrainingTimeout => true
  | .evuneRetrain => true
  | .evuneLinkReturn maskWE maskEW latency => maskWE < 256 && maskEW < 256 && latency < 4096
  | .clockFault _ => true
  | .clockFaultEnd _ => true
  | .tunRowRelease _ stripe row => stripe < 2 ^ 24 && row < 2 ^ 32
  | .logEntryWrite _ => true
  | .evlRdIdxWrite m _ _ => m.wf
  | .evlClearOverflow m _ _ => m.wf
  | .spanEntryCaptureRead m _ idx => m.wf && idx < 1024
  | .budgetPeriodStart _ => true
  | .gristBlockArrival _ rounds => rounds.all fun r => r.all fun w => w.1 < 16 && w.2.2 < 2 ^ 64
  | .creditPeriodic _ => true
  | .verifyDecodeStart _ => true
  | .verifyDecodeEnd _ _ => true
  | .feedDecodeStart _ => true
  | .feedDecodeEnd _ _ _ => true
  | .blockTreatedAsFed _ => true
  | .figuresCreditReturn _ stripe seq => stripe < 2 ^ 24 && seq < 2 ^ 32
  | .gristEnable m _ => m.wf
  | .gristDisable m _ => m.wf
  | .gristFlush m _ => m.wf
  | .rowDeadline _ row => row < 2 ^ 32
  | .figureRecord _ _ => true
  | .kilnStripeBind _ stripe => stripe < 2 ^ 24
  | .kilnRowRasterize _ stripe row run =>
    stripe < 2 ^ 24 && row < 2 ^ 32 && run.accTx < 512 && run.engines.all fun e => e.1 < 512 && e.2 < 32
  | .tasterCompareComplete _ stripe tx _ _ => stripe < 2 ^ 24 && tx < 512
  | .kilnEngineEnWrite m _ _ => m.wf
  | .shiftTableWrite m _ c _ => m.wf && c < 256
  | .stripeOpenReport _ => true
  | .marginMessageSend _ stripe row => stripe < 2 ^ 24 && row < 2 ^ 32
  | .marginMessageReceive _ => true
  | .seamMismatchReceive _ => true
  | .mapCheckComplete _ => true
  | .caskChunkCommit _ stream _ flips => bytesWf stream && flips.all fun f => f.2 < 256
  | .caskPlayBind _ stripe _ => stripe < 2 ^ 24
  | .caskChunkRead _ stripe chunk _ flips => stripe < 2 ^ 24 && chunk < 2 ^ 22 && flips.all fun f => f.2 < 256
  | .caskFreeEntry m _ entry => m.wf && entry < 64
  | .caskFreeAll m _ => m.wf
  | .caskEnable m _ effort => m.wf && effort < 8
  | .caskDisable m _ effort => m.wf && effort < 8
  | .caskEntryFreed _ entry => entry < 64
  | .positionWord ch errors _ bytes => ch < 3 && errors.all (· < 10) && bytesWf bytes
  | .positionLockAcquire ch => ch < 3
  | .positionLockLoss ch _ => ch < 3
  | .coastExpiry ch => ch < 3
  | .stillTimeout ch => ch < 3
  | .channelEnable m ch => m.wf && ch < 3
  | .channelDisable m ch => m.wf && ch < 3
  | .channelRearm m ch => m.wf && ch < 3
  | .slotFire => true
  | .overspeedEnd => true
  | .idleSlotFire => true
  | .slotArm m stripe => m.wf && stripe < 2 ^ 24
  | .slotDisarm m stripe => m.wf && stripe < 2 ^ 24
  | .stripeNotBegun => true
  | .stripeStart => true
  | .compareFire n => n < 8
  | .stripeEnd => true
  | .deflectionSample => true
  | .deflectionCheckComplete => true
  | .deflEnable m _ => m.wf
  | .axisStepTick n => n < 2
  | .axisProfileTick n => n < 2
  | .axisStillTimeout n => n < 2
  | .limitFilterChange n _ => n < 2
  | .limitRawEdge n _ => n < 2
  | .encoderTransition n _ _ _ _ => n < 2
  | .encoderIndexEdge n => n < 2
  | .encoderSpeedEstimate n => n < 2
  | .axisMove m n => m.wf && n < 2
  | .axisStop m n => m.wf && n < 2
  | .axisHome m n => m.wf && n < 2
  | .axisFaultStop m n => m.wf && n < 2
  | .paramSegmentSend _ => true
  | .bankLoadStart _ => true
  | .echoReceive _ lane bytes => lane < 68 && bytesWf bytes
  | .echoDeadline _ => true
  | .handoverToSpare m _ lam => m.wf && lam < 64
  | .handback m _ lam => m.wf && lam < 64
  | .handoverWakeEnd _ group => group < 4
  | .handoverAbandon _ group => group < 4
  | .blnkEnable m _ _ => m.wf
  | .blnkDisable m _ _ => m.wf
  | .rxBlockLockGain _ grist lane _ blocks => lane < (if grist then 16 else 68) && blocks.all LineBlock.wf
  | .rxBlockLockLoss _ grist lane _ blocks => lane < (if grist then 16 else 68) && blocks.all LineBlock.wf
  | .descramblerLockGain _ grist lane _ blocks => lane < (if grist then 16 else 68) && blocks.all LineBlock.wf
  | .descramblerLockLoss _ grist lane _ blocks => lane < (if grist then 16 else 68) && blocks.all LineBlock.wf
  | .transitionWindowEnd _ grist lane _ _ blocks => lane < (if grist then 16 else 68) && blocks.all LineBlock.wf
  | .laneTrainCommand m _ lane => m.wf && lane < 68
  | .trainReportReceive _ lane bytes eyeH eyeW _ => lane < 68 && bytesWf bytes && eyeH < 256 && eyeW < 64
  | .trainReportTimeout _ lane eyeH eyeW _ => lane < 68 && eyeH < 256 && eyeW < 64
  | .alignRound _ blocks => blocks.all fun b => b.lane < 16 && b.l < 256 && b.setId < 256 && b.count < 2 ^ 16
  | .deskewTimeout _ => true
  | .laneSetChange _ => true
  | .laneMessageResend _ => true
  | .returnLaneSleep _ => true
  | .returnLaneWake _ => true
  | .gristResync m _ _ => m.wf
  | .gristLaneEnWrite m _ _ => m.wf
  | .gristLaneTrainCommand m _ lane => m.wf && lane < 16
  | .gristTrainStepEnd _ lane eyeH eyeW _ => lane < 16 && eyeH < 256 && eyeW < 64
  | .controlRead _ src tag pdu => src < 2 ^ 48 && tag.all (· < 2 ^ 16) && bytesWf pdu
  | .controlWrite _ src tag pdu => src < 2 ^ 48 && tag.all (· < 2 ^ 16) && bytesWf pdu
  | .forwardedRequest _ _ => true
  | .forwardTimeout _ => true
  | .frameDiscard _ dst etherType _ => dst < 2 ^ 48 && etherType < 2 ^ 16
  | .msgSend _ => true
  | .msgRetry _ => true
  | .msgAck _ seq => seq < 65536
  | .ptpMessage _ _ => true
  | .syncLoss => true
  | .holdoverEnd => true
  | .controlPortLinkLoss _ => true
  | .timeStep m _ => m.wf
  | .timeIncWrite m _ => m.wf
  | .dramRead _ client core addr flips _ => client < 7 && core.all (· < 2) && addr < 2 ^ 35 && flips.all (· < 72)
  | .pageRetireComplete _ => true
  | .sramReadError _ word _ => word.wf
  | .retireCommand m _ _ => m.wf
  | .refreshRateUpdate _ _ _ _ _ => true
  | .refreshDue _ channel bank _ => channel < 4 && bank < 16
  | .selfRefreshEntry _ channel => channel < 4
  | .dramTrainStart m _ _ => m.wf
  | .dramTrainComplete _ misread => misread.all (·.2 < 72)
  | .dramDelayWrite m _ channel lane _ => m.wf && channel < 4 && lane < 72
  | .dramFillStart m _ _ => m.wf
  | .dramFillComplete _ => true
  | .scrubRead _ flips => flips.all fun p => p.1 < 8 && p.2 < 72
  | .sramScrubRead _ region idx _ flips _ => 2 ≤ region && region ≤ 10 && idx < 2 ^ 32 && flips.all (· < 137)
  | .interlockInputDrop _ input _ => input < 8
  | .interlockInputRestore _ input _ => input < 8
  | .gateCloseReport _ member => member.all (· < 8)
  | .forceClose m _ _ => m.wf
  | .reopen m _ => m.wf
  | .ilkMaskWrite m _ _ => m.wf
  | .evtSet m _ k _ => m.wf && k < 8
  | .evtClr m _ k _ => m.wf && k < 8
  | .evtAck m _ c => m.wf && c < 2
  | .evtEoi m _ c id => m.wf && c < 2 && id < 1024
  | .evtScan m _ c => m.wf && c < 2
  | .coreSleep _ c => c < 2
  | .coreWake _ c => c < 2
  | .fallbackTimeout _ source => source < 256
  | .remoteCandidate _ c => c < 2
  | .takenMessage _ => true
  | .evtTargetWrite m _ n _ => m.wf && n < 256
  | .evtModeWrite m _ c _ => m.wf && c < 2
  | .hostQueueDelivery _ => true
  | .powerOn => true
  | .supplyGood => true
  | .resetRelease straps => straps < 8
  | .imageVerifyComplete => true
  | .bootOk m => m.wf
  | .bootDeadline => true
  | .moduleReset => true
  | .resetCommand m => m.wf
  | .swapArm m _ => m.wf
  | .swapDisarm m _ => m.wf
  | .swapPrepareComplete _ bad => bad.all isEntry
  | .swapPoint => true
  | .chkAcquire m _ u algo => m.wf && u < 4 && algo < 4
  | .chkRelease m _ u algo => m.wf && u < 4 && algo < 4
  | .chkStart m _ u algo => m.wf && u < 4 && algo < 4
  | .chkData m _ u _ => m.wf && u < 4
  | .chkDataB m _ u _ => m.wf && u < 4
  | .chkRangeGo m _ u _ => m.wf && u < 4
  | .chkRangeComplete _ u _ _ => u < 4
  | .maintChallenge m => m.wf
  | .maintVerify m => m.wf
  | .maintVerifyComplete => true
  | .maintClose m => m.wf
  | .maintExpiry => true
  | .watchdogKick m _ c _ => m.wf && c < 2
  | .watchdogExpiry _ c => c < 2
  | .coreRestart m _ c _ => m.wf && c < 2
  | .coreReloadComplete _ c => c < 2
  | .measurementRecomputeComplete => true
  | .jlogRdIdxWrite m _ _ => m.wf
  | .jobLogCaptureRead m _ idx => m.wf && idx < 256
  | .caskDirectoryCaptureRead m _ idx => m.wf && idx < 64
  | .errorLogCaptureRead m _ idx => m.wf && idx < 16
  | .flashRead m _ => m.wf
  | .flashProgram m _ => m.wf
  | .flashErase m _ => m.wf
  | .flashOperationDone _ => true
  | .helloSend => true
  | .statusSend => true
  | .timeSend => true
  | .syncMessageReceive _ _ blocks origin seq hops _ _ _ _ => origin < 8 && seq < 2 ^ 32 && hops ≤ 7 && blocks.all LineBlock.wf
  | .herdElection => true
  | .herdDecisionAct => true
  | .memberLoss id => id < 8
  | .buckLoss => true
  | .failoverElection => true
  | .syncLinkLoss _ => true
  | .chainCheckRequest m _ => m.wf
  | .chainCheckStart => true
  | .chainCheckComplete => true
  | .calStepGo m _ => m.wf
  | .calAbort m _ => m.wf
  | .calZeroComplete => true
  | .calBurstStart => true
  | .calBurstSlot => true
  | .calBurstComplete => true
  | .laneRecalTurn _ => true
  | .laneRecalStart _ => true
  | .calAdcSample x => -32768 ≤ x && x ≤ 32767
  | .sensorRead sensor v => sensor.wf && -1000 ≤ v
  | .sensorFault sensor _ => sensor.wf
  | .supplyWarning vin _ => vin < 2 ^ 16
  | .supplyFault why value _ => 1 ≤ why && why ≤ 4 && value < 2 ^ 16
  | .supplyFaultReset => true
  | .railMarginLow dev _ => dev ≤ 1000
  | .powerAboveLimit power => power < 2 ^ 16
  | .herdDigestComplete => true
  | .controlPortLinkUp _ => true
  | .scheduleWindowOpen _ => true

end Sys2Proof
end

