-- ==== Sys2Proof/Certificates/Slice0/Obligations.lean ====
section
/-! DEFINITION. The statements for the provers. Each holds of every state, not only of those a run reaches. Where a
statement names an update of the model (`Chip.raise`, `Chip.put`, `Chip.onDie`), that update is what another statement
here says of it, or a record update written out. -/

open Sys2Proof Sys2Proof.Machine

/-! ### The machine as a whole -/

/-- A step with a command at the front of the queue is that command, with the queue's rest (the queue is the block's
interface: log entry 1). -/
def Obligations.StepRunsFrontCommand : Prop :=
  ∀ (i : Instr) (rest : List Instr) (s : State), step { s with pending := i :: rest } = exec i { s with pending := rest }

/-- With no command waiting, a step is one core tick (log entry 2): a module that is held in reset only counts it; one that runs
does what falls due, its queue stays empty, and reads of DRAM that waited are then served as far as they can be. -/
def Obligations.EmptyQueueTicks : Prop :=
  ∀ s : State, s.pending = [] →
    (¬ s.runs → step s = .next { s with chip := { s.chip with now := s.chip.now + 1 } }) ∧
    (s.runs → step s = .next ((({ s with chip := s.chip.coreTick } : State).runReads .w).runReads .e) ∧
      ∀ t, step s = .next t → t.pending = [])

/-- After reset the module is held, with no command waiting, every gate closed, the slot number 0 and the scheduler idle, every
event count 0, no Cask stripe, no swap, and its DRAM in canonical form, with no word written. -/
def Obligations.ResetState : Prop :=
  State.reset.pending = [] ∧ State.reset.dramWf = true ∧
  (let c := State.reset.chip
   c.cfg.stage = .held ∧ c.sched.mode = .idle ∧ c.sched.slot = 0 ∧ c.cfg.swap = none ∧ c.herd.role = .standalone ∧
   c.evune.link = .down ∧ (∀ n, n < 3 → (c.chan n).state = .noLock) ∧
   ∀ d, (c.die d).regs = [] ∧ (c.die d).tables = [] ∧ (c.die d).ilk.gateOpen = false ∧ (c.die d).evl = .reset ∧
     ∀ n, (c.die d).evtCount n = 0)

/-- No command stops the machine, and none changes the queue: whatever the state and the operands, `exec` answers a next
state with the same queue. -/
def Obligations.EveryCommandAnswers : Prop :=
  ∀ (i : Instr) (s : State), ∃ t : State, exec i s = .next t ∧ t.pending = s.pending

/-- While the module is held in reset no command changes anything, but for those of the supply, of the thermal monitor, of the
reference clock, and RESET_RELEASE (R361; that a command is then without effect is the model's reading, log entry 1).

In recovery the register blocks other than SYS and CFG are out of reach: a command on one of their registers changes
nothing (R343; that such a command is then without effect is the model's reading, log entry 1). -/
def Obligations.InertModule : Prop :=
  (∀ (i : Instr) (s : State), s.chip.cfg.stage = .held →
     (match i with
       | .powerOn | .supplyGood | .resetRelease .. | .moduleReset | .sensorRead .. | .sensorFault .. | .supplyWarning ..
       | .supplyFault .. | .supplyFaultReset | .railMarginLow .. | .powerAboveLimit _ | .clockFault _ | .clockFaultEnd _ =>
         False
       | _ => True) →
     exec i s = .next s) ∧
  (∀ (s : State) (m : Master) (d : DieId) (v : Word), s.chip.cfg.stage = .recovery →
     (∀ off, d = .e ∨ 0x20000 ≤ off → exec (.registerWrite m d off v) s = .next s) ∧
     exec (.chainCheckRequest m v) s = .next s ∧ exec (.calStepGo m v) s = .next s ∧ exec (.calAbort m v) s = .next s ∧
     (∀ b, exec (.forceClose m d b) s = .next s) ∧ exec (.reopen m d) s = .next s ∧
     (∀ id, exec (.slotArm m id) s = .next s ∧ exec (.slotDisarm m id) s = .next s))

/-- Of the commands, only those that read, fill, scrub, train, copy or capture DRAM, or check a range of it, can change a DRAM
word (in a tick, reads that waited are served too). -/
def Obligations.OnlyDramCommandsTouchDram : Prop :=
  ∀ (i : Instr) (s t : State), exec i s = .next t →
    (match i with
      | .dramRead .. | .pageRetireComplete _ | .dramTrainComplete .. | .dramFillComplete _ | .scrubRead .. | .calAdcSample _
      | .chkRangeComplete .. => False
      | _ => True) →
    t.dramW = s.dramW ∧ t.dramE = s.dramE

/-- Every step keeps DRAM in its canonical form: word indices rising, and no listed word equal to the poison word, which
is what a word not listed holds. -/
def Obligations.StepKeepsDramCanonical : Prop :=
  ∀ s t : State, s.dramWf = true → step s = .next t → t.dramWf = true

/-! ### Events (chapter 12), on which the other statements lean -/

/-- An occurrence of a used source on a populated die (R320, R321): its event count goes up by 1 and stops at 255, its sw
flag is cleared, no other source's count changes, and nothing changes but the die's interrupt controller, its message queue
and its count of lost messages.

An occurrence on a die that is not there, or of an unused source, does nothing.

Events on both dies: each populated die's source is counted; on a K131 die E has none.

EVT_SET and EVT_CLR (R320, R321): every 1 written to a used source is an occurrence and sets its sw flag, unless hardware has
raised the source in this tick (R336); every 1 written to EVT_CLR clears count, pending bit and sw, but for what occurred in
the same tick (R19); a source whose bit is 0 keeps its count; the other die and every module unit stay.

EVT_MODE_WRITE and EVT_TARGET_WRITE (R324, R330): the written mode is in effect at once when the core's stack is empty,
and otherwise not yet; a used source's EVT_CFG holds the word written, and its fallback timer starts again when its target
changes. -/
def Obligations.EventSources : Prop :=
  (∀ (c : Chip) (d : DieId) (n : Nat), c.hasDie d = true → sourceUsed n = true →
     ((c.raise d n).die d).evtCount n = min 255 ((c.die d).evtCount n + 1) ∧
     smGet 0 n ((c.raise d n).die d).evt.sw = 0 ∧
     (∀ m, m ≠ n → ((c.raise d n).die d).evtCount m = (c.die d).evtCount m) ∧
     (c.raise d n).die d.other = c.die d.other ∧
     (∀ o, o ≠ F.CTRL_MSG_STATUS_lost.off → ((c.raise d n).die d).reg o = (c.die d).reg o) ∧
     ∃ v p r w, c.raise d n = c.onDie d fun x => { x with evt := v, port := p, regs := r, setNow := w }) ∧
  (∀ (c : Chip) (d : DieId) (n : Nat), c.hasDie d = false ∨ sourceUsed n = false → c.raise d n = c) ∧
  (∀ (c : Chip) (n : Nat), sourceUsed n = true → ∀ d, c.hasDie d = true →
     ((c.raiseBoth n).die d).evtCount n = min 255 ((c.die d).evtCount n + 1)) ∧
  (∀ (s : State) (m : Master) (d : DieId) (k : Nat) (v : Word), s.serves → s.chip.hasDie d = true → k < 8 →
     (∃ c, Completes (.evtSet m d k v) s c ∧
       (∀ i, i < 32 → bit v i = true → sourceUsed (32 * k + i) = true →
         (c.die d).evtCount (32 * k + i) = min 255 ((s.chip.die d).evtCount (32 * k + i) + 1) ∧
         (smGet 0 (32 * k + i) (s.chip.die d).evt.hard = 0 → smGet 0 (32 * k + i) (c.die d).evt.sw = 1)) ∧
       (∀ n, (n / 32 ≠ k ∨ bit v (n % 32) = false ∨ sourceUsed n = false) →
         (c.die d).evtCount n = (s.chip.die d).evtCount n) ∧
       ∃ e, c = s.chip.onEvt d fun _ => e) ∧
     (∃ c, Completes (.evtClr m d k v) s c ∧
       (∀ i, i < 32 → bit v i = true →
         (c.die d).evtCount (32 * k + i) = min 255 (smGet 0 (32 * k + i) (s.chip.die d).evt.fresh) ∧
         (smGet 0 (32 * k + i) (s.chip.die d).evt.fresh = 0 → smGet 0 (32 * k + i) (c.die d).evt.sw = 0)) ∧
       (∀ n, (n / 32 ≠ k ∨ bit v (n % 32) = false) → (c.die d).evtCount n = (s.chip.die d).evtCount n) ∧
       ∃ e, c = s.chip.onEvt d fun _ => e)) ∧
  ((∀ (s : State) (m : Master) (d : DieId) (k : Nat) (v : Word), s.serves → s.chip.hasDie d = true → k < 2 →
     ∃ c, Completes (.evtModeWrite m d k v) s c ∧
       c.fld d (F.EVT_CORE_CTRL_mode.at k) = bits v 0 0 ∧ c.fld d (F.EVT_CORE_CTRL_vector_base.at k) = bits v 31 16 ∧
       (((s.chip.die d).evt.core k).stack = [] → ((c.die d).evt.core k).scan = bit v 0) ∧
       (((s.chip.die d).evt.core k).stack ≠ [] → (c.die d).evt = (s.chip.die d).evt)) ∧
   (∀ (s : State) (m : Master) (d : DieId) (n : Nat) (v : Word), s.serves → s.chip.hasDie d = true → n < 256 →
     sourceUsed n = true → ∃ c, Completes (.evtTargetWrite m d n v) s c ∧ (c.die d).evtCfg n = v &&& 0xFF ∧
       (min 4 (bits v 6 4) ≠ (s.chip.die d).evtTarget n → smGet 0 n (c.die d).evt.routed = s.chip.now) ∧
       (∀ j, (c.die d).evtCount j = (s.chip.die d).evtCount j) ∧ c.die d.other = s.chip.die d.other))

/-! ### Interrupt controllers (chapter 12) -/

/-- EVT_ACK (R325, R329, R336): in vector mode a candidate that stood at the start of the tick, and that the core's stack lets
through, is returned with its count, pushed on the stack, and cleared on its own die but for what occurred in this tick; a
remote one is withdrawn and its taken message queued. Without a candidate, without a request, and in scan mode, the read
returns 0x3FF and changes nothing else.

EVT_SCAN (R328): the candidate that stood at the start of the tick is returned, or 0x3FF, and no state changes.

CORE_SLEEP and CORE_WAKE (R333, R335): a running core's sleep request puts it to sleep; one that is asleep already has been
unavailable since it fell asleep. At the end of the clock a waking candidate that stands abandons the request, and no other
core's sleep is judged. A core that was asleep at the start of the tick, with a waking candidate then, wakes. Nothing else
changes. -/
def Obligations.AcknowledgeAndSleep : Prop :=
  ((∀ (s : State) (m : Master) (d : DieId) (k : Nat) (v : Cand), s.serves → s.chip.hasDie d = true → k < 2 →
     s.chip.ackCand d k = some v → ((s.chip.die d).evt.core k).scan = false → s.chip.atStart.requests d k = true →
     (s.chip.die d).delivers k v = true →
     ∃ c, Completes (.evtAck m d k) s c ∧
       c.out = s.chip.out ++ [.readData m (word (v.id + v.count % 256 * 1024))] ∧
       ((c.die d).evt.core k).stack = ⟨v.id, (s.chip.die d).group v.prio⟩ :: ((s.chip.die d).evt.core k).stack ∧
       (v.id / 256 = (if d = .w then 0 else 1) → 
         (c.die d).evtCount (v.id % 256) = min 255 (smGet 0 (v.id % 256) (s.chip.die d).evt.fresh) ∧
         (c.die d).evt.taken = (s.chip.die d).evt.taken) ∧
       (v.id / 256 ≠ (if d = .w then 0 else 1) → ((c.die d).evt.core k).remote = none ∧
         (c.die d).evt.taken = (s.chip.die d).evt.taken ++ [(v.id % 256, v.count)] ∧
         (c.die d).evt.counts = (s.chip.die d).evt.counts) ∧
       ∃ e, c = (s.chip.onEvt d fun _ => e).emit (.readData m (word (v.id + v.count % 256 * 1024)))) ∧
   (∀ (s : State) (m : Master) (d : DieId) (k : Nat), s.serves → s.chip.hasDie d = true → k < 2 →
     s.chip.ackCand d k = none ∨ s.chip.atStart.requests d k = false ∨ ((s.chip.die d).evt.core k).scan = true →
     Completes (.evtAck m d k) s (s.chip.emit (.readData m 0x3FF)))) ∧
  (∀ (s : State) (m : Master) (d : DieId) (k : Nat), s.serves → s.chip.hasDie d = true → k < 2 →
     (∀ v, s.chip.ackCand d k = some v →
       Completes (.evtScan m d k) s (s.chip.emit (.readData m (word (v.id + v.count % 256 * 1024))))) ∧
     (s.chip.ackCand d k = none → Completes (.evtScan m d k) s (s.chip.emit (.readData m 0x3FF)))) ∧
  (∀ (s : State) (d : DieId) (k : Nat), s.runs → s.chip.hasDie d = true → k < 2 →
     (((s.chip.die d).mc k).state = .running →
       Completes (.coreSleep d k) s (s.chip.onEvt d (·.onCore k fun e => { e with
         sleep := .asleep, sleepAsked := true
         unavailSince := if e.sleep = .asleep then e.unavailSince else s.chip.now }))) ∧
     (((s.chip.startDie d).evt.core k).sleep = .asleep → s.chip.atStart.wakes d k false = true →
       Completes (.coreWake d k) s (s.chip.onEvt d (·.onCore k fun e => { e with sleep := .awake })))) ∧
  (∀ (c : Chip) (d : DieId) (k : Nat), k < 2 →
     (((c.die d).evt.core k).sleepAsked = false → c.judgeSleep d k = c) ∧
     (((c.die d).evt.core k).sleepAsked = true → ((c.die d).evt.core k).sleep = .asleep →
       c.judgeSleep d k = c.onEvt d (·.onCore k fun e => { e with
         sleepAsked := false, sleep := if c.wakes d k true then .woken else .asleep })))

/-- EVT_EOI (R326, R327, R336): in vector mode the id that lay on top of the stack at the start of the tick is popped from it;
one that an acknowledgement of this tick has put above it stays. Any other id, wherever it lies, and any id on an empty
stack, changes nothing else but that EVT_FAULT is loaded with the core, the id written and the id on top (0x3FF for an empty
stack), its count goes up by 1, and source 248 is raised. -/
def Obligations.EndOfInterrupt : Prop :=
  ∀ (s : State) (m : Master) (d : DieId) (k id : Nat), s.serves → s.chip.hasDie d = true → k < 2 → id < 1024 →
    ((s.chip.startDie d).evt.core k).scan = false →
    let stack := ((s.chip.startDie d).evt.core k).stack
    let refused (c : Chip) (top : Nat) : Prop :=
      c.fld d F.EVT_FAULT_core = k ∧ c.fld d F.EVT_FAULT_id_written = id ∧ c.fld d F.EVT_FAULT_top_id = top % 1024 ∧
      c.fld d F.EVT_FAULT_1_count = min (2 ^ 32 - 1) (s.chip.fld d F.EVT_FAULT_1_count + 1) ∧
      (c.die d).evtCount 248 = min 255 ((s.chip.die d).evtCount 248 + 1) ∧
      (∀ n, n ≠ 248 → (c.die d).evtCount n = (s.chip.die d).evtCount n) ∧
      (∀ q, q < 2 → ((c.die d).evt.core q).stack = ((s.chip.die d).evt.core q).stack) ∧ c.die d.other = s.chip.die d.other
    (∀ top rest, stack = top :: rest → top.id = id → ∃ c, Completes (.evtEoi m d k id) s c ∧
      ((c.die d).evt.core k).stack = ((s.chip.die d).evt.core k).stack.erase top ∧ (∀ n, (c.die d).evtCount n = (s.chip.die d).evtCount n) ∧
      ∃ e, c = s.chip.onEvt d fun _ => e) ∧
    (∀ top rest, stack = top :: rest → top.id ≠ id → ∃ c, Completes (.evtEoi m d k id) s c ∧ refused c top.id) ∧
    (stack = [] → ∃ c, Completes (.evtEoi m d k id) s c ∧ refused c 0x3FF)

/-- REMOTE_CANDIDATE and TAKEN_MESSAGE (R329): the remote candidate becomes the other die's candidate for the core, or none
while the link is down; a taken message takes its count off what its source on the die of origin held before this tick, and the
source stays pending with what came since.

HOST_QUEUE_DELIVERY and FALLBACK_TIMEOUT (R269, R331, R334, R336): the source is queued for the host with its kind, its
count at the start of the tick and local time, and cleared but for what occurred in this tick; one that was routed to a core
is counted as a fallback and raises source 249. A source whose time has run out leaves the last place of the queue to a more
urgent one. -/
def Obligations.RemoteAndHostDelivery : Prop :=
  ((∀ (s : State) (d : DieId) (k : Nat), s.runs → s.chip.variant = .k262 → k < 2 →
     Completes (.remoteCandidate d k) s (s.chip.onEvt d (·.onCore k fun e => { e with
       remote := if s.chip.evune.link = .up then s.chip.localCand d.other (coreNo d k) false else none }))) ∧
   (∀ (s : State) (d : DieId) (n k : Nat) (rest : List (Nat × Nat)), s.runs → s.chip.evuneUp = true →
     (s.chip.die d.other).evt.taken = (n, k) :: rest → ∃ c, Completes (.takenMessage d) s c ∧
       (c.die d).evtCount n = min 255 (s.chip.evtBefore d n - k + smGet 0 n (s.chip.die d).evt.fresh) ∧
       (c.die d.other).evt.taken = rest ∧
       (∀ j, j ≠ n → (c.die d).evtCount j = (s.chip.die d).evtCount j) ∧ c = { s.chip with w := c.w, e := c.e })) ∧
  ((∀ (s : State) (d : DieId) (v : Cand), s.runs → s.chip.hasDie d = true → (s.chip.die d).port.queue.length < 64 →
     s.chip.bestSource d (s.chip.hostTakes d) = some v → (s.chip.startDie d).evtTarget (v.id % 256) = 4 →
     let n := v.id % 256
     ∃ c, Completes (.hostQueueDelivery d) s c ∧ (c.die d).evtCount n = min 255 (smGet 0 n (s.chip.die d).evt.fresh) ∧
       (c.die d).port = { (s.chip.die d).port with
         queue := (s.chip.die d).port.queue ++ [⟨msgKind n, n, (s.chip.startDie d).evtCount n, s.chip.time⟩] } ∧
       (c.die d).regs = (s.chip.die d).regs ∧ c.die d.other = s.chip.die d.other ∧ c = { s.chip with w := c.w, e := c.e }) ∧
   (∀ (s : State) (d : DieId) (n : Nat), s.runs → s.chip.hasDie d = true → (s.chip.die d).port.queue.length < 64 →
     (s.chip.bestSource d (s.chip.hostTakes d)).map (·.id % 256) = some n → s.chip.hostTakes d n = true →
     s.chip.atStart.redirected d n = true → (s.chip.startDie d).evtTarget n < 4 → n < 249 →
     ∃ c, Completes (.fallbackTimeout d n) s c ∧ (c.die d).evtCount n = min 255 (smGet 0 n (s.chip.die d).evt.fresh) ∧
       ⟨msgKind n, n, (s.chip.startDie d).evtCount n, s.chip.time⟩ ∈ (c.die d).port.queue ∧
       c.fld d F.EVT_HOST_STATUS_last_fallback = n ∧
       (c.die d).evtCount 249 = min 255 ((s.chip.die d).evtCount 249 + 1)) ∧
   (∀ (s : State) (d : DieId) (n : Nat) (v : Cand), s.runs → s.chip.hasDie d = true →
     (s.chip.die d).port.queue.length = 63 → s.chip.hostTakes d n = true → s.chip.atStart.redirected d n = true →
     s.chip.bestSource d (s.chip.hostTakes d) = some v → v.id % 256 ≠ n →
     Completes (.fallbackTimeout d n) s (s.chip.deliverHost d (v.id % 256))))

/-! ### Evune and the clocks (chapter 1) -/

/-- EVUNE_LANE_FAIL (R28): a first lane failing in a direction leaves the link up on the other 7, with an Evune-degraded
event and no other change (that both dies raise it is the model's choice, log entry 16); a second one takes the link down:
link_lost and source 5 on both dies, all of die E's lanes forced dark with cause 0x11 (R29), and nothing changes but the
link, the two dies, and the frames sent.

EVUNE_TRAINING_TIMEOUT, EVUNE_RETRAIN and EVUNE_LINK_RETURN (R28, R434): no pattern within 1 µs takes the link down;
a link that is down trains again 1 ms after it went down, and then 1 ms after each attempt; training that succeeds on at least 7 lanes of each direction
brings it up on those lanes. -/
def Obligations.EvuneLink : Prop :=
  (∀ (s : State) (fromW : Bool) (lane : Nat), s.runs → s.chip.hasDie .e = true → s.chip.evune.link = .up → lane < 8 →
     let mask := if fromW then s.chip.evune.maskWE else s.chip.evune.maskEW
     let left := setNbit mask lane false
     nbit mask lane = true →
     (7 ≤ popcount 8 left →
       Completes (.evuneLaneFail fromW lane) s
         ((s.chip.onEvune fun x => if fromW then { x with maskWE := left } else { x with maskEW := left }).raiseBoth 4)) ∧
     (popcount 8 left < 7 → ∃ c, Completes (.evuneLaneFail fromW lane) s c ∧
       c.evune.link = .down ∧ c.evune.since = s.chip.now ∧ c.e.hold = 0x11 ∧
       (∀ d, c.fld d F.SYS_EVUNE_STATUS_link_lost = 1) ∧
       (∀ d, (c.die d).evtCount 5 = min 255 ((s.chip.die d).evtCount 5 + 1)) ∧
       c = { s.chip with evune := c.evune, w := c.w, e := c.e, out := c.out, free := c.free })) ∧
  ((∀ s : State, s.runs → s.chip.hasDie .e = true → s.chip.evune.link = .training → s.chip.evune.since + 1000 ≤ s.chip.now →
     Completes .evuneTrainingTimeout s (s.chip.onEvune fun x => { x with link := .down })) ∧
   (∀ s : State, s.runs → s.chip.hasDie .e = true → s.chip.evune.link = .up →
     ∃ c, Completes .evuneTrainingTimeout s c ∧ c.evune.link = .down ∧ c.e.hold = 0x11) ∧
   (∀ s : State, s.runs → s.chip.hasDie .e = true → s.chip.evune.link = .down →
     1000000 ≤ s.chip.now - s.chip.evune.since →
     Completes .evuneRetrain s (s.chip.onEvune fun x => { x with link := .training, since := s.chip.now })) ∧
   (∀ (s : State) (a b l : Nat), s.runs → s.chip.hasDie .e = true → s.chip.evune.link = .training →
     7 ≤ popcount 8 a → 7 ≤ popcount 8 b →
     ∃ c, Completes (.evuneLinkReturn a b l) s c ∧
       c.evune = { s.chip.evune with
         link := .up, maskWE := a % 256, maskEW := b % 256, latency := l % 4096, since := s.chip.now } ∧
       c = { s.chip with evune := c.evune, w := c.w, e := c.e }))

/-- CLOCK_FAULT and CLOCK_FAULT_END (R39, R40): a die in clock fault raises source 6; die E is then held dark with cause
0x18 unless it is held already; on die W of a module that schedules its own slots a
valid or lost position channel moves to no lock, and a stripe being exposed ends in this tick with cause 0x18 unless a cause
stands. A module that is held in reset only notes that the die's reference is away (R344). The end of the fault clears both. -/
def Obligations.ClockFaults : Prop :=
  (∀ s : State, s.runs → s.chip.hasDie .e = true → s.chip.e.clockFault = false → ∃ c, Completes (.clockFault .e) s c ∧
    c.e.clockFault = true ∧ c.e.hold = (if s.chip.e.hold = 0 then 0x18 else s.chip.e.hold) ∧
    c.e.evtCount 6 = min 255 (s.chip.e.evtCount 6 + 1) ∧ c.w.evt = s.chip.w.evt ∧
    c = { s.chip with w := c.w, e := c.e, pwr := { s.chip.pwr with noClockE := true } }) ∧
  (∀ s : State, s.runs → s.chip.schedHere = true → s.chip.w.clockFault = false → ∃ c, Completes (.clockFault .w) s c ∧
    c.w.clockFault = true ∧ c.w.evtCount 6 = min 255 (s.chip.w.evtCount 6 + 1) ∧
    (∀ n, n < 3 → c.chan n ∈ [s.chip.chan n, (s.chip.chan n).toState s.chip.now .noLock]) ∧
    (∀ n, n < 3 → (s.chip.chan n).state = .valid ∨ (s.chip.chan n).state = .lost →
      (c.chan n).state = .noLock) ∧
    (s.chip.sched.mode = .exposing → s.chip.sched.ending = none →
      c.sched.ending = some 0x18)) ∧
  (∀ (s : State) (d : DieId) (gone : Bool),
    let pwr := if d = .w then { s.chip.pwr with noClockW := gone } else { s.chip.pwr with noClockE := gone }
    (gone = true → s.chip.cfg.stage = .held → Completes (.clockFault d) s { s.chip with pwr := pwr }) ∧
    (gone = false → Completes (.clockFaultEnd d) s
      { (s.chip.onDie d fun x => { x with clockFault := false }) with pwr := pwr }))

/-! ### Interlocks (chapter 11) -/

/-- INTERLOCK_INPUT_DROP (R308, R309): an input whose raw goodness has been 0 for drop_ns becomes not good, which its drop count
counts; when
it is enabled, an open gate of its die closes in the same tick: ILK_FIRST records the input and is valid, with the
low half of the slot number, ILK_GATE_COUNT and source 192 count, and the other die's gate is not touched by it. An
input that is not enabled leaves the gate.

INTERLOCK_INPUT_RESTORE (R308): an input whose raw goodness has been 1 for restore_ms, of which 0 acts as 1, reads good
again; the gate stays as it is (R316). -/
def Obligations.InterlockInputs : Prop :=
  (∀ (s : State) (d : DieId) (i held : Nat), s.runs → s.chip.hasDie d = true → i < 8 → nbit (s.chip.die d).ilk.good i = true →
     s.chip.fld d F.ILK_CFG_drop_ns ≤ (s.chip.die d).ilk.heldFor i held s.chip.now →
     (nbit (s.chip.fld d F.ILK_MASK_bits) i = false → ∃ c, Completes (.interlockInputDrop d i held) s c ∧
       nbit (c.die d).ilk.good i = false ∧ (c.die d).ilk.gateOpen = (s.chip.die d).ilk.gateOpen ∧
       c.fld d (dropCount i) = min 255 (s.chip.fld d (dropCount i) + 1) ∧
       c.die d.other = s.chip.die d.other ∧ c = { s.chip with w := c.w, e := c.e }) ∧
     (nbit (s.chip.fld d F.ILK_MASK_bits) i = true → (s.chip.die d).ilk.gateOpen = true →
       ∃ c, Completes (.interlockInputDrop d i held) s c ∧
         nbit (c.die d).ilk.good i = false ∧ (c.die d).ilk.gateOpen = false ∧
         c.fld d F.ILK_FIRST_source = i ∧ c.fld d F.ILK_FIRST_valid = 1 ∧
         c.fld d F.ILK_FIRST_1_slot_low = s.chip.sched.slot % 2 ^ 32 ∧
         c.fld d F.ILK_GATE_COUNT_count = min (2 ^ 32 - 1) (s.chip.fld d F.ILK_GATE_COUNT_count + 1) ∧
         (c.die d).evtCount 192 = min 255 ((s.chip.die d).evtCount 192 + 1) ∧
         (c.die d.other).ilk = (s.chip.die d.other).ilk)) ∧
  (∀ (s : State) (d : DieId) (i held : Nat), s.runs → s.chip.hasDie d = true → i < 8 →
     max 1 (s.chip.fld d F.ILK_CFG_restore_ms) * 1000000 ≤ (s.chip.die d).ilk.heldFor i held s.chip.now →
     Completes (.interlockInputRestore d i held) s (s.chip.onDie d fun x => { x with ilk := { x.ilk with
       raw := setNbit x.ilk.raw i (nbit (s.chip.fld d F.ILK_POL_bits) i), good := setNbit x.ilk.good i true } }))

/-- GATE_CLOSE_REPORT and FORCE_CLOSE (R309, R316): the other die's report closes this die's gate under source 8, a herd
member's under source 9 with its id, and the member then counts as one that holds its gate closed, and force_close under source 10; ILK_FIRST says which.

REOPEN and ILK_MASK_WRITE (R309, R316, R352): a written request is held on every die it reaches until the end of the
tick, and releases their force_close, but for one of the same tick (R318); a new mask is stored for firmware, and for the control port while the maintenance
state is boot or open, and closes an open gate when it enables an input that is not good. -/
def Obligations.GateRequests : Prop :=
  ((∀ (s : State) (d : DieId), s.runs → s.chip.evuneUp = true → (s.chip.die d.other).ilk.report = true →
     (s.chip.die d).ilk.gateOpen = true → ∃ c, Completes (.gateCloseReport d none) s c ∧
       (c.die d).ilk.gateOpen = false ∧ (c.die d.other).ilk.report = false ∧ c.fld d F.ILK_FIRST_source = 8) ∧
   (∀ (s : State) (d : DieId) (id : Nat), s.runs → s.chip.inHerd = true → s.chip.hasDie d = true → id < 8 →
     id ≠ s.chip.ownId → (s.chip.die d).ilk.gateOpen = true → ∃ c, Completes (.gateCloseReport d (some id)) s c ∧
       (c.die d).ilk.gateOpen = false ∧ c.fld d F.ILK_FIRST_source = 9 ∧ c.fld d F.ILK_FIRST_module_id = id ∧
       id ∈ c.memberGates) ∧
   (∀ (s : State) (m : Master) (d : DieId) (b : Bool), s.serves → s.chip.hasDie d = true →
     (s.chip.die d).ilk.gateOpen = true → ∃ c, Completes (.forceClose m d b) s c ∧
       (c.die d).ilk.gateOpen = false ∧ (c.die d).ilk.forced = true ∧ c.fld d F.ILK_FIRST_source = 10)) ∧
  ((∀ (s : State) (m : Master) (d : DieId), s.serves → s.chip.hasDie d = true →
     ∃ c, Completes (.reopen m d) s c ∧ (∀ k, k ∈ s.chip.dies → s.chip.reaches d k = true →
       (c.die k).ilk = { (s.chip.die k).ilk with
         forced := (s.chip.die k).ilk.forced && (s.chip.die k).ilk.forcedAt == some s.chip.now, request := some true }) ∧
       c = { s.chip with w := c.w, e := c.e }) ∧
   (∀ (s : State) (m : Master) (d : DieId) (v : Word), s.serves → s.chip.hasDie d = true → s.chip.mayClosed m = true →
     ∃ c, Completes (.ilkMaskWrite m d v) s c ∧ c.fld d F.ILK_MASK_bits = bits v 7 0 ∧ c.cfg.measBusy = true ∧
       ((∃ i, i < 8 ∧ nbit (bits v 7 0) i = true ∧ nbit (s.chip.die d).ilk.good i = false) →
         (c.die d).ilk.gateOpen = false)) ∧
   (∀ (s : State) (d : DieId) (v : Word), s.runs → s.chip.cfg.maint = .locked → Completes (.ilkMaskWrite .port d v) s s.chip))

/-! ### Registers (chapter 0), logs (chapters 1, 10 and 13) -/

/-- REGISTER_WRITE, and SHADOW_COPY_WRITE of a register with RWS fields (R17, R18, R19, R348): in a register of the die that
holds it, RW and RWS bits take the value written (of an RWS field the shadow copy), W1C bits written 1 are cleared, but for
those that hardware has set in this tick, and every other bit of the register and every other register stays, the active
copies among them. Without RWS fields nothing else changes; with them the map and deflection checks may start again, and an
armed swap that is not committed is to end with outcome 3.

REGISTER_WRITE of a unit word (R31, R34): bit 0 is its enable's shadow copy, and bits 30 and 31 written 1 clear its
span_pending and fault bits, but for those that hardware has set in this tick; no other cell's bit changes.

REGISTER_WRITE where nothing is written (R16, R352): an offset that names no register, or is not a multiple of 4, ignores
the write, and a write that R352 closes to the control port changes nothing.

REGISTER_WRITE of a register whose write has a row of its own does what that row does.

RC_READ (R17, R19): a read of a one-word register returns the word it holds, with each RC field as it was before what
hardware has set or counted in this tick, and leaves in that field only what hardware has; no other register changes.

WIDE_LOW_WORD_READ (R20): reading the low word of a value of several words returns it and captures the value's other
words, so that they read as they were then.

SHADOW_COPY_WRITE and SHIFT_TABLE_WRITE (R18, R54, R102, R147, R348): a write of a table entry changes the bits of the
shadow copy that hold a value, no other entry and no active copy; an armed swap that is not committed is to end with outcome
3. A shift entry above its own offset, which R102 forbids, is stored as the offset itself and raises source 66. Remap and
trim entries ignore the write while MAP_TABLE_VIEW shows their active copies. -/
def Obligations.RegisterAccess : Prop :=
  (∀ (i : Instr) (s : State) (m : Master) (d h : DieId) (off : Nat) (v : Word) (r : RegSpec),
     i = .registerWrite m d off v ∨ i = .shadowCopyWrite m d off v → s.runs → s.chip.reachable d off = true →
     off % 4 = 0 → off < 0x800000 → s.chip.home d off = some h → s.chip.writeIgnored d off = false →
     s.chip.denied m h off v = false → findReg off = some r → actsOnWrite off = false →
     let keep := r.mask fun a => a == .rw || a == .rws
     let clear := v &&& r.mask (· == .w1c) &&& ~~~ (s.chip.die h).heldBits off
     let new := (((s.chip.die h).reg off &&& ~~~ keep) ||| (v &&& keep)) &&& ~~~ clear
     (r.mask (· == .rws) = 0 → Completes i s (s.chip.onDie h fun x => x.setReg off new)) ∧
     (r.mask (· == .rws) ≠ 0 → ∃ c, Completes i s c ∧ (c.die h).reg off = new ∧
       (∀ o, o ≠ off → (c.die h).reg o = (s.chip.die h).reg o) ∧ (c.die h.other).regs = (s.chip.die h.other).regs ∧
       (s.chip.committed = false → ∀ w, s.chip.cfg.swap = some w → w.ending = none →
         c.cfg.swap.map (·.ending) = some (some 3)) ∧
       c = { s.chip with w := c.w, e := c.e, cfg := c.cfg, defl := c.defl })) ∧
  (∀ (s : State) (m : Master) (d : DieId) (k : Nat) (v : Word), s.serves → s.chip.hasDie d = true → k < 2048 →
     ∃ c, Completes (.registerWrite m d (0x4000 + 4 * k) v) s c ∧ (c.die d).reg (0x4000 + 4 * k) = v &&& 1 ∧
       (∀ j, j < 2048 → (c.die d).cellPend.getLsbD j = ((s.chip.die d).cellPend.getLsbD j &&
         !(j == k && bit v 30 && !(s.chip.die d).unitsNow.cellPend.getLsbD j))) ∧
       (∀ j, j < 2048 → (c.die d).cellFault.getLsbD j = ((s.chip.die d).cellFault.getLsbD j &&
         !(j == k && bit v 31 && !(s.chip.die d).unitsNow.cellFault.getLsbD j)))) ∧
  (∀ (s : State) (m : Master) (d : DieId) (off : Nat) (v : Word), s.runs →
     off % 4 ≠ 0 ∨ (findReg off = none ∧ isTable off = false) ∨ (∃ h, s.chip.home d off = some h ∧ s.chip.denied m h off v = true) →
     Completes (.registerWrite m d off v) s s.chip) ∧
  (∀ (s : State) (m : Master) (d : DieId) (v : Word), s.serves → s.chip.hasDie d = true →
     let same (off : Nat) (v : Word) (i : Instr) : Prop := exec (.registerWrite m d off v) s = exec i s
     (∀ k, k < 8 → same (0x110100 + 4 * k) v (.evtSet m d k v) ∧ same (0x110120 + 4 * k) v (.evtClr m d k v)) ∧
     (∀ n, n < 256 → same (0x110400 + 4 * n) v (.evtTargetWrite m d n v)) ∧
     (∀ k, k < 2 → same (0x110800 + 64 * k) v (.evtModeWrite m d k v) ∧
       same (0x110808 + 64 * k) v (.evtEoi m d k (bits v 9 0)) ∧ same (0x110810 + 64 * k) 1 (.coreSleep d k)) ∧
     same 0x020000 1 (.gristEnable m d) ∧ same 0x020000 0 (.gristDisable m d) ∧
     (s.chip.flag d F.GRIST_CTRL_enable = true → same 0x020000 3 (.gristFlush m d)) ∧
     same 0x040008 v (.kilnEngineEnWrite m d v) ∧
     (∀ n, n < 64 → same 0x070014 (word (256 + n)) (.caskFreeEntry m d n)) ∧ same 0x070014 512 (.caskFreeAll m d) ∧
     (bit v 0 = true → same 0x0B0000 v (.blnkEnable m d v)) ∧ (bit v 0 = false → same 0x0B0000 v (.blnkDisable m d v)) ∧
     (∀ l, l < 68 → same 0x0C0404 (word (128 + l)) (.laneTrainCommand m d l)) ∧
     same 0x0C0800 v (.gristLaneEnWrite m d v) ∧
     (∀ l, l < 16 → same 0x0C0890 (word (16 + l)) (.gristLaneTrainCommand m d l)) ∧
     same 0x0E0058 v (.dramFillStart m d v) ∧ same 0x0E0100 v (.dramTrainStart m d v) ∧ same 0x0F0050 v (.retireCommand m d v) ∧
     same 0x100000 1 (.reopen m d) ∧ same 0x100000 2 (.forceClose m d false) ∧ same 0x100000 3 (.forceClose m d true) ∧
     (s.chip.mayClosed m = true → same 0x100008 v (.ilkMaskWrite m d v)) ∧ same 0x160008 v (.evlRdIdxWrite m d v)) ∧
  (∀ (s : State) (m : Master) (d h : DieId) (off : Nat) (r : RegSpec), s.runs → s.chip.reachable d off = true → readsPlain off →
     s.chip.home d off = some h → findReg off = some r → r.wide = 1 → (s.chip.die h).caps.find? (·.1 == off) = none →
     ∃ c, Completes (.rcRead m d off) s c ∧
       c.out = s.chip.out ++ [.readData m ((rcFields off).foldl (fun w f => putBits w f.hi f.lo (s.chip.rcValue h f))
         ((s.chip.die h).reg off ||| word (s.chip.liveWord h off)))] ∧
       (∀ f, f ∈ rcFields off → c.fld h f = min ((s.chip.die h).added f) (2 ^ (f.hi + 1 - f.lo) - 1)) ∧
       (rcFields off = [] → (c.die h).regs = (s.chip.die h).regs) ∧
       (∀ o, o ≠ off → (c.die h).reg o = (s.chip.die h).reg o) ∧
       ∃ l, c = { (s.chip.onDie h fun x => { x with regs := l }) with start := c.start, out := c.out }) ∧
  (∀ (s : State) (m : Master) (d h : DieId) (off : Nat) (r : RegSpec), s.runs → s.chip.reachable d off = true → readsPlain off →
     s.chip.home d off = some h → findReg off = some r → 1 < r.wide → rcFields off = [] →
     (s.chip.die h).caps.find? (·.1 == off) = none →
     ∃ c, Completes (.wideLowWordRead m d off) s c ∧
       c.out = s.chip.out ++ [.readData m ((s.chip.die h).reg off ||| word (s.chip.liveWord h off))] ∧
       (∀ i, 0 < i → i < r.wide → smGet 0 (off + 4 * i) (c.die h).caps = s.chip.peek h (off + 4 * i)) ∧
       ∃ l, c = { (s.chip.onDie h fun x => { x with caps := l }) with out := c.out }) ∧
  ((∀ (s : State) (m : Master) (d h : DieId) (a : Nat) (v : Word), s.serves → s.chip.hasDie d = true →
     s.chip.home d a = some h → isTable a = true → a % 4 = 0 → tableMask a ≠ 0 →
     (a < 0x900000 → s.chip.flag h F.MAP_TABLE_VIEW_active = false) →
     (a / 0x10000 = 0x92 → bits v 8 0 ≤ (a - 0x920000) / 4) →
     ∃ c, Completes (.shadowCopyWrite m d a v) s c ∧ c.tbl h a = v &&& tableMask a ∧
       (∀ b, b ≠ a → c.tbl h b = s.chip.tbl h b) ∧ (∀ b, c.tblAct h b = s.chip.tblAct h b) ∧
       (s.chip.committed = false → ∀ w, s.chip.cfg.swap = some w → w.ending = none →
         c.cfg.swap.map (·.ending) = some (some 3))) ∧
   (∀ (s : State) (m : Master) (d : DieId) (a : Nat) (v : Word), s.serves → s.chip.hasDie d = true → a % 4 = 0 →
     0x800000 ≤ a → a < 0x900000 → s.chip.flag d F.MAP_TABLE_VIEW_active = true →
     Completes (.shadowCopyWrite m d a v) s s.chip) ∧
   (∀ (s : State) (m : Master) (d : DieId) (k : Nat) (v : Word), s.serves → s.chip.hasDie d = true → k < 256 →
     (bits v 8 0 ≤ k → ∃ c, Completes (.shiftTableWrite m d k v) s c ∧ c.tbl d (0x920000 + 4 * k) = v &&& 0x1FF ∧
       (∀ b, b ≠ 0x920000 + 4 * k → c.tbl d b = s.chip.tbl d b)) ∧
     (k < bits v 8 0 → ∃ c, Completes (.shiftTableWrite m d k v) s c ∧ c.tbl d (0x920000 + 4 * k) = word k ∧
       (c.die d).evtCount 66 = min 255 ((s.chip.die d).evtCount 66 + 1))))

/-- The capture reads of the span log, the job log, the correctable-error log and the Cask directory (R44, R165, R305, R359):
the read of word 0 of an entry returns it and captures all of the entry's words in that log's one buffer, and changes
nothing else. A span entry that cannot be read (R300) returns 0xA5A5A5A5, counts as a poison read of its region, and raises
the loss of the entry.

EVL_RD_IDX_WRITE and JLOG_RD_IDX_WRITE (R46, R359): an index at most as far ahead as the log has entries frees those it
passes; one further ahead changes nothing but raises source 2; a full lap is taken only from a full log.

EVL_CLEAR_OVERFLOW (R47): the count of lost spans and the first and last identities are cleared, and halt_on_overflow takes
the value written. -/
def Obligations.LogAccess : Prop :=
  ((∀ (s : State) (m : Master) (d : DieId) (i : Nat), s.serves → s.chip.hasDie d = true → i < 1024 →
     let words := (s.chip.die d).evl.words i
     ((s.chip.die d).evl.bad.contains i = false → Completes (.spanEntryCaptureRead m d i) s
       ((s.chip.onEvl d fun x => { x with capture := some ⟨i, words⟩ }).emit (.readData m (words.getD 0 0)))) ∧
     ((s.chip.die d).evl.bad.contains i = true → ∃ c, Completes (.spanEntryCaptureRead m d i) s c ∧
       c.out = s.chip.out ++ [.readData m 0xA5A5A5A5] ∧
       (c.die d).evtCount 3 = min 255 ((s.chip.die d).evtCount 3 + 1) ∧
       (c.die d).evtCount 161 = min 255 ((s.chip.die d).evtCount 161 + 1) ∧
       c.fld d F.ECC_UE_LAST_poison = 1 ∧ c.fld d F.ECC_UE_LAST_region = 9)) ∧
   (∀ (s : State) (m : Master) (d : DieId) (i : Nat), s.serves → s.chip.hasDie d = true → i < 256 →
     let words := (s.chip.die d).jlog.words i
     Completes (.jobLogCaptureRead m d i) s
       ((s.chip.onJlog d fun x => { x with capture := some ⟨i, words⟩ }).emit (.readData m (words.getD 0 0)))) ∧
   (∀ (s : State) (m : Master) (d : DieId) (i : Nat), s.serves → s.chip.hasDie d = true → i < 16 →
     let words := s.chip.eccWords d i
     Completes (.errorLogCaptureRead m d i) s
       ((s.chip.onDram d fun x => { x with logCapture := some ⟨i, words⟩ }).emit (.readData m (words.getD 0 0)))) ∧
   (∀ (s : State) (m : Master) (d : DieId) (i : Nat), s.serves → s.chip.hasDie d = true → i < 64 →
     let words := s.chip.entryWords d i
     Completes (.caskDirectoryCaptureRead m d i) s
       ((s.chip.onCask d fun x => { x with capture := some ⟨i, words⟩ }).emit (.readData m (words.getD 0 0))))) ∧
  ((∀ (s : State) (m : Master) (d : DieId) (v : Word), s.serves → s.chip.hasDie d = true → bit v 16 = false →
     let x := (s.chip.die d).evl
     let n := (bits v 9 0 + 1024 - x.rd) % 1024
     (n ≤ x.count → ∃ c, Completes (.evlRdIdxWrite m d v) s c ∧ (c.die d).evl.rd = bits v 9 0 ∧
       (c.die d).evl.count = x.count - n ∧ c.die d.other = s.chip.die d.other ∧
       (c.die d).regs = (s.chip.die d).regs) ∧
     (x.count < n → Completes (.evlRdIdxWrite m d v) s (s.chip.raise d 2))) ∧
   (∀ (s : State) (m : Master) (d : DieId) (v : Word), s.serves → s.chip.hasDie d = true → bit v 16 = true →
     let x := (s.chip.die d).evl
     let full : Prop := (bits v 9 0 + 1024 - x.rd) % 1024 = 0 ∧ x.count = 1024
     (full → ∃ c, Completes (.evlRdIdxWrite m d v) s c ∧ (c.die d).evl.count = 0) ∧
     (¬ full → Completes (.evlRdIdxWrite m d v) s (s.chip.raise d 2))) ∧
   (∀ (s : State) (m : Master) (d : DieId) (v : Word), s.runs → s.chip.hasDie d = true → bit v 8 = false →
     let x := (s.chip.die d).jlog
     let n := (bits v 7 0 + 256 - x.rd) % 256
     (n ≤ x.count → Completes (.jlogRdIdxWrite m d v) s
       (s.chip.onJlog d fun y => { y with rd := bits v 7 0, count := x.count - n })) ∧
     (x.count < n → Completes (.jlogRdIdxWrite m d v) s (s.chip.raise d 2)))) ∧
  (∀ (s : State) (m : Master) (d : DieId) (halt : Bool), s.serves → s.chip.hasDie d = true →
     ∃ c, Completes (.evlClearOverflow m d halt) s c ∧ c.fld d F.EVL_CTRL_halt_on_overflow = b2n halt ∧
       c.fld d F.EVL_OVF_COUNT_lost_spans = 0 ∧ c.fld d F.EVL_OVF_FIRST_JOB_job_id = 0 ∧
       c.fld d F.EVL_OVF_LAST_JOB_job_id = 0 ∧ c.fld d F.EVL_OVF_FIRST_STRIPE_stripe_id = 0 ∧
       c.fld d F.EVL_OVF_LAST_STRIPE_stripe_id = 0 ∧ c.fld d F.EVL_OVF_FIRST_V_v = 0 ∧ c.fld d F.EVL_OVF_LAST_V_v = 0 ∧
       (c.die d).evl = { (s.chip.die d).evl with overflowed := false } ∧ c.die d.other = s.chip.die d.other)

/-- LOG_ENTRY_WRITE (R42 to R47): the oldest reported span, unless R43 suppresses it, is written. While the newest entry is open
and differs in its rows and slot only, and its rows overlap or adjoin, that entry becomes the union of the two and keeps its
place (a span for all of die E's beams that die W keeps extending goes on with its open entry wherever it stands, log entry
16); otherwise, while fewer than 1,024 entries are valid, a new entry stands at the write index and source 0 is raised; in a
full log the span is lost and counted. -/
def Obligations.SpanWrite : Prop :=
  ∀ (s : State) (d : DieId) (p : Span) (rest : List Span), s.runs → s.chip.hasDie d = true →
    (s.chip.die d).evl.queue = p :: rest → (s.chip.die d).evl.suppressed p = false →
    let x := (s.chip.die d).evl
    (∀ i t, x.target (s.chip.keepsOpen d p) p = some (i, t) → ∃ c, Completes (.logEntryWrite d) s c ∧
      (c.die d).evl = { x with queue := rest, entries := smInsert i { t with span := t.span.union p } x.entries }) ∧
    (s.chip.keepsOpen d p = false → (x.last?.map (·.merges p)).getD false = false → x.count < 1024 →
      ∃ c, Completes (.logEntryWrite d) s c ∧
        (c.die d).evl.count = x.count + 1 ∧ (c.die d).evl.rd = x.rd ∧ (c.die d).evl.queue = rest ∧
        (c.die d).evl.entry? x.wr = some ⟨p, !p.ended⟩ ∧
        (c.die d).evtCount 0 = min 255 ((s.chip.die d).evtCount 0 + 1)) ∧
    (s.chip.keepsOpen d p = false → (x.last?.map (·.merges p)).getD false = false → x.count = 1024 →
      ∃ c, Completes (.logEntryWrite d) s c ∧
        (c.die d).evl.entries = x.entries ∧ (c.die d).evl.count = 1024 ∧
        c.fld d F.EVL_OVF_COUNT_lost_spans = min (2 ^ 32 - 1) (s.chip.fld d F.EVL_OVF_COUNT_lost_spans + 1) ∧
        c.fld d F.EVL_OVF_LAST_JOB_job_id = p.job % 2 ^ 32 ∧ c.fld d F.EVL_OVF_LAST_STRIPE_stripe_id = p.stripe % 2 ^ 24 ∧
        c.fld d F.EVL_OVF_LAST_V_v = p.vLast % 2 ^ 32)

/-! ### DRAM and error correction (chapters 1 and 10) -/

/-- DRAM_READ (R48, R280, R288, R300): a read of a word outside the areas whose layout is open, when no other read waits and its
client is within its budget, on a channel with fewer than 64 in flight (R281), is served: the data go back to the client,
one transaction is counted, the bank's row is open and the channel awake. A clean word changes no register and raises nothing; a poison word is counted, latched in ECC_UE_LAST with its client, and raises
source 161; an uncorrectable one raises source 160. No word of DRAM reads otherwise than before, but for one whose single
wrong bit is corrected and written back.

DRAM_READ of a client that has used up its budget (R48): the request waits behind the others, and nothing is read.

A word never written reads as poison, and a client's read of it completes as such (R287, R288, R291). -/
def Obligations.DramReadServed : Prop :=
  (∀ (s : State) (d : DieId) (client addr : Nat) (early : Bool), s.runs → s.chip.hasDie d = true →
     (s.chip.die d).dram.active = true → client < 7 → addr < 2 ^ 35 → addr % 8 = 0 → (s.chip.die d).dram.queue = [] →
     (s.chip.die d).dram.copies = [] → (s.chip.die d).dram.isOpen addr = false → s.chip.stalls d client = false →
     smGet 0 (channelOf addr) (s.chip.die d).dram.flown < 64 →
     let phys := (s.chip.die d).dram.physical addr
     ∃ t, exec (.dramRead d client none addr [] early) s = .next t ∧ (t.chip.die d).dram.queue = [] ∧
       t.chip.out = s.chip.out ++
         [.dramData d client addr (returned client (s.dramWord d addr).judge (s.dramWord d addr).readData)] ∧
       smGet 0 client (t.chip.die d).dram.used = smGet 0 client (s.chip.die d).dram.used + 1 ∧
       smGet 0 (16 * channelOf phys + bankOf phys) (t.chip.die d).dram.openRows = rowOf phys + 1 ∧
       nbit (t.chip.die d).dram.asleep (channelOf phys) = false ∧
       ((s.dramWord d addr).judge.bit? = none → ∀ k a, t.dramWord k a = s.dramWord k a) ∧
       (∀ b, (s.dramWord d addr).judge = .fixed b → t.dramWord d addr = (s.dramWord d addr).repaired) ∧
       ((s.dramWord d addr).judge = .clean → (t.chip.die d).evt = (s.chip.die d).evt ∧
         (t.chip.die d).regs = (s.chip.die d).regs) ∧
       ((s.dramWord d addr).judge = .poison →
         t.chip.fld d F.ECC_POISON_COUNT_count = min (2 ^ 32 - 1) (s.chip.fld d F.ECC_POISON_COUNT_count + 1) ∧
         t.chip.fld d F.ECC_UE_LAST_poison = 1 ∧ t.chip.fld d F.ECC_UE_LAST_region = 1 ∧
         t.chip.fld d F.ECC_UE_LAST_channel = channelOf addr ∧ t.chip.fld d F.ECC_UE_LAST_client = client ∧
         (t.chip.die d).evtCount 161 = min 255 ((s.chip.die d).evtCount 161 + 1)) ∧
       ((s.dramWord d addr).judge = .uncorrectable →
         t.chip.fld d F.ECC_UE_COUNT_count = min (2 ^ 32 - 1) (s.chip.fld d F.ECC_UE_COUNT_count + 1) ∧
         t.chip.fld d F.ECC_UE_LAST_poison = 0 ∧
         (t.chip.die d).evtCount 160 = min 255 ((s.chip.die d).evtCount 160 + 1))) ∧
  (∀ (s : State) (d : DieId) (client addr : Nat) (core : Option Nat) (flips : List Nat) (early : Bool), s.runs →
     s.chip.hasDie d = true → (s.chip.die d).dram.active = true → client < 7 → addr < 2 ^ 35 →
     (s.chip.die d).dram.queue = [] → s.chip.stalls d client = true →
     ∃ t, exec (.dramRead d client core addr flips early) s = .next t ∧
       (t.chip.die d).dram.queue = [⟨client, core, addr / 8 * 8, flips, early, 0⟩] ∧
       nbit (t.chip.die d).dram.stalled client = true ∧ (t.chip.die d).dram.used = (s.chip.die d).dram.used ∧
       t.dramW = s.dramW ∧ t.dramE = s.dramE ∧ (t.chip.die d).evt = (s.chip.die d).evt) ∧
  ((∀ d addr, (State.reset.dramWord d addr).judge = .poison) ∧ (∀ d addr, (State.reset.dramWord d addr).readData = 0xA5A5A5A5A5A5A5A5))

/-- The DRAM code (R287, R288), whatever the assignment of its columns: of a clean word that is more than two bits away from
P, one wrong bit is found and put right, and two wrong bits are found uncorrectable; a poison word with one wrong bit is
still found to be poison, and put right. -/
def Obligations.SecdedCode : Prop :=
  (∀ (data i : Nat), i < 72 →
    let w : DWord := (⟨data, 0⟩ : DWord).flip i
    w.data ≠ poisonData → (∀ k, k < 64 → w.data ^^^ poisonData ≠ 2 ^ k) →
    w.judge = .fixed i ∧ w.repaired = ⟨data, 0⟩ ∧ w.readData = data) ∧
  (∀ (data i j : Nat), i < 72 → j < 72 → i ≠ j →
    let w : DWord := ((⟨data, 0⟩ : DWord).flip i).flip j
    w.data ≠ poisonData → (∀ k, k < 64 → w.data ^^^ poisonData ≠ 2 ^ k) →
    w.judge = .uncorrectable ∧ w.repaired = w) ∧
  (∀ i, i < 72 → (poisonDWord.flip i).judge = .poisonFixed i ∧ (poisonDWord.flip i).repaired = poisonDWord ∧
    (poisonDWord.flip i).readData = poisonData)

/-- RETIRE_COMMAND and PAGE_RETIRE_COMPLETE (R297, R298): a command for a page that is not reserved, not retired and whose
channel has a free spare starts its copy to the lowest free spare; any other is refused with source 164. At the end of
the copy the page is retired to that spare and source 162 is raised.

SCRUB_READ, SRAM_SCRUB_READ and SRAM_READ_ERROR (R289, R293, R299 to R302): the scrubber goes on from a line it has read to
the next, and a clean line leaves the words as they read and raises nothing. Of an SRAM word, a rewritten one is good; one
wrong bit of the 137 is put right and counted; two make it uncorrectable: it is counted, latched with its region, raises
source 160 and becomes poison, which raises 161 at the next read. An uncorrectable or poison word that a reader meets is
latched with its region and raised alike. -/
def Obligations.RetirementAndScrubbing : Prop :=
  ((∀ (s : State) (m : Master) (d : DieId) (v : Word), s.serves → s.chip.hasDie d = true → bit v 31 = true →
     let page := bits v 22 0
     let x := (s.chip.die d).dram
     (page < reservedPage → x.isRetired page = false → x.poolFree (page % 4) ≠ 0 →
       ∃ i, i < 256 ∧ i ∉ x.sparesUsed (page % 4) ∧ (∀ j, j < i → j ∈ x.sparesUsed (page % 4)) ∧
         Completes (.retireCommand m d v) s
           (s.chip.onDram d fun y => { y with copies := y.copies ++ [⟨page % 4, page / 4, i, s.chip.now⟩] })) ∧
     (reservedPage ≤ page ∨ x.isRetired page = true ∨ x.poolFree (page % 4) = 0 →
       Completes (.retireCommand m d v) s (s.chip.raise d 164))) ∧
   (∀ (s : State) (d : DieId) (k : PageCopy) (rest : List PageCopy), s.runs → s.chip.hasDie d = true →
     (s.chip.die d).dram.copies = k :: rest → ∃ t, exec (.pageRetireComplete d) s = .next t ∧
       smGet 0 (256 * k.channel + k.spare) (t.chip.die d).dram.retired = k.page ∧
       (t.chip.die d).evtCount 162 = min 255 ((s.chip.die d).evtCount 162 + 1) ∧
       t.dram d.other = s.dram d.other ∧
       ((∀ p ∈ s.dram d, pageHas (diePage k.channel k.page) p.1 = true → p.2.judge = .clean ∨ p.2.judge = .poison) →
         (t.chip.die d).dram.copies = rest))) ∧
  ((∀ (s : State) (d : DieId) (line : Nat), s.runs → s.chip.hasDie d = true → (s.chip.die d).dram.active = true →
     s.chip.fld d F.ECC_CTRL_scrub_en = 1 → s.chip.stalls d 6 = false → (s.chip.die d).dram.copies = [] →
     (s.chip.die d).dram.owed = [] → (s.chip.die d).dram.queue = [] → (s.chip.die d).dram.servedNow s.chip.now = false →
     (s.chip.die d).dram.scrubLine = line → line + 1 < 64 * reservedPage →
     (∀ i, i < 8 → (s.dramWord d (64 * line + 8 * i)).judge = .clean) →
     (∀ i, i < 8 → (s.chip.die d).dram.isOpen (64 * line + 8 * i) = false) →
     ∃ t, exec (.scrubRead d []) s = .next t ∧ (t.chip.die d).dram.scrubLine = line + 1 ∧
       (∀ k a, t.dramWord k a = s.dramWord k a) ∧ (t.chip.die d).evt = (s.chip.die d).evt) ∧
   (∀ (s : State) (d : DieId) (region idx : Nat), s.runs → s.chip.hasDie d = true →
     s.chip.fld d F.ECC_CTRL_sram_scrub_en = 1 → 2 ≤ region → region ≤ 10 →
     let now (c : Chip) : SramState := smGet .good (16 * idx + region) (c.die d).dram.sram
     Completes (.sramScrubRead d region idx true [] false) s
       (s.chip.onDram d fun x => { x with sram := smErase (16 * idx + region) x.sram }) ∧
     (now s.chip = .good → ∀ i j, i < 137 → j < 137 → i ≠ j → ∃ c, Completes (.sramScrubRead d region idx false [i, j] false) s c ∧
       c.fld d F.ECC_UE_LAST_region = region ∧ c.fld d F.ECC_UE_LAST_1_addr_low = idx % 2 ^ 32 ∧
       c.fld d F.ECC_UE_LAST_poison = 0 ∧
       c.fld d F.ECC_UE_COUNT_count = min (2 ^ 32 - 1) (s.chip.fld d F.ECC_UE_COUNT_count + 1) ∧
       (c.die d).evtCount 160 = min 255 ((s.chip.die d).evtCount 160 + 1) ∧ now c = ⟨true, []⟩) ∧
     (now s.chip = .good → (region, idx) ∉ (s.chip.die d).dram.fixedNow → ∀ i, i < 137 →
       ∃ c, Completes (.sramScrubRead d region idx false [i] false) s c ∧
         c.fld d F.ECC_CE_COUNT_count = min (2 ^ 32 - 1) (s.chip.fld d F.ECC_CE_COUNT_count + 1) ∧
         (c.die d).evtCount 160 = (s.chip.die d).evtCount 160 ∧ now c = .good) ∧
     (now s.chip = ⟨true, []⟩ → ∃ c, Completes (.sramScrubRead d region idx false [] false) s c ∧
       c.fld d F.ECC_UE_LAST_poison = 1 ∧
       c.fld d F.ECC_POISON_COUNT_count = min (2 ^ 32 - 1) (s.chip.fld d F.ECC_POISON_COUNT_count + 1) ∧
       (c.die d).evtCount 161 = min 255 ((s.chip.die d).evtCount 161 + 1))) ∧
   (∀ (s : State) (d : DieId) (x : SramWord) (poison : Bool), s.runs → s.chip.hasDie d = true →
     ∃ c, Completes (.sramReadError d x poison) s c ∧ c.fld d F.ECC_UE_LAST_poison = b2n poison ∧
       c.fld d F.ECC_UE_LAST_region = sramRegion x ∧
       (c.die d).evtCount (if poison then 161 else 160) =
         min 255 ((s.chip.die d).evtCount (if poison then 161 else 160) + 1)))

/-- DRAM_TRAIN_START and DRAM_TRAIN_COMPLETE (R286): go starts the operation the registers describe, with the results cleared;
while one runs, go starts none. Once the management budget has let its transactions through, it ends: the channel counts as
trained and no operation runs.

DRAM_DELAY_WRITE and DRAM_FILL_START (R286, R291): a lane's delays are stored; a fill of an area that lies below the reserved
region and meets neither an enabled Grist area nor an enabled Cask area nor the area of a fill that runs starts with the
poison word (op 1) or the pattern (op 2), and any other fill is refused with source 167, as is any while the boot fill runs.

DRAM_FILL_COMPLETE (R291, R344): the boot fill of a die leaves every word of its DRAM poison and its channels in service; that
of the last die takes the boot to its configuration stage. A fill of an area ends once its budget has let it through and
nothing else waits for its words: with no error injection armed every word of the area is
the fill's word, and every word outside the area reads as before. -/
def Obligations.TrainingAndFills : Prop :=
  ((∀ (s : State) (m : Master) (d : DieId) (v : Word), s.serves → s.chip.hasDie d = true → bit v 7 = true →
     ((s.chip.die d).dram.train = none → ∃ c, Completes (.dramTrainStart m d v) s c ∧
       (c.die d).dram.train = some ⟨bits v 1 0, bits v 3 2, bits v 6 4, s.chip.fld d F.DRAM_TRAIN_ADDR_lines,
         max 1 (s.chip.fld d F.DRAM_TRAIN_LEN_lines),
         s.chip.fld d F.DRAM_TRAIN_PAT_pat_low + 2 ^ 32 * s.chip.fld d F.DRAM_TRAIN_PAT_1_pat_high⟩ ∧
       c.fld d F.DRAM_TRAIN_RESULT_3_errors = 0 ∧ c.die d.other = s.chip.die d.other) ∧
     ((s.chip.die d).dram.train.isSome = true → ∃ c, Completes (.dramTrainStart m d v) s c ∧
       (c.die d).dram = (s.chip.die d).dram)) ∧
   (∀ (s : State) (d : DieId) (t : TrainOp) (misread : List (Nat × Nat)), s.runs → (s.chip.die d).dram.train = some t →
     (s.chip.die d).dram.waiting 2 = 0 →
     ∃ s', exec (.dramTrainComplete d misread) s = .next s' ∧ (s'.chip.die d).dram.train = none ∧
       nbit (s'.chip.die d).dram.trained t.channel = true ∧ s'.dram d.other = s.dram d.other)) ∧
  ((∀ (s : State) (m : Master) (d : DieId) (ch lane : Nat) (v : Word), s.serves → s.chip.hasDie d = true → ch < 4 → lane < 72 →
     Completes (.dramDelayWrite m d ch lane v) s
       (s.chip.onDie d (·.setReg (0x0E0200 + 4 * (72 * ch + lane)) (v &&& 0x3F7F7F)))) ∧
   (∀ (s : State) (m : Master) (d : DieId) (v : Word), s.serves → s.chip.hasDie d = true → bit v 2 = true →
     bits v 1 0 = 1 ∨ bits v 1 0 = 2 →
     let a := s.chip.fld d F.DRAM_FILL_BASE_base_64k
     let n := s.chip.fld d F.DRAM_FILL_SIZE_size_64k
     let pat : DWord := ⟨s.chip.fld d F.DRAM_TRAIN_PAT_pat_low + 2 ^ 32 * s.chip.fld d F.DRAM_TRAIN_PAT_1_pat_high, 0⟩
     let meets (en base size : Fld) : Prop := s.chip.flag d en = true ∧ n ≠ 0 ∧ s.chip.fld d size ≠ 0 ∧
       a < s.chip.fld d base + s.chip.fld d size ∧ s.chip.fld d base < a + n
     let refused : Prop := 524160 < a + n ∨ s.chip.bootFilling d = true ∨
       (∃ f ∈ (s.chip.die d).dram.fills, areasMeet a n f.base64k f.size64k = true) ∨
       meets F.GRIST_CTRL_enable F.GRIST_RX_BASE_base_64k F.GRIST_RX_SIZE_size_64k ∨
       meets F.CASK_CTRL_enable F.CASK_BASE_base_64k F.CASK_SIZE_size_64k
     (¬ refused → ∃ c, Completes (.dramFillStart m d v) s c ∧
       (c.die d).dram.fills = (s.chip.die d).dram.fills ++ [⟨if bits v 1 0 = 1 then poisonDWord else pat, a, n⟩] ∧
       (c.die d).evt = (s.chip.die d).evt ∧ c.die d.other = s.chip.die d.other) ∧
     (refused → Completes (.dramFillStart m d v) s (s.chip.raise d 167)))) ∧
  ((∀ (s : State) (d : DieId), s.runs → s.chip.hasDie d = true → (s.chip.die d).dram.active = false →
     (s.chip.die d).dram.trained = 15 → s.chip.cfg.stage = .dram →
     let last : Prop := s.chip.hasDie d.other = false ∨ (s.chip.die d.other).dram.active = true
     ∃ t, exec (.dramFillComplete d) s = .next t ∧ t.dram d = [] ∧ t.dram d.other = s.dram d.other ∧
       (¬ last → (t.chip.die d).dram.active = true ∧ t.chip.cfg = s.chip.cfg) ∧ (last → t.chip.cfg.stage = .configuration)) ∧
   (∀ (s : State) (d : DieId) (f : Fill), s.runs → s.chip.hasDie d = true → (s.chip.die d).dram.active = true →
     (s.chip.die d).dram.fills = [f] → (s.chip.die d).dram.waiting 2 = 0 → (s.chip.die d).dram.retired = [] →
     (s.chip.die d).dram.copies = [] → (s.chip.die d).dram.queue = [] →
     let inside (a : Nat) : Prop := 65536 * f.base64k ≤ a ∧ a < 65536 * (f.base64k + f.size64k)
     ∃ t, exec (.dramFillComplete d) s = .next t ∧
       (t.chip.die d).dram.fills = [] ∧ t.dram d.other = s.dram d.other ∧
       (∀ a, a % 8 = 0 → ¬ inside a → t.dramWord d a = s.dramWord d a) ∧
       (s.chip.flag d F.ECC_INJECT_2_arm = false → ∀ a, a % 8 = 0 → inside a → t.dramWord d a = f.word)))

/-- BUDGET_PERIOD_START (R48, R52): at the next multiple of 4,096 core ticks every client's count of the period is latched in its
DRAM_CLIENT register, its budget register comes into force, and the counts start again at 0, but for a client whose last
transaction falls in this tick: that one counts in the new period.

REFRESH_RATE_UPDATE, REFRESH_DUE and SELF_REFRESH_ENTRY (R280, R282, R283): every 16 ms the rate of each channel follows its
temperature (1× up to 85 °C, 2× above it, 4× above 105 °C); a refresh that falls due is postponed while its open row is
wanted, at most 8 times, and otherwise closes the row; an idle channel that no request waits for enters self-refresh with its rows closed. -/
def Obligations.BudgetsAndRefresh : Prop :=
  (∀ (s : State) (d : DieId), s.runs → s.chip.hasDie d = true → 4096 * ((s.chip.die d).dram.periods + 1) ≤ s.chip.now →
     let x := (s.chip.die d).dram
     let last (n : Nat) : Nat := b2n (x.lastNow s.chip.now n)
     ∃ c, Completes (.budgetPeriodStart d) s c ∧ (c.die d).dram.periods = x.periods + 1 ∧
       (c.die d).dram.budgets = (List.range 7).map (s.chip.budgetOf d) ∧
       (∀ n, n < 7 → c.fld d (F.DRAM_CLIENT_used_last.at n) =
         (smGet 0 n x.used - last n) % 2 ^ (F.DRAM_CLIENT_used_last.hi + 1 - F.DRAM_CLIENT_used_last.lo)) ∧
       (x.owed = [] → x.fetchLeft = 0 → x.playLeft = 0 → x.panic = false → ∀ n, n < 7 → smGet 0 n (c.die d).dram.used = last n) ∧
       c.die d.other = s.chip.die d.other ∧ c = { s.chip with w := c.w, e := c.e, free := c.free }) ∧
  ((∀ (s : State) (d : DieId) (t0 t1 t2 t3 : Int), s.runs → s.chip.hasDie d = true →
     16000000 * ((s.chip.die d).dram.rateUpdates + 1) ≤ s.chip.now → ∃ c, Completes (.refreshRateUpdate d t0 t1 t2 t3) s c ∧
       (let code (t : Int) : Nat := if 105 < t then 2 else if 85 < t then 1 else 0
        smGet 0 0 (c.die d).dram.mult = code t0 ∧ smGet 0 1 (c.die d).dram.mult = code t1 ∧
        smGet 0 2 (c.die d).dram.mult = code t2 ∧ smGet 0 3 (c.die d).dram.mult = code t3) ∧
       c = s.chip.onDram d fun x => { x with mult := (c.die d).dram.mult, rateUpdates := x.rateUpdates + 1 }) ∧
   (∀ (s : State) (d : DieId) (ch bank : Nat) (wanted : Bool), s.runs → s.chip.hasDie d = true → ch < 4 → bank < 16 →
     nbit (s.chip.die d).dram.asleep ch = false →
     let n := smGet 0 (16 * ch + bank) (s.chip.die d).dram.postponed
     let row := (s.chip.die d).dram.openRow (16 * ch + bank)
     (wanted = true → row ≠ 0 → n < 8 → Completes (.refreshDue d ch bank wanted) s
       (s.chip.onDram d fun y => { y with postponed := smSet 0 (16 * ch + bank) (n + 1) y.postponed })) ∧
     ((wanted = false ∧ (s.chip.die d).dram.queue = []) ∨ row = 0 ∨ 8 ≤ n → ∃ c, Completes (.refreshDue d ch bank wanted) s c ∧
       smGet 0 (16 * ch + bank) (c.die d).dram.postponed = 0 ∧ (c.die d).dram.openRow (16 * ch + bank) = 0 ∧
       c = s.chip.onDram d fun y => { y with postponed := (c.die d).dram.postponed, openRows := (c.die d).dram.openRows })) ∧
   (∀ (s : State) (d : DieId) (ch : Nat), s.runs → s.chip.hasDie d = true → ch < 4 → (s.chip.die d).dram.active = true →
     s.chip.fld d F.DRAM_CTRL_sr_en = 1 → s.chip.sched.mode = .idle → (s.chip.die d).dram.fills = [] →
     (s.chip.die d).dram.train = none → nbit (s.chip.die d).dram.asleep ch = false → (s.chip.die d).dram.owed = [] →
     (∀ q ∈ (s.chip.die d).dram.queue, channelOf q.addr ≠ ch) →
     1000 * max 1 (s.chip.fld d F.DRAM_CTRL_sr_idle_us) ≤ s.chip.now - smGet 0 ch (s.chip.die d).dram.lastReq →
     ∃ c, Completes (.selfRefreshEntry d ch) s c ∧ nbit (c.die d).dram.asleep ch = true ∧
       ∀ bank, bank < 16 → (c.die d).dram.openRow (16 * ch + bank) = 0))

/-! ### Grist reception and the decoders (chapters 2 and 3) -/

/-- GRIST_BLOCK_ARRIVAL (R65, R69, R72, R75, R254, R257): the words that the lanes of the set carry between a START and an END are
one block of their bytes. A block whose header CRC fails, or that fails an early check, one of the header's, the length, or the
check that its granules and a descriptor are there, is NACKed with the check's reason, counted, latched and raised as source 32, and no stripe or job changes; a duplicate of an acknowledged
block changes neither either. One that passes every check is acted on: a JOB_OPEN opens its job, a STRIPE_OPEN appends its
stripe, with no block yet (without a store or a play, of which the statements of the Cask speak), a FIGURES block of a stripe
that is not played is held and waits for the verify decoder, a STRIPE_CLOSE gives its stripe the closing block_seq, and a
JOB_CLOSE closes its job. -/
def Obligations.GristBlocks : Prop :=
  ∀ (s : State) (d : DieId) (rounds : List (List (Nat × Bool × Nat))) (data : List Nat) (n : Nat), s.runs →
    s.chip.hasDie d = true → s.chip.flag d F.GRIST_CTRL_enable = true → (s.chip.die d).gr.aligned = true →
    (s.chip.die d).gr.setDue = false → (s.chip.die d).gr.rx = none → 1 ≤ n → n ≤ 8 →
    rounds.flatMap ((s.chip.die d).gr.roundWords s.chip.now) =
      (true, 1) :: data.map (fun w => (false, w)) ++ [(true, 2 + 256 * n)] →
    let bytes := deliveredBytes data n
    let h := parseHeader bytes
    let g := (s.chip.die d).grist
    let whole : Prop := bytes.length = 40 + h.compLen
    let room : Prop := g.used + granulesOf h.compLen ≤ 16 * s.chip.fld d F.GRIST_RX_SIZE_size_64k ∧ g.descs < 256
    let checked (r : Option Nat) : Prop := hdrCrcOk bytes = true ∧ s.chip.earlyReason d h = none ∧ g.duplicate h = none ∧
      (s.chip.onDie d fun x => { x with gr := { x.gr with rxShort := false } }).headerReason d h = r
    let accepted : Prop := checked none ∧ room ∧ whole
    ∃ c, Completes (.gristBlockArrival d rounds) s c ∧ (c.die d).gr.rx = none ∧
      (∀ r, (hdrCrcOk bytes = false ∧ r = 1) ∨ (hdrCrcOk bytes = true ∧ s.chip.earlyReason d h = some r) ∨
          checked (some r) ∨ (checked none ∧ ¬whole ∧ r = 0x0D) ∨ (checked none ∧ whole ∧ ¬room ∧ r = 0x0E) →
        c.fld d F.GRIST_NACK_COUNT_nacks = min (2 ^ 32 - 1) (s.chip.fld d F.GRIST_NACK_COUNT_nacks + 1) ∧
        c.fld d F.GRIST_LAST_NACK_reason = r % 256 ∧
        (c.die d).evtCount 32 = min 255 ((s.chip.die d).evtCount 32 + 1) ∧
        c.stripes d = s.chip.stripes d ∧ (c.die d).grist.jobs = g.jobs) ∧
      (hdrCrcOk bytes = true → s.chip.earlyReason d h = none → g.duplicate h = some .acked →
        (c.die d).evt = (s.chip.die d).evt ∧ c.stripes d = s.chip.stripes d ∧ (c.die d).grist.jobs = g.jobs) ∧
      (accepted → h.type = 1 → (c.die d).grist.jobs.map (·.id) = g.jobs.map (·.id) ++ [h.job] ∧
        c.stripes d = s.chip.stripes d) ∧
      (accepted → h.type = 2 → s.chip.playMatch d h.stripe = none → h.caskStore = false →
        c.stripes d = s.chip.stripes d ++ [Stripe.opened h ((s.chip.die d).kiln.heard.contains (h.job, h.stripe)) none] ∧
        (c.die d).grist.jobs = g.jobs) ∧
      (accepted → h.type = 3 → (∀ t ∈ s.chip.stripes d, t.id = h.stripe → t.play = none) →
        ∀ u ∈ c.stripes d, u.id = h.stripe → ∃ b, b ∈ u.blocks ∧ b.seq = h.seq ∧ b.state = .waiting ∧ b.held = true ∧
          b.vFirst = h.vFirst ∧ b.vLast = h.vLast ∧ b.payload = bytes.drop 40) ∧
      (accepted → h.type = 4 → ∀ u ∈ c.stripes d, u.id = h.stripe → u.closeSeq = some h.seq) ∧
      (accepted → h.type = 5 → ∀ j ∈ (c.die d).grist.jobs, j.id = h.job → j.closing = true)

/-- The verify decoder (R77, R78): it takes the block that waits first, once the block lies in the receive area whole; once it has
been read, a block that decodes to its CRC becomes verified, and one that does not, or that cannot be read or decoded, becomes
NACKed, and source 32 is raised; then the decoder is free.

The feed decoder (R79, R80, R159): a verified block that is next to feed is begun; a block whose rows are all untrusted, but
for one of a played stripe, counts as fed without a decode. A decode ends once its records are delivered and its block is
read, or at an error: the block counts as fed, the decoder is free, and a decode that does not give the verified figures
leaves every row of the block settled, so that none of them can be exposed from unknown figures. -/
def Obligations.BlockDecodes : Prop :=
  ((∀ (s : State) (d : DieId) (t : Stripe) (b : Block), s.runs → (s.chip.die d).mash.verify = none →
     (s.chip.die d).grist.nextVerify = some (t, b) → s.chip.written d b = true →
     ∃ c, Completes (.verifyDecodeStart d) s c ∧
       (c.die d).mash = { (s.chip.die d).mash with verify := some (t.job, t.id, b.seq) } ∧
       (s.chip.isGone d t b = false →
         ∀ u ∈ c.stripes d, u.id = t.id → u.job = t.job → ∀ x ∈ u.blocks, x.seq = b.seq → x.state = .verifying) ∧
       (c.die d).evt = (s.chip.die d).evt ∧ c.die d.other = s.chip.die d.other) ∧
   (∀ (s : State) (d : DieId) (t : Stripe) (b : Block) (read : MemRead), s.runs → s.chip.hasDie d = true →
     s.chip.decoding d (s.chip.die d).mash.verify = some (t, b) → (s.chip.die d).dram.waiting 0 = 0 →
     let state (c : Chip) (st : BlockState) : Prop := s.chip.isGone d t b = false →
       ∀ u ∈ c.stripes d, u.id = t.id → ∀ x ∈ u.blocks, x.seq = b.seq → x.state = st
     ∃ c, Completes (.verifyDecodeEnd d read) s c ∧ (c.die d).mash.verify = none ∧
       (∀ out, read = .clean → mashDecode b.payload b.origLen = .ok out → crc32c out = b.origCrc →
         (c.die d).evt = (s.chip.die d).evt ∧ state c .verified) ∧
       (∀ cause, (∃ out, read = .clean ∧ mashDecode b.payload b.origLen = .ok out ∧ crc32c out ≠ b.origCrc ∧ cause = 0x01) ∨
           (∃ e, read = .clean ∧ mashDecode b.payload b.origLen = .error e ∧ cause = 0x03) ∨
           (read = .poison ∧ cause = 0x04) ∨ (read = .ue ∧ cause = 0x06) →
         (c.die d).evtCount 32 = min 255 ((s.chip.die d).evtCount 32 + 1) ∧ state c (.nacked cause)))) ∧
  ((∀ (s : State) (d : DieId) (t : Stripe) (b : Block), s.runs → (s.chip.die d).mash.feed = none →
     nextFeedIn (s.chip.stripes d) = some (t, b) → b.state = .verified →
     let dead := t.play.isNone && t.allUntrusted (t.blockRows b).1 (t.blockRows b).2
     (b.held = true → dead = false → ∃ c, Completes (.feedDecodeStart d) s c ∧
       (c.die d).mash = { (s.chip.die d).mash with feed := some (t.job, t.id, b.seq), feedPos := 0, feedTaken := 0 } ∧
       (∀ u ∈ c.stripes d, u.id = t.id → ∀ x ∈ u.blocks, x.seq = b.seq → x.state = .feeding)) ∧
     (dead = true → ∃ c, Completes (.blockTreatedAsFed d) s c ∧
       (∀ u ∈ c.stripes d, u.id = t.id → ∀ x ∈ u.blocks, x.seq = b.seq → x.state = .fed))) ∧
   (∀ (s : State) (d : DieId) (t : Stripe) (b : Block) (read : MemRead) (fault : Bool), s.runs → s.chip.hasDie d = true →
     s.chip.decoding d (s.chip.die d).mash.feed = some (t, b) → s.chip.isGone d t b = false →
     let bad : Prop := fault = true ∨ read ≠ .clean
     bad ∨ (s.chip.feedDone d t b = true ∧ (s.chip.die d).dram.fetchLeft = 0 ∧ (s.chip.die d).dram.waiting feedKey = 0) →
     ∃ c, Completes (.feedDecodeEnd d read fault) s c ∧ (c.die d).mash.feed = none ∧
       (∀ u ∈ c.stripes d, u.id = t.id → (∀ x ∈ u.blocks, x.seq = b.seq → x.state = .fed) ∧
         (bad → u.job = t.job → ∀ y, (t.blockRows b).1 ≤ y → y ≤ (t.blockRows b).2 → y < u.count → u.settled y = true))))

/-- GRIST_ENABLE, GRIST_DISABLE and GRIST_FLUSH (R73, R74, R260): an enable with a receive area that lies in DRAM and holds 16 MiB
or more grants the area's credits and 256 descriptors and announces a new lane set; with any other area it is refused with
source 34; a disable, and a flush, discard every FIGURES block that is not fed; a flush grants the credits again. -/
def Obligations.GristControl : Prop :=
  ∀ (s : State) (m : Master) (d : DieId), s.serves → s.chip.hasDie d = true →
    let base := s.chip.fld d F.GRIST_RX_BASE_base_64k
    let size := s.chip.fld d F.GRIST_RX_SIZE_size_64k
    let empty (c : Chip) : Prop := (∀ t ∈ c.stripes d, ∀ b ∈ t.blocks, b.discarded = false ∧ b.held = false) ∧
      (c.die d).grist.gone = [] ∧ (c.die d).mash.verify = none ∧ (c.die d).mash.feed = none ∧
      (c.die d).grist.jobs = (s.chip.die d).grist.jobs
    (s.chip.flag d F.GRIST_CTRL_enable = false →
      (256 ≤ size → base + size ≤ 524160 → (s.chip.die d).gr.rx = none → ∃ c, Completes (.gristEnable m d) s c ∧
        c.flag d F.GRIST_CTRL_enable = true ∧ (c.die d).grist.granted = 16 * size ∧ (c.die d).grist.descGranted = 256 ∧
        (c.die d).grist.last = none ∧ (c.die d).gr.setId = ((s.chip.die d).gr.setId + 1) % 256 ∧ (c.die d).gr.reason = 1) ∧
      (size < 256 ∨ 524160 < base + size → Completes (.gristEnable m d) s (s.chip.raise d 34)) ∧
      Completes (.gristDisable m d) s s.chip ∧ Completes (.gristFlush m d) s s.chip) ∧
    (s.chip.flag d F.GRIST_CTRL_enable = true →
      Completes (.gristEnable m d) s s.chip ∧
      (∃ c, Completes (.gristDisable m d) s c ∧ c.flag d F.GRIST_CTRL_enable = false ∧ (c.die d).gr.rx = none ∧ empty c) ∧
      (∃ c, Completes (.gristFlush m d) s c ∧ c.flag d F.GRIST_CTRL_enable = true ∧ empty c ∧
        (c.die d).grist.granted = 16 * size ∧ (c.die d).grist.descGranted = 256))

/-- CREDIT_PERIODIC, FIGURES_CREDIT_RETURN and ROW_DEADLINE (R72, R73, R76, R86): 100 µs after the last CREDIT an awake return
lane carries another with the granted counters; a block that may be freed returns its granules and one descriptor; a row
that is not settled at its deadline and was open at the start of the tick is settled then, and raises source 33, and any other
row keeps the stripe's marks. -/
def Obligations.CreditsAndDeadlines : Prop :=
  (∀ (s : State) (d : DieId), s.runs → s.chip.hasDie d = true → s.chip.flag d F.GRIST_CTRL_enable = true →
    (s.chip.die d).gr.aligned = true → (s.chip.die d).gr.returnAwake = true →
    100000 ≤ s.chip.now - (s.chip.die d).grist.creditAt → 2000 ≤ s.chip.now - (s.chip.die d).gr.wokeAt →
    let g := (s.chip.die d).grist
    let x := (s.chip.die d).gr
    ∃ c, Completes (.creditPeriodic d) s c ∧
      c.out = s.chip.out ++ [.grist d x.returnLane (sealMessage [1 + b2n g.restart * 65536, g.granted, g.descGranted, 0, 0])
        (s.chip.grPos d x.returnLane)] ∧
      (c.die d).grist = { g with
        sentGranted := g.granted, sentDesc := g.descGranted, creditAt := s.chip.now, creditDirty := false,
        restart := false }) ∧
  (∀ (s : State) (d : DieId) (t : Stripe) (b : Block) (id seq : Nat), s.runs → s.chip.stripe? d id = some t →
    t.block? seq = some b → t.canFree b = true → ∃ c, Completes (.figuresCreditReturn d id seq) s c ∧
      (c.die d).grist.granted = ((s.chip.die d).grist.granted + granulesOf b.compLen) % 2 ^ 32 ∧
      (c.die d).grist.descGranted = ((s.chip.die d).grist.descGranted + 1) % 2 ^ 32 ∧
      (∀ u ∈ c.stripes d, u.id = id → ∀ x ∈ u.blocks, x.seq = seq → x.held = false)) ∧
  (∀ (s : State) (d : DieId) (v : View) (t : Stripe) (row : Nat), s.runs → s.chip.hasDie d = true →
    (s.chip.die d).view = some v →
    s.chip.sched.mode = .exposing → s.chip.sched.slotAt = s.chip.now → row < v.rows →
    (v.s0 + v.deadline row) % m48 = s.chip.sched.slot → s.chip.stripe? d v.stripe = some t →
    (t.settled row = true → Completes (.rowDeadline d row) s s.chip) ∧
    (t.settled row = false → ∃ c, Completes (.rowDeadline d row) s c ∧
      (∀ cause, s.chip.openCause d t row = some cause →
        (∀ u ∈ c.stripes d, u.id = v.stripe → u.job = t.job → row < u.count → u.settled row = true) ∧
        (c.die d).evtCount 33 = min 255 ((s.chip.die d).evtCount 33 + 1)) ∧
      (s.chip.openCause d t row = none → ∀ u ∈ c.stripes d, ∃ w ∈ s.chip.stripes d, w.id = u.id ∧ w.marks = u.marks)))

/-! ### The Kiln and the Taster (chapter 3), and the map check (chapter 4) -/

/-- TUN_ROW_RELEASE, KILN_STRIPE_BIND and KILN_ROW_RASTERIZE (R35, R112, R117): a row that meets R35 is released; a stripe whose
first record or first row is next binds, while no swap is armed; a row of a bound stripe that is ready, in whose work no
memory reads back in error, holds the gray levels of its accumulated doses, and each pixel that saturates is counted.

FIGURE_RECORD (R97, R98, R114): a record of the block being fed that is valid and lies in the block's rows is held, if it
meets a row, and the decoder goes on behind it; an invalid one is counted and raises source 64, and the rest of the block is
discarded. -/
def Obligations.KilnRows : Prop :=
  ((∀ (s : State) (d : DieId) (t : Stripe) (id row : Nat), s.runs → s.chip.stripe? d id = some t →
     s.chip.releasable d t row = true → ∃ c, Completes (.tunRowRelease d id row) s c ∧
       (∀ u ∈ c.stripes d, u.id = id → (u.row row).released = true)) ∧
   (∀ (s : State) (d : DieId) (t : Stripe) (id : Nat), s.runs → s.chip.stripe? d id = some t → t.binding = none →
     t.play = none → s.chip.swapArmed = false →
     (s.chip.nextRecord d).map (·.1.id) = some id ∨ s.chip.rowReady d t (s.chip.bindingNow d none) 0 = true →
     ∃ c, Completes (.kilnStripeBind d id) s c ∧
       (∀ u ∈ c.stripes d, u.id = id → u.binding = some (s.chip.bindingNow d none)) ∧
       (c.die d).kiln = (s.chip.die d).kiln ∧ c.die d.other = s.chip.die d.other) ∧
   (∀ (s : State) (d : DieId) (t : Stripe) (b : Binding) (id row : Nat) (run : RowRun), s.runs → s.chip.hasDie d = true →
     s.chip.stripe? d id = some t → t.binding = some b → t.play = none → s.chip.rowReady d t b row = true →
     run.differ = [] → run.fig = .clean → run.dens = .clean → run.acc = .clean →
     let doses := rowDoses b t.figs t.count (rasterFirst s.chip d b.sxLog2) (rasterWidth s.chip d b.sxLog2) row
     let gray := doses.map grayOf
     ∃ c, Completes (.kilnRowRasterize d id row run) s c ∧
       (∀ u ∈ c.stripes d, u.id = id → (u.row row).gray = some (if gray.all (· == 0) then [] else gray)) ∧
       c.fld d F.KILN_SAT_COUNT_saturated =
         min (2 ^ 32 - 1) (s.chip.fld d F.KILN_SAT_COUNT_saturated + (doses.filter (3968 ≤ ·)).length))) ∧
  (∀ (s : State) (d : DieId) (t : Stripe) (b : Block) (bind : Binding) (orig : List Nat), s.runs → s.chip.hasDie d = true →
     s.chip.nextRecord d = some (t, b, orig) → s.chip.stripe? d t.id = some t → t.binding = some bind →
     let pos := (s.chip.die d).mash.feedPos
     (∀ f next, readRecord orig pos = .ok ⟨some f, next⟩ →
       f.extents t.count (bind.shiftEn f.cls) ≠ [] →
       (∀ x ∈ f.extents t.count (bind.shiftEn f.cls), (t.blockRows b).1 ≤ x.1 ∧ x.2 ≤ (t.blockRows b).2) →
       ∃ c, Completes (.figureRecord d .clean) s c ∧ (c.die d).mash.feedPos = next ∧
         (∀ u ∈ c.stripes d, u.id = t.id → ∃ g, u.figs.getLast? = some g ∧ g.shape = f.shape ∧ g.cls = f.cls)) ∧
     (∀ e, readRecord orig pos = .error e →
       ∃ c, Completes (.figureRecord d .clean) s c ∧
         (∀ u ∈ c.stripes d, u.id = t.id → u.discarding = true) ∧
         c.fld d F.KILN_FIG_ERR_COUNT_fig_errors = min (2 ^ 32 - 1) (s.chip.fld d F.KILN_FIG_ERR_COUNT_fig_errors + 1) ∧
         (c.die d).evtCount 64 = min 255 ((s.chip.die d).evtCount 64 + 1)))

/-- TASTER_COMPARE_COMPLETE and KILN_ENGINE_EN_WRITE (R121, R122): a completed comparison of a sampled tile is counted, and the
tile is sampled no longer; a mismatch is counted with the engine that rasterized the tile, and leaves every row of the tile
settled. The engines written are enabled, one that was retired with its mismatch history cleared; source 69 is raised when
their number falls below 17; an engine not among them keeps its mismatch history; and one that is due to be retired is
retired at once, be it written enabled or not.

MAP_CHECK_COMPLETE (R138): a check that found nothing passes; one that failed records its kind and index and raises
source 74. -/
def Obligations.TasterAndMapCheck : Prop :=
  ((∀ (s : State) (d : DieId) (t : Stripe) (id tx ty : Nat) (x : Nat × Nat × Nat) (mismatch : Bool), s.runs →
     s.chip.hasDie d = true → s.chip.stripe? d id = some t → t.tiles.find? (fun x => x.1 == tx && x.2.1 == ty) = some x →
     x.2.2 < 32 →
     (∀ y, 32 * ty ≤ y → y < 32 * ty + 32 → y < t.count →
       t.untrusted y = true ∨ (t.row y).gray.isSome = true ∨ (t.row y).released = true) →
     ∃ c, Completes (.tasterCompareComplete d id tx ty mismatch) s c ∧
       c.fld d F.TASTE_SAMPLE_COUNT_count = min (2 ^ 32 - 1) (s.chip.fld d F.TASTE_SAMPLE_COUNT_count + 1) ∧
       c.fld d F.TASTE_MISMATCH_COUNT_count =
         min (2 ^ 32 - 1) (s.chip.fld d F.TASTE_MISMATCH_COUNT_count + (if mismatch then 1 else 0)) ∧
       (mismatch = true → c.fld d F.TASTE_LAST_MISMATCH_engine = x.2.2 ∧ ∀ u ∈ c.stripes d, u.id = id → u.count = t.count →
         ∀ y, 32 * ty ≤ y → y < 32 * ty + 32 → y < u.count → u.settled y = true)) ∧
   (∀ (s : State) (m : Master) (d : DieId) (v : Word), s.serves → s.chip.hasDie d = true →
     let k := (s.chip.die d).kiln
     let left : Kiln := { k with
       hist := k.hist.filter fun p => !(bit v p.1 && k.retired.contains p.1)
       retired := k.retired.filter fun n => !(bit v n) }
     ∃ c, Completes (.kilnEngineEnWrite m d v) s c ∧
       (∀ n, bit v n = false → smGet [] n (c.die d).kiln.hist = smGet [] n (s.chip.die d).kiln.hist) ∧
       (left.retiring = [] → c.fld d F.KILN_ENGINE_EN_engine_en = v.toNat ∧ (c.die d).kiln = left ∧
         (c.die d).evtCount 69 = (if 17 ≤ s.chip.engines d ∧ popcount 32 v.toNat < 17
           then min 255 ((s.chip.die d).evtCount 69 + 1) else (s.chip.die d).evtCount 69)) ∧
       (∀ n, n ∈ left.retiring → nbit (c.fld d F.KILN_ENGINE_EN_engine_en) n = false ∧
         nbit (c.fld d F.KILN_ENGINE_RETIRED_retired) n = true ∧ n ∈ (c.die d).kiln.retired))) ∧
  (∀ (s : State) (d : DieId), s.runs → s.chip.hasDie d = true → (s.chip.die d).mapCheck.busy = true →
     (s.chip.mapFailure d = none →
       Completes (.mapCheckComplete d) s (s.chip.onDie d fun x => { x with mapCheck := ⟨false, true, 0, 0⟩ })) ∧
     (∀ k i, s.chip.mapFailure d = some (k, i) → Completes (.mapCheckComplete d) s
       ((s.chip.onDie d fun x => { x with mapCheck := ⟨false, false, k, i⟩ }).raise d 74)))

/-- The seam messages (R124, R125): a STRIPE_OPEN report lets the other die send margins; a row's margin message carries its
columns nearest the seam, or the flag of an untrusted row, once the rows before it have been sent; a margin that agrees with
the row clears its seam check, one that differs is counted, settles the row and is reported back, and one that comes before
its row is rasterized waits for it; a reported mismatch settles a row that is not released. -/
def Obligations.SeamMessages : Prop :=
  (∀ (s : State) (d : DieId) (job id : Nat) (rest : List (Nat × Nat)), s.runs → s.chip.evuneUp = true →
    (s.chip.die d.other).kiln.openOut = (job, id) :: rest → ∃ c, Completes (.stripeOpenReport d) s c ∧
      (c.die d.other).kiln.openOut = rest ∧
      (∀ t, s.chip.stripe? d id = some t → t.job = job → ∀ u ∈ c.stripes d, u.id = id → u.otherHolds = true) ∧
      (s.chip.stripe? d id = none → (job, id) ∈ (c.die d).kiln.heard)) ∧
  (∀ (s : State) (d : DieId) (t : Stripe) (id row : Nat) (e : List Nat × List Nat), s.runs → s.chip.evuneUp = true →
    s.chip.stripe? d id = some t → t.otherHolds = true → row < t.count → (t.row row).marginSent = false →
    (∀ y, y < row → (t.row y).marginSent = true) → t.untrusted row = true ∨ (t.row row).edge = some e →
    ∃ c, Completes (.marginMessageSend d id row) s c ∧
      (c.die d).kiln.marginOut = (s.chip.die d).kiln.marginOut ++
        [⟨t.job, t.id, row, if t.untrusted row then none else some e.2⟩] ∧
      (∀ u ∈ c.stripes d, u.id = id → (u.row row).marginSent = true)) ∧
  (∀ (s : State) (d : DieId) (t : Stripe) (m : Margin) (rest : List Margin) (g : List Nat), s.runs →
    s.chip.hasDie d = true → s.chip.evuneUp = true → (s.chip.die d.other).kiln.marginOut = m :: rest →
    s.chip.stripe? d m.stripe = some t → t.job = m.job → (t.row m.row).released = false →
    (t.row m.row).seamUnchecked = false → m.gray = some g →
    ∃ c, Completes (.marginMessageReceive d) s c ∧ (c.die d.other).kiln.marginOut = rest ∧
      (∀ e, (t.row m.row).edge = some e → (∀ u ∈ c.stripes d, u.id = t.id → (u.row m.row).seamOk = true) ∧
        (g ≠ e.1 →
          c.fld d F.TASTE_SEAM_MISMATCH_COUNT_count =
            min (2 ^ 32 - 1) (s.chip.fld d F.TASTE_SEAM_MISMATCH_COUNT_count + 1) ∧
          (∀ u ∈ c.stripes d, u.id = t.id → m.row < u.count → u.settled m.row = true) ∧
          (m.job, m.stripe, m.row) ∈ (c.die d).kiln.mismatchOut)) ∧
      ((t.row m.row).edge = none → t.untrusted m.row = false → t ∈ c.stripes d → m ∈ (c.die d).kiln.marginIn)) ∧
  (∀ (s : State) (d : DieId) (t : Stripe) (job id y : Nat) (rest : List (Nat × Nat × Nat)), s.runs →
    s.chip.evuneUp = true → (s.chip.die d.other).kiln.mismatchOut = (job, id, y) :: rest →
    s.chip.stripe? d id = some t → t.job = job → (t.row y).released = false →
    ∃ c, Completes (.seamMismatchReceive d) s c ∧ (c.die d.other).kiln.mismatchOut = rest ∧
      (∀ u ∈ c.stripes d, u.id = id → y < u.count → u.settled y = true))

/-! ### The Cask (chapter 5) -/

/-- CASK_CHUNK_COMMIT (R48, R151, R153, R156): a staged chunk becomes a record with its head, in granules of the entry's own or
new ones, and while the budget of Cask write is used up it waits to be written; a record that has been written and read
back, and whose original is that of the staged rows, is committed, the last one making the entry ready, or one that is let go
if the host has freed it in this clock; a record whose original differs fails the store and is counted.

CASK_PLAY_BIND and CASK_CHUNK_READ (R158, R160, R161): a stripe binds to an entry of its size that was ready at the start of
the clock and whose directory word can be read, with the Cask enabled, counted in the entry's plays, and one whose entry is free is refused, with every row
settled; a chunk whose lines have been read and that passes its checks gives each row its stored levels, or settles it where
the mask has a hole, and one that DRAM cannot give back is counted, with its rows settled. -/
def Obligations.CaskStoreAndPlay : Prop :=
  ((∀ (s : State) (d : DieId) (n : Nat) (stream : List Nat) (read : MemRead) (flips : List (Nat × Nat)), s.runs →
     let c0 := s.chip.caskTake d
     let e := (c0.die d).cask.entry n
     let ch := chunkOf e.chunks.length (caskRowBytes c0 d e.sxLog2) e.nextRows stream
     let want := granulesFor (64 * (e.units + ch.lines)) - e.granules
     (c0.die d).cask.writing = none → c0.chunkReady d = some n → stream.length < 65536 → want ≤ c0.granulesAtStart d →
     (c0.die d).dram.budgets.getD 5 0 ≤ smGet 0 5 (c0.die d).dram.used →
     ∃ c, Completes (.caskChunkCommit d stream read flips) s c ∧ (c.die d).cask.writing = some ⟨n, ch, false⟩ ∧
       (c.die d).cask.freeGranules = (c0.die d).cask.freeGranules - want ∧
       (c.die d).cask.entry n = { e with granules := e.granules + want } ∧ (c.die d).dram.waiting 5 ≠ 0) ∧
   (∀ (s : State) (d : DieId) (n : Nat) (ch : Chunk) (stream : List Nat) (flips : List (Nat × Nat)), s.runs →
     let c0 := s.chip.caskTake d
     let e := (c0.die d).cask.entry n
     let rowBytes := caskRowBytes c0 d e.sxLog2
     (c0.die d).cask.writing = some ⟨n, ch, true⟩ → (c0.die d).dram.waiting 5 = 0 → (c0.die d).dram.waiting 4 = 0 →
     ((ch.flipped flips).original e.chunks.length rowBytes = some (chunkOriginal rowBytes e.nextRows) →
       ∃ c, Completes (.caskChunkCommit d stream .clean flips) s c ∧ (c.die d).cask.writing = none ∧
         ((c.die d).cask.entry n).chunks = e.chunks ++ [ch] ∧
         (e.rows ≤ 16 * (e.chunks.length + 1) → ((c.die d).cask.entry n).state =
           if n ∈ (c0.die d).cask.asked then .ending else .ready) ∧
         (∀ m, m ≠ n → (c.die d).cask.entry m = (c0.die d).cask.entry m)) ∧
     ((ch.flipped flips).original e.chunks.length rowBytes ≠ some (chunkOriginal rowBytes e.nextRows) →
       ∃ c, Completes (.caskChunkCommit d stream .clean flips) s c ∧ (c.die d).cask.writing = none ∧
         c.fld d F.CASK_VERIFY_MISMATCH_COUNT_count =
           min (2 ^ 32 - 1) (c0.fld d F.CASK_VERIFY_MISMATCH_COUNT_count + 1) ∧
         (e.state = .storing → (c.die d).cask.entry n = CaskEntry.none ∧ c.fld d F.CASK_LAST_FAIL_reason = 6)))) ∧
  ((∀ (s : State) (d : DieId) (t : Stripe) (p : Play) (id : Nat), s.runs →
     s.chip.stripe? d id = some t → t.play = some p → p.bound = false → p.failed = false → s.chip.swapArmed = false →
     s.chip.tunFree d (s.chip.act d F.MAP_GEOM_sx_log2) = true →
     ((s.chip.stripes d).takeWhile (·.id != id)).all (fun o => o.rowsDone 0 (o.count - 1)) = true →
     let e := (s.chip.die d).cask.entry p.entry
     let was := s.chip.startDie d
     ((s.chip.die d).cask.badDir.contains p.entry = false → was.fld F.CASK_CTRL_enable = 1 → (was.cask.entry p.entry).state = .ready → e.state ≠ .free →
       e.sxLog2 = s.chip.act d F.MAP_GEOM_sx_log2 → e.rows = t.count → ∃ c, Completes (.caskPlayBind d id .clean) s c ∧
         (∀ u ∈ c.stripes d, u.id = id → u.play = some { p with bound := true } ∧ u.binding.isSome = true) ∧
         ((c.die d).cask.entry p.entry).plays = min 255 (e.plays + 1)) ∧
     (e.state = .free → ∃ c, Completes (.caskPlayBind d id .clean) s c ∧
       (∀ u ∈ c.stripes d, u.id = id → ∀ y, y < u.count → u.settled y = true) ∧
       c.fld d F.CASK_PLAY_ERR_COUNT_count = min (2 ^ 32 - 1) (s.chip.fld d F.CASK_PLAY_ERR_COUNT_count + 1))) ∧
   (∀ (s : State) (d : DieId) (t : Stripe) (p : Play) (id i : Nat) (ch : Chunk) (l : List Nat), s.runs →
     s.chip.stripe? d id = some t → t.play = some p → p.bound = true → p.chunks.length = i →
     ((s.chip.die d).cask.entry p.entry).chunks[i]? = some ch →
     s.chip.tunFreeFor d (s.chip.sxOf d t) (headData ch.head) = true →
     (s.chip.die d).cask.fetching = some (id, i, ch.lines) → (s.chip.die d).dram.waiting playKey = 0 →
     (s.chip.die d).dram.playLeft = 0 →
     let n := caskRowBytes s.chip d ((s.chip.die d).cask.entry p.entry).sxLog2
     (ch.original i n = some l → ∃ c, Completes (.caskChunkRead d id i .clean []) s c ∧ (c.die d).cask.fetching = none ∧
       (∀ u ∈ c.stripes d, u.id = id → u.play = some { p with chunks := p.chunks ++ [i] } ∧
         (∀ j, j < headRows ch.head → nbit (headHoles ch.head) j = true → 16 * i + j < u.count →
           u.settled (16 * i + j) = true) ∧
         (∀ j g, (chunkRows n (headHoles ch.head) (headRows ch.head) 0 l)[j]? = some (some g) → 16 * i + j < t.count →
           t.untrusted (16 * i + j) = false →
           (u.row (16 * i + j)).gray = some (if g.all (· == 0) then [] else g)))) ∧
     (∃ c, Completes (.caskChunkRead d id i .ue []) s c ∧
       c.fld d F.CASK_READ_ERR_COUNT_count = min (2 ^ 32 - 1) (s.chip.fld d F.CASK_READ_ERR_COUNT_count + 1) ∧
       (∀ u ∈ c.stripes d, u.id = id → ∀ j, j < 16 → 16 * i + j < u.count → u.settled (16 * i + j) = true))))

/-- CASK_FREE_ENTRY, CASK_FREE_ALL, CASK_ENABLE, CASK_DISABLE and CASK_ENTRY_FREED (R154, R162, R163): a ready entry that is freed
is to end, in the next clock, or once its plays have ended; one being stored is noted, and at the end of the clock its store
fails with reason 8 and is counted; any other stays. Free-all leaves no entry ready, and every store noted. An enable with an
area in DRAM apart from the receive area makes its granules free, any other is refused with source 79, and one of an enabled
Cask sets the effort alone. A disable leaves every entry free, or to end. A played entry that waits becomes free and gives
its granules back once nothing plays it. -/
def Obligations.CaskControl : Prop :=
  (∀ (s : State) (m : Master) (d : DieId) (n : Nat), s.serves → s.chip.hasDie d = true → n < 64 →
    let e := (s.chip.die d).cask.entry n
    (e.state = .ready → ∃ c, Completes (.caskFreeEntry m d n) s c ∧
      (c.die d).cask.entry n =
        { e with state := if s.chip.entryPlayed d n then .freeing else .ending, askedAt := s.chip.now } ∧
      (∀ k, k ≠ n → (c.die d).cask.entry k = (s.chip.die d).cask.entry k)) ∧
    (e.state = .storing → ∃ c, Completes (.caskFreeEntry m d n) s c ∧
      (c.die d).cask = { (s.chip.die d).cask with asked := (s.chip.die d).cask.asked ++ [n] }) ∧
    (e.state = .free ∨ e.state = .freeing ∨ e.state = .ending → Completes (.caskFreeEntry m d n) s s.chip)) ∧
  (∀ (c : Chip) (d : DieId) (n : Nat),
    ((c.die d).cask.asked = [n] → ((c.die d).cask.entry n).state = .storing →
      ((c.caskEnd d).die d).cask.entry n = CaskEntry.none ∧ (c.caskEnd d).fld d F.CASK_LAST_FAIL_reason = 8 ∧
      (c.caskEnd d).fld d F.CASK_STORE_FAIL_COUNT_count =
        min (2 ^ 32 - 1) (c.fld d F.CASK_STORE_FAIL_COUNT_count + 1)) ∧
    (((c.die d).cask.entry n).state = .ending →
      (((c.die d).cask.entry n).askedAt < c.now → ((c.caskTick d).die d).cask.entry n = CaskEntry.none) ∧
      ((∀ p ∈ (c.die d).cask.entries, p.1 = n → c.now ≤ p.2.askedAt) →
        ((c.caskTick d).die d).cask.entry n = (c.die d).cask.entry n))) ∧
  (∀ (s : State) (m : Master) (d : DieId), s.serves → s.chip.hasDie d = true → ∃ c, Completes (.caskFreeAll m d) s c ∧
    ∀ n, ((c.die d).cask.entry n).state ≠ .ready ∧
      (((c.die d).cask.entry n).state = .storing → n ∈ (c.die d).cask.asked)) ∧
  (∀ (s : State) (m : Master) (d : DieId) (effort : Nat), s.serves → s.chip.hasDie d = true → effort < 8 →
    let base := s.chip.fld d F.CASK_BASE_base_64k
    let size := s.chip.fld d F.CASK_SIZE_size_64k
    let rx := s.chip.fld d F.GRIST_RX_BASE_base_64k
    let rxSize := s.chip.fld d F.GRIST_RX_SIZE_size_64k
    let fits : Prop := size ≠ 0 ∧ base + size ≤ 524160 ∧ (base + size ≤ rx ∨ rx + rxSize ≤ base)
    (s.chip.flag d F.CASK_CTRL_enable = false → fits → ∃ c, Completes (.caskEnable m d effort) s c ∧
      c.flag d F.CASK_CTRL_enable = true ∧ c.fld d F.CASK_CTRL_effort = effort ∧
      (c.die d).cask = { (s.chip.die d).cask with freeGranules := 16 * size }) ∧
    (s.chip.flag d F.CASK_CTRL_enable = true →
      Completes (.caskEnable m d effort) s (s.chip.put d F.CASK_CTRL_effort effort)) ∧
    (s.chip.flag d F.CASK_CTRL_enable = false → ¬fits →
      Completes (.caskEnable m d effort) s ((s.chip.put d F.CASK_CTRL_effort effort).raise d 79)) ∧
    (∃ c, Completes (.caskDisable m d effort) s c ∧ c.flag d F.CASK_CTRL_enable = false ∧
      ∀ n, ((c.die d).cask.entry n).state = .free ∨ ((c.die d).cask.entry n).state = .freeing ∨
        ((c.die d).cask.entry n).state = .ending)) ∧
  (∀ (s : State) (d : DieId) (n : Nat), s.runs → ((s.chip.die d).cask.entry n).state = .freeing →
    s.chip.entryPlayed d n = false →
    ∃ c, Completes (.caskEntryFreed d n) s c ∧ (c.die d).cask.entry n = CaskEntry.none ∧
      (c.die d).cask.freeGranules = min (16 * s.chip.fld d F.CASK_SIZE_size_64k)
        ((s.chip.die d).cask.freeGranules + ((s.chip.die d).cask.entry n).granules) ∧
      (∀ k, k ≠ n → (c.die d).cask.entry k = (s.chip.die d).cask.entry k) ∧ c.die d.other = s.chip.die d.other)

/-! ### Position channels (chapter 6) -/

/-- POSITION_WORD (R166, R169, R170): on a channel in lock, and not in a clock fault, a word with a coding error is counted and
raises source 110; one whose CRC fails too; a word with a channel fault, or without the reference mark once it has been
seen, or that jumps, is counted and makes the channel invalid; any other word of a valid or lost channel is accepted, its
position, stamp and sequence number stored, and the channel is valid. The other channels stay. A word whose coding errors
are the fourth in 64 symbols takes the receiver out of lock. -/
def Obligations.PositionWords : Prop :=
  ∀ (s : State) (ch : Nat) (errors : List Nat) (control : Bool) (b : List Nat), s.runs → ch < 3 → s.chip.schedHere = true →
    (s.chip.chan ch).lock = true → (s.chip.chan ch).state ≠ .off → s.chip.w.clockFault = false →
    let x := s.chip.chan ch
    let heard := x.hear (wordSymbols errors) s.chip.now
    let faulty : Prop := wordFlag b 0 = true ∨ (wordFlag b 2 = false ∧ x.refSeen = true) ∨ s.chip.jumps ch (wordPos b) = true
    let coded : Prop := errors = [] ∧ control = false ∧ b.length = 9
    let good : Prop := coded ∧ leAt b 7 2 = crc16 (b.take 7) ∧ wordFlag b 3 = false
    (¬coded → ∃ c, Completes (.positionWord ch errors control b) s c ∧
      c.fld .w (F.SLOT_POS_ERR_coding.at ch) = min (2 ^ 8 - 1) (s.chip.fld .w (F.SLOT_POS_ERR_coding.at ch) + 1) ∧
      (heard.unlocks s.chip.now = true → x.state = .valid ∨ x.state = .lost → (c.chan ch).state = .noLock ∧
        (c.chan ch).lock = false) ∧
      (∀ n, n < 3 → n ≠ ch → c.chan n = s.chip.chan n)) ∧
    (heard.unlocks s.chip.now = false →
      (¬coded → Completes (.positionWord ch errors control b) s
        (((s.chip.bump .w (F.SLOT_POS_ERR_coding.at ch)).raise .w 110).onChan ch fun _ => heard)) ∧
      (coded → leAt b 7 2 ≠ crc16 (b.take 7) ∨ wordFlag b 3 = true → Completes (.positionWord ch errors control b) s
        (((s.chip.bump .w (F.SLOT_POS_ERR_crc.at ch)).raise .w 110).onChan ch fun _ => heard)) ∧
      (good → faulty → ∃ c, Completes (.positionWord ch errors control b) s c ∧ (c.chan ch).state = .invalid ∧
        c.fld .w F.SLOT_POS_FAULT_COUNT_count = min (2 ^ 32 - 1) (s.chip.fld .w F.SLOT_POS_FAULT_COUNT_count + 1) ∧
        (x.state ≠ .invalid → c.w.evtCount 110 = min 255 (s.chip.w.evtCount 110 + 1)) ∧
        (x.state = .valid → s.chip.sched.mode = .exposing → s.chip.sched.ending = none → c.sched.ending = some 0x0F) ∧
        (∀ n, n < 3 → n ≠ ch → c.chan n = s.chip.chan n)) ∧
      (good → ¬faulty → x.state = .valid ∨ x.state = .lost → ∃ c, Completes (.positionWord ch errors control b) s c ∧
        (c.chan ch).state = .valid ∧ (c.chan ch).pos = wordPos b ∧ (c.chan ch).stamp = s.chip.tick48 ∧
        (c.chan ch).seq = wordSeq b ∧ (c.chan ch).prevSeq = some (wordSeq b) ∧
        (∀ n, n < 3 → n ≠ ch → c.chan n = s.chip.chan n)))

/-- Changes of a channel's state (R166, R170, R171, R173): lock alone changes no state; symbols that take a receiver out of lock
leave a valid or lost channel with none, and any other symbols change only what the receiver has heard; a valid channel
without a word for coast_ns, 100 ns at least, is lost; one that has rested for the still timeout is still; a channel that
leaves valid ends the stripe being exposed; each change raises source 110. A channel is enabled from off into no lock,
disabled into off, and a rearmed invalid one stays invalid until a word with the reference mark. -/
def Obligations.ChannelStates : Prop :=
  (∀ (s : State) (ch : Nat) (symbols : List PosSymbol), s.runs → ch < 3 →
    let x := s.chip.chan ch
    let heard := x.hear symbols s.chip.now
    let inStripe : Prop := s.chip.sched.mode = .exposing ∧ s.chip.sched.ending = none
    (x.lock = false → Completes (.positionLockAcquire ch) s
      (s.chip.onChan ch fun y => { y with lock := true, errors := [], commaAt := s.chip.now })) ∧
    (x.lock = true → heard.unlocks s.chip.now = true → x.state = .valid ∨ x.state = .lost →
      ∃ c, Completes (.positionLockLoss ch symbols) s c ∧
      (c.chan ch).state = .noLock ∧ (c.chan ch).lock = false ∧ c.w.evtCount 110 = min 255 (s.chip.w.evtCount 110 + 1) ∧
      (x.state = .valid → inStripe → c.sched.ending = some 0x0F)) ∧
    (x.lock = true → heard.unlocks s.chip.now = true → x.state ≠ .valid → x.state ≠ .lost →
      Completes (.positionLockLoss ch symbols) s (s.chip.onChan ch fun _ => { heard with lock := false })) ∧
    (x.lock = true → heard.unlocks s.chip.now = false →
      Completes (.positionLockLoss ch symbols) s (s.chip.onChan ch fun _ => heard)) ∧
    (x.state = .valid → ((max 100 (s.chip.fld .w F.SLOT_TRACK_coast_ns) : Nat) : Int) ≤ sdiff 48 s.chip.tick48 x.stamp →
      ∃ c, Completes (.coastExpiry ch) s c ∧ (c.chan ch).state = .lost ∧
        c.w.evtCount 110 = min 255 (s.chip.w.evtCount 110 + 1) ∧ (inStripe → c.sched.ending = some 0x0F)) ∧
    (x.state = .valid → x.track.speed ≠ .still →
      x.track.rested 48 (1000 * max 1 (s.chip.fld .w F.SLOT_SPEED_CFG_still_timeout_us)) = true →
      ∃ c, Completes (.stillTimeout ch) s c ∧ (c.chan ch).track.speed = .still ∧ (c.chan ch).track.ref = x.pos ∧
        (c.chan ch).cur.v = 0 ∧ (c.chan ch).state = .valid ∧ c = s.chip.onChan ch fun _ => c.chan ch)) ∧
  (∀ (s : State) (m : Master) (ch : Nat), s.serves → ch < 3 → s.chip.schedHere = true →
    let x := s.chip.chan ch
    let raised (c : Chip) : Prop := s.chip.w.evtCount 110 < c.w.evtCount 110 ∨ c.w.evtCount 110 = 255
    (x.state = .off → ∃ c, Completes (.channelEnable m ch) s c ∧ (c.chan ch).state = .noLock ∧ raised c ∧
      (c.chan ch).refSeen = false ∧ (c.chan ch).prevSeq = none ∧ bit (c.w.reg 0x08001C) ch = true) ∧
    (x.state ≠ .off → ∃ c, Completes (.channelDisable m ch) s c ∧ (c.chan ch).state = .off ∧ raised c ∧
      bit (c.w.reg 0x08001C) ch = false ∧
      (x.state = .valid → s.chip.sched.mode = .exposing → s.chip.sched.ending = none →
        c.sched.ending = some 0x0F)) ∧
    (x.state = .invalid → bit (s.chip.w.reg 0x08001C) ch = true → ∃ c, Completes (.channelRearm m ch) s c ∧
      (c.chan ch).state = .invalid ∧ (c.chan ch).rearmed = true))

/-! ### The slot scheduler (chapter 6) -/

/-- SLOT_FIRE, IDLE_SLOT_FIRE and OVERSPEED_END (R177, R178, R186, R190): while a stripe is exposed, its next slot is due once the
phase has passed it, and fires at the end of the tick, one slot a tick, unless a reversal of the tick ends the stripe; it acts at
once on a module that stands alone. An idle slot fires once its period has passed; a slot number is one more than the last.
Overspeed ends 16,384 ticks after its last cause.

COMPARE_FIRE (R184, R185): an armed compare whose position is passed fires once: it is disarmed, reads as fired with the low
half of the slot number decided last, and raises its own source; kinds 1 and 2 open and close the turnaround window, kinds 3
and 4 the calibration window. -/
def Obligations.SlotsAndCompares : Prop :=
  ((∀ s : State, s.runs → s.chip.schedHere = true → s.chip.sched.mode = .exposing → (s.chip.startDie .w).clockFault = false →
     s.chip.sched.decidedAt ≠ s.chip.now → (s.chip.sched.hwm : Int) < s.chip.sched.whole →
     s.chip.sched.hwm + 1 < s.chip.sched.n →
     Completes .slotFire s (s.chip.onSched fun x => { x with due := some .slot })) ∧
   (∀ c : Chip, c.schedHere = true → c.sched.mode = .exposing → c.sched.due = some .slot →
     (c.sched.ending = some 0x0E → c.fireDue = c.onSched fun x => { x with due := none }) ∧
     (c.sched.ending ≠ some 0x0E → c.fireDue.sched.hwm = c.sched.hwm + 1 ∧
       c.fireDue.sched.decided = (c.sched.decided + 1) % 2 ^ 48 ∧ c.fireDue.sched.decidedAt = c.now ∧
       c.fireDue.sched.mode = .exposing ∧ c.fireDue.sched.due = none ∧
       (c.herd.role = .standalone →
         c.fireDue.sched.slot = (c.sched.decided + 1) % 2 ^ 48 ∧ c.fireDue.sched.slotAt = c.now))) ∧
   (∀ (s : State) (p : Nat), s.runs → s.chip.herd.role ≠ .member → s.chip.sched.mode = .idle → s.chip.w.clockFault = false →
     s.chip.idlePeriod = some p → s.chip.sched.decidedAt ≠ s.chip.now → s.chip.cal.phase ≠ .slots →
     max s.chip.sched.idleAt s.chip.sched.decidedAt + p ≤ s.chip.now → ∃ c, Completes .idleSlotFire s c ∧
       c.sched.decided = (s.chip.sched.decided + 1) % 2 ^ 48 ∧ c.sched.decidedAt = s.chip.now ∧ c.sched.mode = .idle ∧
       (s.chip.herd.role ≠ .buck → c.sched.slot = (s.chip.sched.decided + 1) % 2 ^ 48 ∧ c.sched.slotAt = s.chip.now)) ∧
   (∀ s : State, s.runs → s.chip.sched.slow = true → 16384 ≤ s.chip.now - s.chip.sched.slowAt →
     Completes .overspeedEnd s (s.chip.onSched fun x => { x with slow := false }))) ∧
  (∀ (s : State) (n : Nat) (late : Bool), s.runs → n < 8 → s.chip.schedHere = true → s.chip.w.clockFault = false →
     (s.chip.sched.cmp n).armedAt < s.chip.now → (s.chip.sched.cmp n).firedAt ≠ some s.chip.now →
     s.chip.flag .w (F.SLOT_CMP_2_armed.at n) = true →
     s.chip.compareFires (s.chip.cmpAxis n) (s.chip.cmpPos n) (s.chip.cmpFwd n) (s.chip.sched.cmp n).behind = some late →
     let kind := s.chip.fld .w (F.SLOT_CMP_2_kind.at n)
     ∃ c, Completes (.compareFire n) s c ∧
       c.flag .w (F.SLOT_CMP_2_armed.at n) = false ∧ c.flag .w (F.SLOT_CMP_2_fired.at n) = true ∧
       c.fld .w (F.SLOT_CMP_3_fired_slot.at n) = s.chip.sched.decided % 2 ^ 32 ∧
       (late = true → c.flag .w (F.SLOT_CMP_2_late.at n) = true) ∧
       c.w.evtCount (96 + n) = min 255 (s.chip.w.evtCount (96 + n) + 1) ∧
       c.sched.turnOpen = (if kind = 1 then true else if kind = 2 then false else s.chip.sched.turnOpen) ∧
       c.sched.calOpen = (if kind = 3 then true else if kind = 4 then false else s.chip.sched.calOpen) ∧
       c.sched.slot = s.chip.sched.slot ∧ c.sched.mode = s.chip.sched.mode ∧ c.e = s.chip.e)

/-- SLOT_ARM and SLOT_DISARM (R179, R190), judged on what the tick began with: a scheduler that is not idle, or whose oldest stripe not started is not the one named,
refuses the arming with source 106; an idle one whose conditions hold is armed with the stripe and the start position; a
disarm returns it to idle.

STRIPE_START, STRIPE_NOT_BEGUN and STRIPE_END (R181, R182, R183, R190): a start compare that fires makes the stripe due, and at
the end of the tick its slot 0 fires, which is the next slot number; one that cannot begin counts the stripe as late and leaves
the scheduler idle; a stripe whose last slot has fired is due to end when the phase reaches N, and ends at the end of the tick
unless a reversal or a clock fault of the tick ends it instead; it is held until its rows are settled. -/
def Obligations.StripeControl : Prop :=
  (∀ (s : State) (m : Master) (id : Nat), s.serves → s.chip.herd.role = .standalone → id < 2 ^ 24 →
     (s.chip.sched.mode ≠ .idle ∨ (∀ t, s.chip.atStart.oldestUnstarted .w = some t → t.id ≠ id) →
       Completes (.slotArm m id) s ((s.chip.put .w F.SLOT_ARM_CTRL_stripe_id id).raise .w 106)) ∧
     (∀ t, s.chip.sched.mode = .idle → s.chip.atStart.oldestUnstarted .w = some t → t.id = id →
       (s.chip.chan (s.chip.act .w F.SLOT_SCAN_axis)).validStart s.chip.now = true → (s.chip.startDie .w).clockFault = false →
       s.chip.atStart.eAgrees t = true → (s.chip.activeGeo .w).slots t.count * s.chip.activeDelta < 2 ^ 31 →
       s.chip.atStart.logHalts = false → ∃ c, Completes (.slotArm m id) s c ∧ c.sched.mode = .armed ∧ c.sched.stripe = id ∧
         c.sched.armedAt = s.chip.now ∧ c.sched.behind = false ∧
         c.sched.start = s.chip.fld .w F.SLOT_ARM_POS_start_low + 2 ^ 32 * s.chip.fld .w F.SLOT_ARM_POS_1_start_high ∧
         c.sched.slot = s.chip.sched.slot ∧ (∀ n, c.w.evtCount n = s.chip.w.evtCount n) ∧ c.e = s.chip.e) ∧
     (s.chip.sched.mode = .armed → ∃ c, Completes (.slotDisarm m id) s c ∧ c.sched.mode = .idle ∧
       c.sched.slot = s.chip.sched.slot ∧ (∀ n, c.w.evtCount n = s.chip.w.evtCount n))) ∧
  ((∀ (s : State) (t : Stripe), s.runs → s.chip.schedHere = true → s.chip.startFires = some none →
     s.chip.stripe? .w s.chip.sched.stripe = some t →
     Completes .stripeStart s (s.chip.onSched fun x => { x with due := some .start })) ∧
   (∀ (c : Chip) (t : Stripe), c.schedHere = true → c.sched.due = some .start → c.startFires = some none →
     c.stripe? .w c.sched.stripe = some t →
     c.fireDue.sched.mode = .exposing ∧ c.fireDue.sched.s0 = (c.sched.decided + 1) % 2 ^ 48 ∧ c.fireDue.sched.hwm = 0 ∧
     c.fireDue.sched.n = (c.activeGeo .w).slots t.count ∧ c.fireDue.sched.delta = c.activeDelta ∧
     c.fireDue.sched.limitKhz = c.activeLimit ∧ c.fireDue.sched.decided = (c.sched.decided + 1) % 2 ^ 48 ∧
     c.fireDue.sched.due = none) ∧
   (∀ (s : State) (cause : Nat), s.runs → s.chip.schedHere = true → s.chip.startFires = some (some cause) →
     ∃ c, Completes .stripeNotBegun s c ∧ c.sched.mode = .idle ∧ c.sched.slot = s.chip.sched.slot ∧
       c.fld .w F.SLOT_LATE_COUNT_count = min (2 ^ 32 - 1) (s.chip.fld .w F.SLOT_LATE_COUNT_count + 1)) ∧
   (∀ s : State, s.runs → s.chip.schedHere = true → s.chip.sched.mode = .exposing → s.chip.sched.atEnd = true →
     s.chip.sched.decidedAt ≠ s.chip.now → (s.chip.startDie .w).clockFault = false →
     Completes .stripeEnd s (s.chip.onSched fun x => { x with due := some .finish })) ∧
   (∀ c : Chip, c.schedHere = true → c.sched.mode = .exposing → c.sched.due = some .finish →
     (c.sched.ending = some 0x0E ∨ c.sched.ending = some 0x18 → c.fireDue = c.onSched fun x => { x with due := none }) ∧
     (c.sched.ending ≠ some 0x0E → c.sched.ending ≠ some 0x18 →
       c.fireDue.sched.mode = .idle ∧ c.fireDue.sched.ending = none ∧ c.fireDue.sched.idleAt = c.now ∧
       c.fireDue.sched.slow = false ∧ c.fireDue.sched.due = none ∧
       (c.herd.role = .standalone → ∀ u ∈ c.fireDue.stripes .w, u.id = c.sched.stripe →
         u.ended = true ∧ u.allSettled 0 (u.count - 1) = false))))

/-! ### Deflection and the auxiliary axes (chapter 7) -/

/-- DEFLECTION_SAMPLE, DEFLECTION_CHECK_COMPLETE and DEFL_ENABLE (R194, R197, R201): the sample of a sample tick leaves on both
links under one sequence number, which goes on modulo 4, and none leaves while they are disabled or the module follows a
herd's buck; the check records its first failure and raises source 113 when it
had passed before; enabling begins the samples at sequence number 0. -/
def Obligations.DeflectionSamples : Prop :=
  (∀ s : State, s.runs → s.chip.schedHere = true → s.chip.flag .w F.DEFL_CTRL_en = true →
    s.chip.defl.samples < s.chip.now / 20 → ∃ c, Completes .deflectionSample s c ∧
      c.defl = { s.chip.defl with samples := s.chip.now / 20, seq := (s.chip.defl.seq + 1) % 4 } ∧
      ∃ x y, c.out = s.chip.out ++ [.sample 0 s.chip.defl.seq x, .sample 1 s.chip.defl.seq y]) ∧
  (∀ s : State, s.runs → s.chip.flag .w F.DEFL_CTRL_en = false ∨ s.chip.schedHere = false → s.chip.defl.samples < s.chip.now / 20 →
    Completes .deflectionSample s { s.chip with defl := { s.chip.defl with samples := s.chip.now / 20 } }) ∧
  (∀ s : State, s.runs → s.chip.defl.check.busy = true →
    let k := s.chip.deflFailure
    let c : Chip := { s.chip with defl := { s.chip.defl with check := ⟨false, k == 0, k, 0⟩ } }
    Completes .deflectionCheckComplete s (if k ≠ 0 ∧ s.chip.defl.check.passed = true then c.raise .w 113 else c)) ∧
  (∀ (s : State) (m : Master) (v : Word), s.serves → s.chip.flag .w F.DEFL_CTRL_en = false → bit v 0 = true →
    ∃ c, Completes (.deflEnable m v) s c ∧ c.flag .w F.DEFL_CTRL_en = true ∧ c.defl.seq = 0 ∧
      c.defl.samples = s.chip.now / 20 ∧ c.defl.check.busy = true ∧ c.out = s.chip.out)

/-- The ticks of an axis (R202, R203, R206, R208, R216): at a step tick the position advances by the speed, as 64-bit two's
complement; where a whole microstep is passed, a pulse leaves if DIR stands for its direction, and else DIR changes, with no
pulse; a profile tick of an axis at rest sends its coil word and moves nothing, and one of a moving axis gives the speed of
the profile; an axis whose speed has been 0 for still_ms holds with the reduced current; the speed estimate keeps the
encoder's count.

The commands of an axis (R206, R210 to R214): a move is refused while a fault bit stands, and ends at once on an active limit
in its direction; otherwise it begins; a stop brakes, and of an axis at rest makes its position the target; homing clears
homed, refused or not, and searches; a fault stop rests at once, and gives up a step that is due. -/
def Obligations.AxisMotion : Prop :=
  (∀ (s : State) (n : Nat), s.runs → n < 2 →
     let a := s.chip.axis n
     let inv := s.chip.axFlag n F.AXIS_CTRL_dir_inv
     (250 * (a.steps + 1) ≤ s.chip.now → ∃ c, Completes (.axisStepTick n) s c ∧
       (c.axis n).x = toSigned 64 (toBits 64 (a.x + a.v)) ∧ (c.axis n).v = a.v ∧ (c.axis n).steps = a.steps + 1 ∧
       c.axis (1 - n) = s.chip.axis (1 - n) ∧
       let up : Bool := decide (a.out < micro (c.axis n).x)
       (micro (c.axis n).x = a.out → (c.axis n).out = a.out ∧ .step n ∉ c.out.drop s.chip.out.length) ∧
       (micro (c.axis n).x ≠ a.out → (up != inv) = a.dirPin → c.out = s.chip.out ++ [.step n] ∧
         (c.axis n).out = a.out + (if up then 1 else -1) ∧ (c.axis n).stepAt = s.chip.now) ∧
       (micro (c.axis n).x ≠ a.out → (up != inv) ≠ a.dirPin →
         c.out = s.chip.out ++ [.dir n (up != inv)] ∧ (c.axis n).out = a.out ∧ (c.axis n).dirPin = (up != inv))) ∧
     (1000 * (a.profiles + 1) ≤ s.chip.now → a.motion = .rest ∨ a.motion = .faulted →
       ∃ c, Completes (.axisProfileTick n) s c ∧
         c.axis n = { a with profiles := a.profiles + 1, atHold := a.atHold && a.v == 0 } ∧
         ∃ bytes, c.out = s.chip.out ++ [.phase n bytes]) ∧
     (1000 * (a.profiles + 1) ≤ s.chip.now → a.motion = .move → a.startAt ≤ a.profiles + 1 →
       ∃ c, Completes (.axisProfileTick n) s c ∧ (c.axis n).v = (profileStep
           (toSigned 32 (s.chip.axWas n F.AXIS_TARGET_microsteps) * 2 ^ 32 - a.x) a.v (s.chip.axWas n F.AXIS_ACC_value)
           (s.chip.axWas n F.AXIS_DEC_value) (max 1 (s.chip.axWas n F.AXIS_DEC_LIMIT_value) : Nat)
           (s.chip.axWas n F.AXIS_VMAX_value) a.braking a.overrun).v ∧ (c.axis n).out = a.out) ∧
     (s.chip.ax n F.AXIS_CURRENT_still_ms ≠ 0 → a.v = 0 → a.atHold = false →
       1000000 * s.chip.ax n F.AXIS_CURRENT_still_ms ≤ s.chip.now - a.stepAt →
       Completes (.axisStillTimeout n) s
         (s.chip.onAxis n fun x => { x with atHold := true, heldAt := s.chip.now / 1000 })) ∧
     (10000 * (a.estimates + 1) ≤ s.chip.now → ∃ c, Completes (.encoderSpeedEstimate n) s c ∧
       (c.axis n).estimates = a.estimates + 1 ∧ (c.axis n).enc = a.enc ∧ (c.axis n).x = a.x ∧
       (c.axis n).encWords.head? = some (a.enc, s.chip.tick48) ∧ c = s.chip.onAxis n fun _ => c.axis n)) ∧
  (∀ (s : State) (m : Master) (n : Nat), s.serves → n < 2 → s.chip.schedHere = true →
     let a := s.chip.axis n
     let r := toSigned 32 (s.chip.ax n F.AXIS_TARGET_microsteps) * 2 ^ 32 - a.x
     let moving : Prop := a.motion ≠ .rest ∧ a.motion ≠ .faulted
     (s.chip.axisLocked n = true → ∃ c, Completes (.axisMove m n) s c ∧ c.axis n = a ∧
       c.axFlag n F.AXIS_FAULT_refused = true ∧ c.w.evtCount (115 + n) = min 255 (s.chip.w.evtCount (115 + n) + 1)) ∧
     (s.chip.axisLocked n = true → ∃ c, Completes (.axisHome m n) s c ∧ c.axis n = { a with homed := false } ∧
       c.axFlag n F.AXIS_FAULT_refused = true ∧ c.w.evtCount (115 + n) = min 255 (s.chip.w.evtCount (115 + n) + 1)) ∧
     (s.chip.axisLocked n = false → (0 < r ∧ a.limFwd.active = true) ∨ (r < 0 ∧ a.limRev.active = true) →
       ∃ c, Completes (.axisMove m n) s c ∧ c.axis n = a ∧ c.axFlag n F.AXIS_FAULT_limit_hit = true) ∧
     (s.chip.axisLocked n = false → ¬((0 < r ∧ a.limFwd.active = true) ∨ (r < 0 ∧ a.limRev.active = true)) →
       ∃ c, Completes (.axisMove m n) s c ∧ (c.axis n).motion = .move ∧ (c.axis n).x = a.x ∧ (c.axis n).v = a.v ∧
         (c.axis n).atHold = false ∧ c = s.chip.onAxis n fun _ => c.axis n) ∧
     (s.chip.axisLocked n = false → ∃ c, Completes (.axisHome m n) s c ∧ (c.axis n).homed = false ∧
       (∃ fwd back, (c.axis n).motion = .search fwd back) ∧ c = s.chip.onAxis n fun _ => c.axis n) ∧
     (moving → Completes (.axisStop m n) s
       (s.chip.onAxis n fun x => { x with motion := .stopping, braking := false, overrun := false })) ∧
     (¬moving → Completes (.axisStop m n) s
       (s.chip.put .w (F.AXIS_TARGET_microsteps.at n) (toBits 32 (micro a.x)))) ∧
     Completes (.axisFaultStop m n) s (s.chip.onAxis n fun x =>
       { x with v := 0, motion := .faulted, out := micro x.x, overrun := false, braking := false, homed := false }))

/-- The inputs of an axis (R209 to R211, R213, R215): a raw level that lasts for the debounce time becomes the filtered one, and a
limit that becomes active against a moving axis stops it with its fault bit and source, and turns a first search round; each
edge is noted, and more of them than chatter_max stop the axis with its chatter bit; an encoder step whose levels have been
stable for 10 ns changes the count by 1 one way or the other, a step of both levels at once is an error that leaves the
count, and levels not stable yet change nothing; the first index in a search latches the position for the way home. -/
def Obligations.AxisInputs : Prop :=
  ∀ (s : State) (n : Nat), s.runs → n < 2 →
    let a := s.chip.axis n
    (∀ fwd, s.chip.limRaw n fwd ≠ (a.lim fwd).active → s.chip.debounce n ≤ s.chip.now - (a.lim fwd).since →
      ∃ c, Completes (.limitFilterChange n fwd) s c ∧ ((c.axis n).lim fwd).active = s.chip.limRaw n fwd ∧
        (s.chip.limRaw n fwd = true → a.motion = .move → a.heading = some fwd →
          (c.axis n).v = 0 ∧ (c.axis n).motion = .faulted ∧ (c.axis n).homed = false ∧
          c.axFlag n F.AXIS_FAULT_limit_hit = true ∧ c.w.evtCount (115 + n) = min 255 (s.chip.w.evtCount (115 + n) + 1)) ∧
        (s.chip.limRaw n fwd = true → a.motion = .search fwd false → a.heading ≠ some (!fwd) →
          (c.axis n).v = a.v ∧ (c.axis n).motion = .turning fwd) ∧
        (s.chip.limRaw n fwd = false → (c.axis n).v = a.v ∧ (c.axis n).motion = a.motion)) ∧
    (∀ fwd, ∃ c, Completes (.limitRawEdge n fwd) s c ∧ ((c.axis n).lim fwd).raw = !(a.lim fwd).raw ∧
      ((c.axis n).lim fwd).since = s.chip.now ∧ ((c.axis n).lim fwd).active = (a.lim fwd).active ∧
      (s.chip.ax n F.AXIS_INPUT_chatter_max ≤ ((a.lim fwd).edges.filter fun t =>
          s.chip.now - t < 1000000 * max 1 (s.chip.ax n F.AXIS_INPUT_chatter_ms)).length →
        (c.axis n).v = 0 ∧ (c.axis n).motion = .faulted ∧ c.axFlag n F.AXIS_FAULT_chatter = true)) ∧
    (∀ la lb ha hb, 10 ≤ ha → 10 ≤ hb → (la ≠ a.encA ∧ lb = a.encB) ∨ (la = a.encA ∧ lb ≠ a.encB) →
      ∃ c, Completes (.encoderTransition n la lb ha hb) s c ∧
      ((c.axis n).enc = (a.enc + 1) % 2 ^ 32 ∨ (c.axis n).enc = (a.enc + (2 ^ 32 - 1)) % 2 ^ 32) ∧
      (c.axis n).encA = la ∧ (c.axis n).encB = lb ∧ c = s.chip.onAxis n fun _ => c.axis n) ∧
    (∀ la lb h, 10 ≤ h → la ≠ a.encA → lb ≠ a.encB → ∃ c, Completes (.encoderTransition n la lb h h) s c ∧
      (c.axis n).enc = a.enc ∧
      c.axFlag n F.AXIS_FAULT_enc_err = true ∧ c.w.evtCount (115 + n) = min 255 (s.chip.w.evtCount (115 + n) + 1)) ∧
    (∀ la lb ha hb, ha < 10 → hb < 10 → Completes (.encoderTransition n la lb ha hb) s s.chip) ∧
    ((∃ fwd back, a.motion = .search fwd back) ∨ (∃ fwd, a.motion = .turning fwd) →
      ∃ c, Completes (.encoderIndexEdge n) s c ∧ (c.axis n).motion = .latched ∧
      c.ax n F.AXIS_INDEX_microsteps = toBits 32 (micro a.x) ∧
      (c.axis n).homeTarget = (micro a.x + toSigned 32 (s.chip.ax n F.AXIS_HOME_OFS_microsteps)) * 2 ^ 32) ∧
    (a.motion = .rest ∨ a.motion = .latched → Completes (.encoderIndexEdge n) s s.chip)

/-! ### The blanker lanes (chapters 8 and 9) -/

/-- BLNK_ENABLE, BLNK_DISABLE, BANK_LOAD_START and PARAM_SEGMENT_SEND (R231, R233, R244): enabling loads bank 0 with the active
and bank 1 with the shadow values, each under a new tag; disabling stores the register and loads nothing; with spare_sleep 0
either wakes the lanes that sleep; a load that is due replaces the bank by the values, unconfirmed; a segment that has room leaves
on every lane that carries frames, once, and takes its lane time. -/
def Obligations.BankLoads : Prop :=
  (∀ (s : State) (m : Master) (d : DieId) (v : Word), s.serves → s.chip.hasDie d = true →
    let woken := if bit v 1 then s.chip else s.chip.forEach (List.range 68) fun c l => c.wakeLane d l
    (s.chip.flag d F.BLNK_CTRL_en = false → ∃ c, Completes (.blnkEnable m d v) s c ∧ c.flag d F.BLNK_CTRL_en = true ∧
      (c.die d).blnk.bank 0 = ⟨true, (s.chip.die d).blnk.nextTag, (s.chip.bankValues d true).1,
        (s.chip.bankValues d true).2, 0, 0, [], false⟩ ∧
      (c.die d).blnk.bank 1 = ⟨true, ((s.chip.die d).blnk.nextTag + 1) % 256, (s.chip.bankValues d false).1,
        (s.chip.bankValues d false).2, 0, 0, [], false⟩ ∧ (c.die d).blnk.named = 0 ∧
      (c.die d).blnk.bankInUse = 0 ∧ (c.die d).blnk.phys = (woken.die d).blnk.phys) ∧
    Completes (.blnkDisable m d v) s (woken.onDie d (·.setReg 0x0B0000 (v &&& 0x00FFFF06)))) ∧
  (∀ (s : State) (d : DieId) (n : Nat) (v : Nat × List (Nat × Word)), s.runs → s.chip.hasDie d = true →
    s.chip.flag d F.BLNK_CTRL_en = true → (s.chip.die d).blnk.loading = none → s.chip.loadDue d = some (n, v) →
    ∃ c, Completes (.bankLoadStart d) s c ∧
      (c.die d).blnk.bank n = ⟨true, (s.chip.die d).blnk.nextTag, v.1, v.2, 0, 0, [], false⟩ ∧
      (c.die d).blnk.nextTag = ((s.chip.die d).blnk.nextTag + 1) % 256 ∧
      c = s.chip.onBlnk d fun _ => (c.die d).blnk) ∧
  (∀ (s : State) (d : DieId) (n : Nat), s.runs → s.chip.hasDie d = true → s.chip.flag d F.BLNK_CTRL_en = true →
    s.chip.paramRoomNow d = true → (s.chip.die d).blnk.loading = some n → ∃ c, Completes (.paramSegmentSend d) s c ∧
      ((c.die d).blnk.bank n).nextSeg = ((s.chip.die d).blnk.bank n).nextSeg + 1 ∧
      ((c.die d).blnk.bank n).tag = ((s.chip.die d).blnk.bank n).tag ∧ (c.die d).blnk.paramEnd = s.chip.now + 17 ∧
      c.out.length = s.chip.out.length + (s.chip.die d).blnk.carriers.length ∧ c.die d.other = s.chip.die d.other)

/-- ECHO_RECEIVE and ECHO_DEADLINE (R224, R225, R237, R238, R239): a message that is not good, or whose receiver lacks a lock or
settles, is ignored; an echo in time is kept with its group, and one under another epoch than the group's last slot is
counted and moves no handover. At a group's deadline the group is gone, and GO slots of the stripe without their
confirmation raise source 128.

The handovers (R240, R241): a command hands a lane at home over to its group's free spare, or back to its usable home lane,
and any other is refused with source 130; the other lane wakes, and after 2 µs of it the mirror phase begins; a phase without its confirmation
after 4 echo groups is abandoned with source 129, and after its switch the lane is to go back. -/
def Obligations.EchoesAndHandover : Prop :=
  ((∀ (s : State) (d : DieId) (lane : Nat) (b : List Nat), s.runs → s.chip.hasDie d = true → lane < 68 →
     let rx := (s.chip.die d).blnk.phy lane
     (frameGood 32 b = false ∨ rx.usable s.chip.now = false → Completes (.echoReceive d lane b) s s.chip) ∧
     (∀ g t ep, frameGood 32 b = true → echoForm (leAt b 0 8) b = true → rx.usable s.chip.now = true →
       (s.chip.die d).blnk.groups.find? (fun g => g.base % 2 ^ 32 == leAt b 0 8 % 2 ^ 32) = some g →
       g.launched = some t → g.epoch = some ep →
       s.chip.now - t < 1000 * max 1 (s.chip.fld d F.BLNK_CTRL_echo_timeout_us) →
       let e : Echo := ⟨lane, leAt b 0 8 / 2 ^ 44 % 64, nbit (leAt b 0 8) 50, leAt b 0 8 / 2 ^ 32 % 256, leAt b 8 8, leAt b 20 1⟩
       ∃ c, Completes (.echoReceive d lane b) s c ∧ (∀ k ∈ (c.die d).blnk.groups, k.base = g.base → e ∈ k.echoes) ∧
         (e.epoch ≠ ep → (c.die d).blnk.hos = (s.chip.die d).blnk.hos ∧
           c.fld d F.BLNK_EPOCH_ERR_COUNT_count = min (2 ^ 32 - 1) (s.chip.fld d F.BLNK_EPOCH_ERR_COUNT_count + 1)))) ∧
   (∀ (s : State) (d : DieId) (g : EchoGroup) (t : Nat), s.runs → s.chip.hasDie d = true →
     (s.chip.die d).blnk.groups.head? = some g → g.launched = some t →
     1000 * max 1 (s.chip.fld d F.BLNK_CTRL_echo_timeout_us) ≤ s.chip.now - t → ∃ c, Completes (.echoDeadline d) s c ∧
       (∀ k ∈ (c.die d).blnk.groups, k.base ≠ g.base) ∧
       ((∃ r ∈ g.slots, ∃ lam, lam < 64 ∧ lam ∈ r.go ∧ r.k.isSome = true ∧ (g.verdict r lam).isSome = true) →
         (c.die d).evtCount 128 = min 255 ((s.chip.die d).evtCount 128 + 1)))) ∧
  ((∀ (s : State) (m : Master) (d : DieId) (lam : Nat), s.serves → s.chip.hasDie d = true → lam < 64 →
     let x := (s.chip.die d).blnk
     let start (lane : Nat) : Chip := (s.chip.wakeLane d lane).onBlnk d fun y => { y with
       hos := y.hos ++ [⟨lam, (y.place lam).lane, lane, .wake, s.chip.now, 0, 0, false, none, false, false⟩] }
     ((x.place lam).state = .home → x.spareFree (lam / 16) = true →
       Completes (.handoverToSpare m d lam) s (start (spareLane (lam / 16)))) ∧
     ((x.place lam).state ≠ .home ∨ x.spareFree (lam / 16) = false →
       Completes (.handoverToSpare m d lam) s (s.chip.raise d 130)) ∧
     ((x.place lam).state = .spareTemp → x.homeUsable lam = true → x.hoOf (lam / 16) = none →
       Completes (.handback m d lam) s (start (homeLane lam))) ∧
     ((x.place lam).state ≠ .spareTemp ∨ x.homeUsable lam = false → Completes (.handback m d lam) s (s.chip.raise d 130))) ∧
   (∀ (s : State) (d : DieId) (q : Nat) (h : Handover), s.runs → (s.chip.die d).blnk.hoOf q = some h →
     (h.phase = .wake → 2000 ≤ s.chip.now - h.at_ → Completes (.handoverWakeEnd d q) s
       (s.chip.onBlnk d (·.onHo q fun k => { k with
         phase := .mirror, at_ := s.chip.now, slot := (s.chip.sched.slot + 1) % 2 ^ 48, groups := 0 }))) ∧
     (s.chip.hasDie d = true → h.phase = .mirror ∨ h.phase = .switch → h.ready = false → 4 ≤ h.groups →
       ∃ c, Completes (.handoverAbandon d q) s c ∧
         (c.die d).evtCount 129 = min 255 ((s.chip.die d).evtCount 129 + 1) ∧
         (h.phase = .switch → ∀ k ∈ (c.die d).blnk.hos, groupOf k.fromLane = q → k.back = true ∧ k.ready = true))))

/-- Training of a blanker lane (R244, R247, R249): the command retries a failed lane at preset 0, whose TRAIN frame leaves at
once, or after the wake of a lane that slept, and leaves one that trains alone; a report in time, over a receiver that may be
used, or its absence, ends the preset's step; after preset 7 the verdict is given, with source 131, and PHY_TRAIN_STATUS
names the lane. -/
def Obligations.LaneTraining : Prop :=
  (∀ (s : State) (m : Master) (d : DieId) (lane : Nat), s.serves → s.chip.hasDie d = true → lane < 68 →
    let x := (s.chip.die d).blnk
    (x.trains lane = true → Completes (.laneTrainCommand m d lane) s s.chip) ∧
    (x.trains lane = false → (x.phy lane).failed = true → ∃ c, Completes (.laneTrainCommand m d lane) s c ∧
      ∃ t ∈ (c.die d).blnk.training, t.lane = lane ∧ t.preset = 0 ∧ t.retry = true ∧ t.inPlace = none ∧ t.txOk = 0 ∧
        t.rxOk = false ∧ t.best = none ∧ (t.sent = true ↔ t.at_ = s.chip.now) ∧
        (s.chip.blAsleep d lane = true → t.at_ = s.chip.now + 2000) ∧
        ((x.phy lane).wakes = 0 → s.chip.blAsleep d lane = false → t.at_ = s.chip.now))) ∧
  (∀ (s : State) (d : DieId) (lane eyeH eyeW errors : Nat) (b : List Nat) (t : LaneTrain), s.runs → s.chip.hasDie d = true →
    (s.chip.die d).blnk.training.find? (·.lane == lane) = some t →
    let outcome (c : Chip) : Prop :=
      (t.preset ≠ 7 → (∀ y ∈ (c.die d).blnk.training, y.lane = lane → y.preset = t.preset + 1 ∧ y.at_ = s.chip.now) ∧
        ((c.die d).blnk.phy lane).preset = t.preset + 1) ∧
      (t.preset = 7 → (c.die d).evtCount 131 = min 255 ((s.chip.die d).evtCount 131 + 1) ∧
        (c.die d).blnk.lastTrain.1 = lane)
    (frameGood 32 b = true → leAt b 0 8 % 2 ^ 32 = 0 → leAt b 0 8 / 2 ^ 40 % 2 ^ 16 = 9 → leAt b 0 8 / 2 ^ 56 = t.preset →
      leAt b 16 8 = 0 → t.sent = true → s.chip.now - t.at_ ≤ s.chip.trainWait d →
      ((s.chip.die d).blnk.phy lane).usable s.chip.now = true →
      ∃ c, Completes (.trainReportReceive d lane b eyeH eyeW errors) s c ∧ outcome c) ∧
    (s.chip.trainWait d < s.chip.now - t.at_ →
      ∃ c, Completes (.trainReportTimeout d lane eyeH eyeW errors) s c ∧ outcome c))

/-- The blocks that reach a lane receiver (R224, R245, R260): one that is frozen or settles takes none; any other keeps the locks
that the blocks leave it, whichever row reports them, and a Grist lane of the set that loses a lock makes the set change;
too few transitions in a window freeze the receiver's adaptation, and enough of them end the freeze, with no lock, and begin
the settling of 64 blocks.

How a receiver's locks follow from its blocks (R224): 64 valid sync headers in a row give block lock, an invalid one before
slips the boundary by a symbol, and the sixteenth invalid one among 64 loses both locks; the eighth idle block in a row that
descrambles to zero gives descrambler lock, and the fourth in error among 16 loses it. -/
def Obligations.ReceiverLocks : Prop :=
  (∀ (s : State) (d : DieId) (grist : Bool) (lane skip : Nat) (blocks : List LineBlock), s.runs →
     s.chip.hasLane d grist lane = true →
     let p := s.chip.phy d grist lane
     let q := (p.receive grist (!grist || (s.chip.die d).gr.rx.isNone) skip blocks).phy
     (∀ i : Instr, i = .rxBlockLockGain d grist lane skip blocks ∨ i = .rxBlockLockLoss d grist lane skip blocks ∨
         i = .descramblerLockGain d grist lane skip blocks ∨ i = .descramblerLockLoss d grist lane skip blocks →
       (p.steady s.chip.now = false → Completes i s s.chip) ∧
       (p.steady s.chip.now = true → ∃ c, Completes i s c ∧ c.die d.other = s.chip.die d.other ∧
         (c.phy d grist lane).blockLock = q.blockLock ∧ (c.phy d grist lane).descLock = q.descLock ∧
         (grist = true → nbit (s.chip.die d).gr.mask lane = true →
           (p.blockLock = true ∧ q.blockLock = false) ∨ (p.descLock = true ∧ q.descLock = false) →
           (c.die d).gr.setDue = true))) ∧
     (∀ transitions, ∃ c, Completes (.transitionWindowEnd d grist lane transitions skip blocks) s c ∧
       let least := max 1 (s.chip.fld d F.PHY_DFE_CFG_trans_min)
       (transitions < least → (c.phy d grist lane).frozen = true) ∧
       (least ≤ transitions → (c.phy d grist lane).frozen = false) ∧
       (least ≤ transitions → p.frozen = true → (c.phy d grist lane).blockLock = false ∧
         (c.phy d grist lane).descLock = false ∧ (c.phy d grist lane).settled = s.chip.now + 76))) ∧
  (∀ (p : Phy) (grist outside : Bool) (skip : Nat) (b : LineBlock) (r : Nat),
     let after (l : List LineBlock) : Phy := (p.receive grist outside skip l).phy
     let next : Phy := (p.receive grist true 0 [b]).phy
     (p.blockLock = false →
       (∀ l, l ≠ [] → p.run + l.length = 64 → l.all validSync = true → (after l).blockLock = true) ∧
       (validSync b = false → after [b] = { p with run := 0, slip := (p.slip + 1) % 33 })) ∧
     (p.blockLock = true → validSync b = false → 16 ≤ popcount 64 ((2 * p.syncs + 1) % 2 ^ 64) →
       next.blockLock = false ∧ next.descLock = false) ∧
     (p.blockLock = true → b.sync = 1 → p.inFrame = 0 → popcount 64 (2 * p.syncs % 2 ^ 64) < 16 → p.desc = some r →
       (p.descLock = false → p.zeros = 7 → (scrambleBlock b r).1.payload % 2 ^ 64 = 0 → next.descLock = true) ∧
       (p.descLock = true → (scrambleBlock b r).1.payload % 2 ^ 64 ≠ 0 → 4 ≤ popcount 16 ((2 * p.idles + 1) % 2 ^ 16) →
         next.descLock = false ∧ next.blockLock = true)))

/-- The Grist lane set (R256, R260, R263, R276): an ALIGN round is judged at the end of its tick, and ignored while a set change
is due; a good one aligns a die that has a set; deskew lost by a bad round or by none for 4,096 rounds, a lost lane, a resync,
or a change of the enabled lanes makes a new set, with the next number, of the lanes that are enabled, not failed and not
training, which is not aligned; an empty set raises source 35.

The return lane and the training of a Grist lane (R259, R260, R263): the LANE message is repeated every 100 µs until the die is
aligned; a lane whose receivers are all frozen and that has nothing to send sleeps, and wakes when either ends, with a CREDIT
to be sent first; a trained lane leaves the set, its presets follow one another, and after preset 7 it is no longer in
training and a new set is formed. -/
def Obligations.GristLanes : Prop :=
  (let fresh (b : Chip) (c : Chip) (d : DieId) (reason : Nat) : Prop :=
     (c.die d).gr.setId = ((b.die d).gr.setId + 1) % 256 ∧ (c.die d).gr.aligned = false ∧
     (c.die d).gr.setDue = false ∧ (c.die d).gr.reason = reason ∧ (c.die d).gr.laneMsgAt = b.now ∧
     (c.die d).gr.mask = c.newMask d ∧
     (c.newMask d = 0 → (c.die d).evtCount 35 = min 255 ((b.die d).evtCount 35 + 1))
   (∀ (s : State) (d : DieId) (blocks : List AlignBlock), s.runs → s.chip.hasDie d = true →
     Completes (.alignRound d blocks) s (s.chip.onGr d fun g => { g with alignDue := g.alignDue ++ [blocks] })) ∧
   (∀ (c : Chip) (d : DieId) (blocks : List AlignBlock), c.hasDie d = true → (c.die d).gr.mask ≠ 0 →
     (c.die d).gr.alignDue = [blocks] → (c.judgeAlign d).now = c.now ∧ ((c.judgeAlign d).die d).gr.alignDue = [] ∧
     ((c.die d).gr.setDue = true → c.judgeAlign d = c.onGr d fun g => { g with alignDue := [] }) ∧
     ((c.die d).gr.setDue = false → (c.die d).gr.roundGood c.now blocks = true →
       ((c.judgeAlign d).die d).gr.aligned = true ∧ ((c.judgeAlign d).die d).gr.alignAt = c.now ∧
       ((c.judgeAlign d).die d).gr.setId = (c.die d).gr.setId) ∧
     ((c.die d).gr.setDue = false → (c.die d).gr.roundGood c.now blocks = false → (c.die d).gr.aligned = true →
       fresh c (c.judgeAlign d) d 3)) ∧
   (∀ (s : State) (d : DieId), s.runs → s.chip.hasDie d = true →
     ((s.chip.die d).gr.aligned = true → 4806 ≤ s.chip.now - (s.chip.die d).gr.alignAt →
       ∃ c, Completes (.deskewTimeout d) s c ∧ fresh s.chip c d 3) ∧
     ((s.chip.die d).gr.setDue = true → ∃ c, Completes (.laneSetChange d) s c ∧ fresh s.chip c d 2 ∧
       (c.die d).gr.mask = s.chip.newMask d)) ∧
   (∀ (s : State) (m : Master) (d : DieId) (v : Word), s.serves → s.chip.hasDie d = true →
     (∃ c, Completes (.gristResync m d v) s c ∧ fresh s.chip c d 4 ∧ c.fld d F.PHY_GR_CTRL_lane_en = bits v 15 0) ∧
     (bit v 19 = false → bits v 15 0 = s.chip.fld d F.PHY_GR_CTRL_lane_en → Completes (.gristLaneEnWrite m d v) s
       (s.chip.onDie d (·.setReg 0x0C0800 (v &&& 0x0017FFFF)))) ∧
     (bits v 15 0 ≠ s.chip.fld d F.PHY_GR_CTRL_lane_en → ∃ c, Completes (.gristLaneEnWrite m d v) s c ∧ fresh s.chip c d 4 ∧
       c.fld d F.PHY_GR_CTRL_lane_en = bits v 15 0))) ∧
  ((∀ (s : State) (d : DieId), s.runs →
     let g := (s.chip.die d).gr
     (g.reason ≠ 0 → g.aligned = false → 100000 ≤ s.chip.now - g.laneMsgAt → s.chip.returnReady d = true →
       Completes (.laneMessageResend d) s
         ((s.chip.onGr d fun x => { x with laneMsgAt := s.chip.now }).emit
           (.grist d g.returnLane (sealMessage (s.chip.laneWords d)) (s.chip.grPos d g.returnLane)))) ∧
     (g.returnAwake = true → g.allFrozen = true → s.chip.messageDue d = false → (s.chip.die d).grist.verifyPending = false →
       Completes (.returnLaneSleep d) s (s.chip.onGr d fun x => { x with returnAwake := false })) ∧
     (g.returnAwake = false → g.allFrozen = false ∨ s.chip.messageDue d = true → Completes (.returnLaneWake d) s
       (s.chip.onGr d fun x => { x.onPhy x.returnLane (·.wake s.chip.now) with
         returnAwake := true, wokeAt := s.chip.now, creditFirst := true }))) ∧
   (∀ (s : State) (m : Master) (d : DieId) (lane : Nat), s.serves → s.chip.hasDie d = true → lane < 16 →
     (s.chip.die d).gr.training.any (·.lane == lane) = false → ∃ c, Completes (.gristLaneTrainCommand m d lane) s c ∧
       (c.die d).gr.training.map (·.lane) = (s.chip.die d).gr.training.map (·.lane) ++ [lane] ∧
       (∀ y ∈ (c.die d).gr.training, y.lane = lane → y.preset = 0 ∧ y.best = none ∧ s.chip.now ≤ y.at_) ∧
       nbit (c.die d).gr.mask lane = false) ∧
   (∀ (s : State) (d : DieId) (lane eyeH eyeW errors : Nat) (t : GrTrain), s.runs → s.chip.hasDie d = true →
     (s.chip.die d).gr.training.find? (·.lane == lane) = some t →
     1000000 * (max 1 (s.chip.fld d F.PHY_TRAIN_CFG_adapt_ms) + max 1 (s.chip.fld d F.PHY_TRAIN_CFG_measure_ms)) ≤
       s.chip.now - t.at_ → ∃ c, Completes (.gristTrainStepEnd d lane eyeH eyeW errors) s c ∧
       (t.preset ≠ 7 → ∀ y ∈ (c.die d).gr.training, y.lane = lane → y.preset = t.preset + 1 ∧ s.chip.now ≤ y.at_) ∧
       (t.preset = 7 → (∀ y ∈ (c.die d).gr.training, y.lane ≠ lane) ∧
         (c.die d).gr.setId = ((s.chip.die d).gr.setId + 1) % 256 ∧ (c.die d).gr.reason = 5 ∧
         (c.die d).gr.mask = c.newMask d)))

/-! ### Control ports, messages and time (chapter 9) -/

/-- CONTROL_READ and CONTROL_WRITE (R265 to R268): a request of the module that is well formed, for a die that is there, is
executed, its words in order, and answered with status 0 and its data; the last answer of a source is sent again for a
repetition, which executes nothing and makes the source the one heard last; a request that is not well formed is answered with status 0x01, and one of another
module is discarded; both are counted.

FORWARDED_REQUEST, FORWARD_TIMEOUT and FRAME_DISCARD (R264, R267): the other die executes a forwarded request, and the port
forgets it when it is reported; one without its report for 100 µs is answered with status 0x04 and counted, and that answer is
kept for a repetition while the request is its source's last; a frame that is not for the port is discarded and counted. -/
def Obligations.ControlRequests : Prop :=
  (∀ (s : State) (p : DieId) (src : Nat) (tag : Option Nat) (b : List Nat), s.runs → s.chip.portUp p = true →
     leAt b 1 1 = 1 ∨ leAt b 1 1 = 2 →
     let x := readPdu b
     let cmd : Instr := if leAt b 1 1 = 1 then .controlRead p src tag b else .controlWrite p src tag b
     let other : Prop := ∀ r, (s.chip.die p).port.lastOf src = some r → r.seq ≠ x.seq
     (x.addr / 2 ^ 28 ≠ 0xF → x.addr / 2 ^ 28 ≠ s.chip.ownId →
       Completes cmd s (s.chip.bump p F.CTRL_RX_DISCARD_COUNT_count)) ∧
     (x.addr / 2 ^ 28 = s.chip.ownId →
       (∀ r f, (s.chip.die p).port.lastOf src = some r → r.seq = x.seq → r.reply = some f →
         (s.chip.die p).port.held = [] → s.chip.flag p F.CTRL_MSG_CFG_sched_en = false → ∃ c, Completes cmd s c ∧
         c = { s.chip.onPort p (fun y => { y.remember r with lineFree := (c.die p).port.lineFree }) with
           out := s.chip.out ++ [.frame p tag f.dst f.bytes] }) ∧
       (other → x.version = 1 → s.chip.malformed x b tag = true → ∃ c, Completes cmd s c ∧
         (c.die p).port.lastOf src = some ⟨src, x.seq, some ⟨tag, src, s.chip.replyPdu x 1 []⟩⟩ ∧
         c.fld p F.CTRL_REQ_ERR_COUNT_count = min (2 ^ 32 - 1) (s.chip.fld p F.CTRL_REQ_ERR_COUNT_count + 1)) ∧
       (other → x.version = 1 → s.chip.malformed x b tag = false → s.chip.hasDie x.die = true → x.die = p →
         s.chip.portOpen = true →
         let data := if x.op = 1 then (s.chip.readWords p ((List.range x.count).map x.off)).1 else []
         let c1 := if x.op = 1 then (s.chip.readWords p ((List.range x.count).map x.off)).2
           else s.chip.writeWords p ((List.range x.count).map fun i => (x.off i, word (leAt b (16 + 4 * i) 4)))
         c1.running = true → (c1.die p).port.held = [] → c1.flag p F.CTRL_MSG_CFG_sched_en = false →
         ∃ c, Completes cmd s c ∧ c.out = c1.out ++ [.frame p tag src (c1.replyPdu x 0 data)] ∧
           (c.die p).regs = (c1.die p).regs ∧ c.die p.other = c1.die p.other))) ∧
  ((∀ (s : State) (p : DieId) (q : Fwd) (l : List Fwd), s.runs → (s.chip.die p).port.fwd = q :: l → q.lost = false →
     s.chip.evuneUp = true →
     let r := s.chip.perform (readPdu q.pdu) q.pdu
     r.2.2.running = true →
     (∃ c, Completes (.forwardedRequest p true) s c ∧ (c.die p).port.fwd = (r.2.2.die p).port.fwd.erase q) ∧
     Completes (.forwardedRequest p false) s
       (r.2.2.onPort p fun y => { y with fwd := y.fwd.map fun z => if z = q then { z with lost := true } else z })) ∧
   (∀ (s : State) (p : DieId) (q : Fwd) (l : List Fwd), s.runs → (s.chip.die p).port.fwd = q :: l →
     100000 ≤ s.chip.now - q.sentAt → ∃ c, Completes (.forwardTimeout p) s c ∧ (c.die p).port.fwd = l ∧
       (let was := (s.chip.die p).port.lastOf q.src
        (c.die p).port.lastOf q.src = if was = some ⟨q.src, (readPdu q.pdu).seq, none⟩ then
          some ⟨q.src, (readPdu q.pdu).seq, some ⟨q.tag, q.src, s.chip.replyPdu (readPdu q.pdu) 4 []⟩⟩ else was) ∧
       c.fld p F.CTRL_REQ_ERR_COUNT_count = min (2 ^ 32 - 1) (s.chip.fld p F.CTRL_REQ_ERR_COUNT_count + 1)) ∧
   (∀ (s : State) (p : DieId) (dst etherType : Nat) (fcsOk : Bool), s.runs → s.chip.portUp p = true →
     (fcsOk = false ∨ (etherType ≠ 0x88B5 ∧ etherType ≠ 0x88F7) ∨ (etherType = 0x88B5 ∧ s.chip.herdFits = false ∧
         dst ≠ s.chip.fld p F.CTRL_MAC_mac_low + 2 ^ 32 * s.chip.fld p F.CTRL_MAC_1_mac_high) →
       Completes (.frameDiscard p dst etherType fcsOk) s (s.chip.bump p F.CTRL_RX_DISCARD_COUNT_count)) ∧
     (fcsOk = true → etherType = 0x88F7 ∨ (etherType = 0x88B5 ∧
       dst = s.chip.fld p F.CTRL_MAC_mac_low + 2 ^ 32 * s.chip.fld p F.CTRL_MAC_1_mac_high) →
       Completes (.frameDiscard p dst etherType fcsOk) s s.chip)))

/-- CONTROL_READ and CONTROL_WRITE on a K131 (R7): a well-formed request whose die bit is 1 reads and writes nothing; its reply
carries status 0x02, "no such die", and no data. -/
def Obligations.NoSuchDie : Prop :=
  ∀ (s : State) (src : Nat) (tag : Option Nat) (b : List Nat), s.runs → s.chip.variant = .k131 → s.chip.portUp .w = true →
    leAt b 1 1 = 1 ∨ leAt b 1 1 = 2 →
    let x := readPdu b
    x.version = 1 → x.addr / 2 ^ 28 = s.chip.ownId → s.chip.malformed x b tag = false → nbit x.addr 27 = true →
    (∀ r, (s.chip.die .w).port.lastOf src = some r → r.seq ≠ x.seq) →
    (s.chip.die .w).port.held = [] → s.chip.flag .w F.CTRL_MSG_CFG_sched_en = false → ∃ c,
      Completes (if leAt b 1 1 = 1 then .controlRead .w src tag b else .controlWrite .w src tag b) s c ∧
      c.out = s.chip.out ++ [.frame .w tag src (s.chip.replyPdu x 2 [])] ∧
      c = { s.chip.bump .w F.CTRL_REQ_ERR_COUNT_count with
        w := { (s.chip.bump .w F.CTRL_REQ_ERR_COUNT_count).w with port := c.w.port }, out := c.out }

/-- MSG_SEND, MSG_RETRY, MSG_ACK and SCHEDULE_WINDOW_OPEN (R269, R274): with no message outstanding, the 32 oldest entries at most
become one, under the next sequence number; after retry_us, 1 µs at least, it falls due and is sent again, unchanged, at the
end of the tick; its acknowledgement alone takes it away; the frames that wait for a window which opens in a tick leave at its
end, in their order, until one does not fit, and all of them with no schedule in force. -/
def Obligations.HostMessages : Prop :=
  (∀ (s : State) (d : DieId), s.runs → s.chip.hasDie d = true →
    let x := (s.chip.die d).port
    (s.chip.hostMac d ≠ 0 → (s.chip.msgPort d).isSome = true →
      (x.outstanding = none → x.queue ≠ [] → ∃ c, Completes (.msgSend d) s c ∧
        (c.die d).port.outstanding = some ⟨(x.seq + 1) % 65536, x.lostFlag, x.queue.take 32, s.chip.now, false⟩ ∧
        (c.die d).port.queue = x.queue.drop 32 ∧ (c.die d).port.seq = (x.seq + 1) % 65536 ∧
        (c.die d).port.lostFlag = false) ∧
      (∀ m, x.outstanding = some m → 1000 * max 1 (s.chip.fld d F.CTRL_MSG_CFG_retry_us) ≤ s.chip.now - m.sentAt →
        Completes (.msgRetry d) s (s.chip.onPort d fun y => { y with outstanding := some { m with again := true } }))) ∧
    (∀ m, x.outstanding = some m → m.again = true → let c := s.chip.retryEnd d
      (c.die d).port.outstanding = some { m with sentAt := s.chip.now, again := false } ∧
      (c.die d).port.queue = x.queue) ∧
    (∀ seq m, x.outstanding = some m →
      (m.seq = seq → Completes (.msgAck d seq) s (s.chip.onPort d fun y => { y with outstanding := none })) ∧
      (m.seq ≠ seq → Completes (.msgAck d seq) s s.chip))) ∧
  (∀ (s : State) (p : DieId), s.runs → s.chip.portUp p = true →
    Completes (.scheduleWindowOpen p) s (s.chip.onPort p fun x => { x with openDue := true })) ∧
  (∀ (c : Chip) (p : DieId), c.portUp p = true → (c.die p).port.openDue = true →
    let c1 := c.openWindow p
    ∃ l, (c.die p).port.held = l ++ (c1.die p).port.held ∧
      c1 = { c.onPort p (fun x => { x with openDue := false, held := (c1.die p).port.held, lineFree := (c1.die p).port.lineFree })
        with out := c.out ++ l.map fun f => .frame p f.tag f.dst f.bytes } ∧
      (∀ f, (c1.die p).port.held.head? = some f → c1.mayLaunch p ((c1.die p).port.lineFree - c.now) f = false) ∧
      (c.flag p F.CTRL_MSG_CFG_sched_en = false → (c1.die p).port.held = []))

/-- The clock (R270, R272, R273, R275): a step of the time adds the signed offset; a new increment is in force at once; a
Delay_Req leaves under the next sequence number and takes its send stamp; a Sync of another domain moves no offset and no
state; the first Delay_Resp of the master that is followed gives the path delay; a master heard twice is followed where no
other is heard (the rule for it is the model's, log entry 69); three intervals without a Sync put a clock that follows into
holdover, and holdover after a step ends after holdover_ms; the loss of the clock's port puts it into holdover too. -/
def Obligations.Clock : Prop :=
  (∀ (s : State) (m : Master) (v : Word), s.serves → s.chip.schedHere = true →
    (∃ c, Completes (.timeStep m v) s c ∧
      c.time = (((s.chip.time : Int) + toSigned 96 ((s.chip.w.reg 0x0D0114).toNat + 2 ^ 32 * (s.chip.w.reg 0x0D0118).toNat +
        2 ^ 64 * v.toNat)) % (s.chip.timeModulus : Int)).toNat ∧ c.inc = s.chip.inc) ∧
    (∃ c, Completes (.timeIncWrite m v) s c ∧
      c.inc = (s.chip.w.reg 0x0D010C).toNat + 2 ^ 32 * bits v 7 0 ∧ c.time = s.chip.time)) ∧
  (∀ (s : State) (p : DieId), s.runs → s.chip.portUp p = true → s.chip.clockHere = true → s.chip.ptp.port = p →
    let own := s.chip.fld .w F.CTRL_PTP_CFG_domain
    let x := s.chip.ptp.choose s.chip.now
    (∃ c, Completes (.ptpMessage p .delayReq) s c ∧ c.ptp.reqSeq = (s.chip.ptp.reqSeq + 1) % 65536 ∧
      c.ptp.reqTx = some ((s.chip.timeNs : Int) + s.chip.fld p F.CTRL_TS_LAT_tx_ns) ∧
      c = { s.chip with ptp := c.ptp, out := s.chip.out ++ [.ptp p (delayReqBytes own c.ptp.reqSeq)] }) ∧
    (∀ domain source seq t1 li, domain ≠ own → ∃ c, Completes (.ptpMessage p (.sync domain source seq t1 li)) s c ∧
      c = { s.chip with ptp := c.ptp } ∧ c.ptp.state = s.chip.ptp.state ∧ c.ptp.offset = s.chip.ptp.offset ∧
      c.ptp.mpd16 = s.chip.ptp.mpd16 ∧ c.ptp.lastSync = s.chip.ptp.lastSync) ∧
    (∀ source t3 t4 a, x.parent = some source → x.reqTx = some t3 → x.t2mt1 = some a → x.mpd16 = none →
      ∃ c, Completes (.ptpMessage p (.delayResp own source x.reqSeq t4)) s c ∧
        c.ptp = { x with
          reqTx := none, lastMpd := divZ (a + (t4 - t3)) 2, mpd16 := some (16 * divZ (a + (t4 - t3)) 2), outlier := none }) ∧
    (∀ (a : Announce) (t : Nat), a.domain = own → a.steps < 255 → 0 < syncTicks a.logInterval →
      s.chip.ptp.masters = [⟨a, [t]⟩] → s.chip.now - t < 3 * syncTicks a.logInterval →
      ∃ c, Completes (.ptpMessage p (.announce a)) s c ∧ c.ptp.parent = some a.source ∧
        c = { s.chip with ptp := c.ptp })) ∧
  (∀ s : State, s.runs →
    (s.chip.clockHere = true → s.chip.ptp.state = .locking ∨ s.chip.ptp.state = .locked →
      3 * s.chip.ptp.syncInterval ≤ s.chip.now - s.chip.ptp.lastSync →
      Completes .syncLoss s (s.chip.onPtp fun x => { x with state := .holdSync })) ∧
    (s.chip.ptp.state = .holdStep →
      1000000 * s.chip.fld .w F.CTRL_PTP_CFG_holdover_ms ≤ s.chip.now - s.chip.ptp.holdSince →
      ∃ c, Completes .holdoverEnd s c ∧ c.ptp = { s.chip.ptp with
        state := .locking, mpd16 := some (16 * s.chip.ptp.lastMpd), outlier := none, stepRef := none })) ∧
  (∀ (s : State) (p : DieId), s.runs →
    (s.chip.portUp p = true → ∃ c, Completes (.controlPortLinkLoss p) s c ∧ (c.die p).port.link = false ∧
      (s.chip.ptp.port ≠ p → c.ptp = s.chip.ptp) ∧ (s.chip.ptp.port = p → c.ptp.state = .holdSync)) ∧
    (s.chip.hasDie p = true → (s.chip.die p).port.link = false → ∃ c, Completes (.controlPortLinkUp p) s c ∧
      (c.die p).port = { (s.chip.die p).port with link := true } ∧ (s.chip.ptp.port = p → c.ptp = s.chip.ptp)))

/-! ### Start-up and resets (chapter 13) -/

/-- POWER_ON, SUPPLY_GOOD, RESET_RELEASE, IMAGE_VERIFY_COMPLETE and BOOT_OK (R341 to R344, R427): power-on keeps the boot counter,
and the flash unless an operation on it was cut short, and holds the module; reset is released only once the supply is good,
no trip holds it, no fault stands and each die has its clock, and then the boot counter advances and HERD_ADDR is read; with
no valid image, or after two missed deadlines, the module enters recovery; otherwise the newest valid image is run, if the
last boot asks for no other; BOOT_OK ends the stage of the lanes with source 200, and closes maintenance access that is not
open.

MODULE_RESET, RESET_COMMAND and BOOT_DEADLINE (R342, R361): a reset gives every block its reset state and holds the module; the
boot counter, the failed maintenance attempts and PWR_FAULT_COUNT stay, the flash too unless an operation on it was cut short,
and PWR_LAST_RESET says why; a boot that has not ended within 3,500 ms of reset release is reset and counted, and the next
one is to use the other image, if this one had been chosen. -/
def Obligations.StartUpAndResets : Prop :=
  ((∀ s : State, s.chip.running = false →
     (∃ c, Completes .powerOn s c ∧ c.cfg.stage = .held ∧ c.nv.bootCount = s.chip.nv.bootCount ∧
       (s.chip.cfg.flashOp = none → c.nv = s.chip.nv) ∧ c.cfg.failCount = 0 ∧ c.pwr.good = false ∧ c.w.regs = []) ∧
     Completes .supplyGood s { s.chip with pwr := { s.chip.pwr with good := true } } ∧
     (∀ straps, s.chip.pwr.good = true → s.chip.pwr.hot = false → s.chip.pwr.fault = none → s.chip.pwr.noClockW = false →
       s.chip.two = false ∨ s.chip.pwr.noClockE = false → ∃ c, Completes (.resetRelease straps) s c ∧
       c.cfg = { s.chip.cfg with stage := .image, releasedAt := 0 } ∧ c.now = 0 ∧ c.time = 0 ∧ c.herd.addr = straps % 8 ∧
       c.nv = { s.chip.nv with bootCount := min (2 ^ 32 - 1) (s.chip.nv.bootCount + 1) }) ∧
     (∀ straps, s.chip.pwr.good = false ∨ s.chip.pwr.hot = true ∨ s.chip.pwr.fault.isSome = true ∨ s.chip.pwr.noClockW = true ∨
       (s.chip.two = true ∧ s.chip.pwr.noClockE = true) → Completes (.resetRelease straps) s s.chip)) ∧
   (∀ s : State, s.chip.cfg.stage = .image →
     let a := judgeImage s.chip.nv.flash0 (s.chip.nv.tornOf 0)
     let b := judgeImage s.chip.nv.flash1 (s.chip.nv.tornOf 1)
     ((a.valid = false ∧ b.valid = false) ∨ 2 ≤ s.chip.cfg.missed → ∃ c, Completes .imageVerifyComplete s c ∧
       c.cfg.stage = .recovery ∧ c.cfg.imageA = a ∧ c.cfg.imageBInfo = b) ∧
     (a.valid = true ∨ b.valid = true → s.chip.cfg.missed < 2 → s.chip.cfg.forceImage = none →
       ∃ c, Completes .imageVerifyComplete s c ∧ c.cfg.stage = .dram ∧ c.cfg.imageA = a ∧ c.cfg.imageBInfo = b ∧
         c.cfg.imageB = (b.valid && (!a.valid || decide (0 < sdiff 32 b.seq a.seq))) ∧ c.cfg.fallback = false)) ∧
   (∀ (s : State) (m : Master), s.chip.cfg.stage = .lanes → s.chip.cfg.failCount < 8 → ∃ c, Completes (.bootOk m) s c ∧
     c.cfg.stage = .ready ∧ c.cfg.missed = 0 ∧ (s.chip.cfg.maint ≠ .opened → c.cfg.maint = .locked) ∧
     c.w.evtCount 200 = min 255 (s.chip.w.evtCount 200 + 1))) ∧
  (let clean (s : State) (c : Chip) : Prop :=
     c.cfg.stage = .held ∧ c.nv.bootCount = s.chip.nv.bootCount ∧ (s.chip.cfg.flashOp = none → c.nv = s.chip.nv) ∧
     c.cfg.failCount = s.chip.cfg.failCount ∧ c.sched = Sched.reset ∧
     c.w.grist = (Chip.reset s.chip.variant).w.grist ∧ c.e = (Chip.reset s.chip.variant).e ∧ c.w.tables = [] ∧
     (∀ n, c.w.evtCount n = 0) ∧ c.cfg.swap = none ∧
     c.fld .w F.PWR_FAULT_COUNT_supply = s.chip.fld .w F.PWR_FAULT_COUNT_supply ∧ c.out = s.chip.out
   (∀ s : State, ∃ c, Completes .moduleReset s c ∧ clean s c ∧ c.cfg.missed = 0) ∧
   (∀ (s : State) (m : Master), s.runs → ∃ c, Completes (.resetCommand m) s c ∧ clean s c ∧ c.cfg.missed = 0 ∧
     c.fld .w F.PWR_LAST_RESET_why = 7) ∧
   (∀ s : State, s.chip.cfg.stage = .image → 3500000000 ≤ s.chip.now → ∃ c, Completes .bootDeadline s c ∧ clean s c ∧
     c.cfg.missed = s.chip.cfg.missed + 1 ∧ c.cfg.forceImage = none ∧ c.fld .w F.PWR_LAST_RESET_why = 8) ∧
   (∀ s : State, s.chip.cfg.stage = .dram ∨ s.chip.cfg.stage = .configuration ∨ s.chip.cfg.stage = .lanes →
     (3500000000 ≤ s.chip.now → ∃ c, Completes .bootDeadline s c ∧ clean s c ∧ c.cfg.missed = s.chip.cfg.missed + 1 ∧
       c.cfg.forceImage = some (!s.chip.cfg.imageB) ∧ c.fld .w F.PWR_LAST_RESET_why = 8) ∧
     (s.chip.now < 3500000000 → Completes .bootDeadline s s.chip)))

/-! ### Configuration and access control (chapter 13) -/

/-- The swap (R346 to R348): arming begins it, and is refused with its reason and source 203 while one is armed; a disarm ends it
at the end of the tick with outcome 4, unless something has ended it before or its commit is on its way; preparation copies a die's shadow values; at the
end of the tick of its swap point a swap with a reason against it is refused, and any other makes the copies active on every
die; once the supply has failed no swap point comes. -/
def Obligations.Swaps : Prop :=
  (∀ (s : State) (m : Master), s.runs → s.chip.herd.role = .standalone →
    (s.chip.cfg.swap = none → ∃ c, Completes (.swapArm m false) s c ∧
      c.cfg.swap = some ⟨none, s.chip.now, false, false, !s.chip.two, [], none, [], false⟩ ∧ (∀ n, c.w.evtCount n = s.chip.w.evtCount n)) ∧
    (∀ mode, s.chip.cfg.swap.isSome = true → ∃ c, Completes (.swapArm m mode) s c ∧ c.cfg = s.chip.cfg ∧
      (∀ d, s.chip.hasDie d = true → c.fld d F.CFG_SWAP_STATUS_outcome = 2 ∧ c.fld d F.CFG_SWAP_STATUS_reasons = 64 ∧
        (c.die d).evtCount 203 = min 255 ((s.chip.die d).evtCount 203 + 1)))) ∧
  (∀ (s : State) (m : Master) (mode : Bool), s.runs →
    (∀ w, s.chip.cfg.swap = some w → s.chip.committed = false → ∃ c, Completes (.swapDisarm m mode) s c ∧ c.cfg.swap = some
      (if w.ending.isSome then w else { w with ending := some 4, checks := s.chip.swapChecks })) ∧
    (s.chip.cfg.swap = none ∨ s.chip.committed = true →
      Completes (.swapDisarm m mode) s (s.chip.put .w F.CFG_SWAP_CTRL_mode (b2n mode)))) ∧
  (∀ (s : State) (d : DieId) (bad : List Nat), s.runs → s.chip.hasDie d = true → s.chip.swapArmed = true →
    (s.chip.die d).pendingCopy = none → s.chip.herd.role = .standalone → ∃ c, Completes (.swapPrepareComplete d bad) s c ∧
      (c.die d).pendingCopy = some ⟨(s.chip.die d).shadowWords, (s.chip.die d).tableCopy false,
        bad.filter fun a => isTable a && tableMask a != 0⟩ ∧
      (d = .w → c.cfg.swap.map (·.readyW) = some true) ∧ c.die d.other = s.chip.die d.other) ∧
  (∀ (s : State) (w : Swap), s.runs → s.chip.herd.role = .standalone ∨ s.chip.herd.role = .buck →
    s.chip.cfg.swap = some w → s.chip.committed = false →
    (s.chip.pwr.fault = none → Completes .swapPoint s
      { s.chip with cfg := { s.chip.cfg with swap := some { w with due := true } } }) ∧
    (s.chip.pwr.fault.isSome = true → Completes .swapPoint s s.chip)) ∧
  (∀ (c : Chip) (w : Swap), c.herd.role = .standalone → c.cfg.swap = some w → w.due = true →
    let c1 := c.judgeDueSwap
    (c.swapDue w = false → c1 = { c with cfg := { c.cfg with swap := some { w with due := false } } }) ∧
    (c.swapDue w = true → c.swapReasons w ≠ [] → c1.cfg.swap = none ∧
      (∀ d, c.hasDie d = true → c1.fld d F.CFG_SWAP_STATUS_outcome = 2 ∧ (c1.die d).tables = (c.die d).tables ∧
        (c1.die d).pendingCopy = none ∧ (c1.die d).evtCount 203 = min 255 ((c.die d).evtCount 203 + 1))) ∧
    (c.swapDue w = true → c.swapReasons w = [] → c1.cfg.swap = none ∧
      (c.cfg.stage = .configuration → c1.cfg.stage = .lanes) ∧
      (∀ d, c.hasDie d = true → c1.fld d F.CFG_SWAP_STATUS_outcome = 1 ∧ c1.fld d F.CFG_SWAP_STATUS_reasons = 0 ∧
        (c1.die d).tables = (c.die d).activate.tables ∧ (c1.die d).pendingCopy = none)))

/-- The check units (R350, R351): a free unit goes to the master that acquires it, its owner frees it again, and a write of any
other master is ignored with source 219; a start sets the algorithm's first value; data goes into the value in the order of
its bytes; a range is noted, and ends, once the management budget has let its lines through and no page of it is being copied,
with source 218 and the unit idle; one whose words need no correction changes no word of DRAM. -/
def Obligations.CheckUnits : Prop :=
  (∀ (s : State) (m : Master) (d : DieId) (u algo : Nat) (v : Word), s.serves → s.chip.hasDie d = true → u < 4 → algo < 4 →
    let x := (s.chip.die d).chkUnit u
    (x.owner = 0 → ownerCode d m ≠ 0 → ∃ c, Completes (.chkAcquire m d u algo) s c ∧
      (c.die d).chkUnit u = { x with owner := ownerCode d m } ∧
      (∀ k, k < 4 → k ≠ u → (c.die d).chkUnit k = (s.chip.die d).chkUnit k)) ∧
    (x.owner ≠ 0 → x.owner ≠ ownerCode d m →
      Completes (.chkAcquire m d u algo) s (s.chip.raise d 219) ∧ Completes (.chkRelease m d u algo) s (s.chip.raise d 219) ∧
      Completes (.chkStart m d u algo) s (s.chip.raise d 219) ∧ Completes (.chkData m d u v) s (s.chip.raise d 219) ∧
      Completes (.chkDataB m d u v) s (s.chip.raise d 219) ∧ Completes (.chkRangeGo m d u v) s (s.chip.raise d 219)) ∧
    (x.owner = ownerCode d m → x.owner ≠ 0 →
      (∃ c, Completes (.chkRelease m d u algo) s c ∧ (c.die d).chkUnit u = .reset) ∧
      (x.busy = false →
        (∃ c, Completes (.chkStart m d u algo) s c ∧
          (c.die d).chkUnit u = { x with algo := algo, reg := chkInit algo, error := false }) ∧
        Completes (.chkData m d u v) s (s.chip.onChk d u (·.take (leBytes 4 v.toNat))) ∧
        Completes (.chkDataB m d u v) s (s.chip.onChk d u (·.take [bits v 7 0])) ∧
        (∃ c, Completes (.chkRangeGo m d u v) s c ∧ (c.die d).chkUnit u = { x with
          busy := true, error := false, len := max 1 (bits v 30 0)
          addr := s.chip.fld d (F.CHK_RANGE_addr_low.at u) + 2 ^ 32 * s.chip.fld d (F.CHK_RANGE_1_addr_high.at u) })))) ∧
  (∀ (s : State) (d : DieId) (u : Nat) (read : MemRead) (good : Nat), s.runs → s.chip.hasDie d = true → u < 4 →
    let x := (s.chip.die d).chkUnit u
    x.busy = true → (s.chip.die d).dram.active = true → (s.chip.die d).dram.waiting 2 = 0 →
    (s.chip.die d).dram.rangeFree x.addr x.len = true → ∃ t, exec (.chkRangeComplete d u read good) s = .next t ∧
      ((t.chip.die d).chkUnit u).busy = false ∧ (t.chip.die d).evtCount 218 = min 255 ((s.chip.die d).evtCount 218 + 1) ∧
      ((∀ a, x.addr / 8 ≤ a / 8 → a < x.addr + x.len →
          (s.chip.die d).dram.isOpen a = false ∧ (s.dramWord d a).judge.bit? = none) → ∀ k a, t.dramWord k a = s.dramWord k a)) ∧
  (∀ (s : State) (d : DieId) (u : Nat) (read : MemRead) (good : Nat), s.runs → s.chip.hasDie d = true → u < 4 →
    (s.chip.die d).dram.waiting 2 ≠ 0 → exec (.chkRangeComplete d u read good) s = .next s)

/-- Maintenance access (R353 to R355): a challenge and a verify are ignored in lockout; a verify uses up the challenge, and without
a fresh one raises source 209; a valid response opens access for its duration and clears the failed attempts, an invalid one
is counted, and the eighth locks access out; access closes at its command and at its end. -/
def Obligations.MaintenanceAccess : Prop :=
  (∀ (s : State) (m : Master), s.runs →
    (s.chip.lockedOut = true → Completes (.maintChallenge m) s s.chip ∧ Completes (.maintVerify m) s s.chip) ∧
    (s.chip.lockedOut = false → ∃ c, Completes (.maintChallenge m) s c ∧ c.cfg.challengeFresh = true ∧
      c.cfg.challenge.length = 32 ∧ c = { s.chip with cfg := c.cfg, free := s.chip.free + 1 }) ∧
    (s.chip.lockedOut = false →
      (s.chip.cfg.challengeFresh = false → Completes (.maintVerify m) s (s.chip.raise .w 209)) ∧
      (s.chip.cfg.challengeFresh = true → s.chip.cfg.verify ≠ none → Completes (.maintVerify m) s s.chip) ∧
      (s.chip.cfg.challengeFresh = true → s.chip.cfg.verify = none → ∃ c, Completes (.maintVerify m) s c ∧ c.cfg.challengeFresh = false ∧
        c.cfg.verify.map (fun v => (v.challenge, v.duration)) =
          some (s.chip.cfg.challenge, s.chip.fld .w F.CFG_MAINT_DUR_duration_s))) ∧
    (s.chip.cfg.maint = .opened → ∃ c, Completes (.maintClose m) s c ∧ c.cfg.maint = .locked ∧
      c.w.evtCount 206 = min 255 (s.chip.w.evtCount 206 + 1)) ∧
    (s.chip.cfg.maint ≠ .opened → Completes (.maintClose m) s s.chip)) ∧
  (∀ s : State, s.runs →
    (s.chip.cfg.maint = .opened → s.chip.cfg.openUntil ≤ s.chip.now → ∃ c, Completes .maintExpiry s c ∧
      c.cfg.maint = .locked ∧ c.w.evtCount 206 = min 255 (s.chip.w.evtCount 206 + 1)) ∧
    (s.chip.now < s.chip.cfg.openUntil → Completes .maintExpiry s s.chip) ∧
    (∀ v, s.chip.cfg.verify = some v →
      (s.chip.verifyOk v = true → ∃ c, Completes .maintVerifyComplete s c ∧ c.cfg.verify = none ∧ c.cfg.maint = .opened ∧
        c.cfg.openUntil = s.chip.now + 1000000000 * v.duration ∧ c.cfg.failCount = 0 ∧
        c.w.evtCount 205 = min 255 (s.chip.w.evtCount 205 + 1)) ∧
      (s.chip.verifyOk v = false → ∃ c, Completes .maintVerifyComplete s c ∧ c.cfg.verify = none ∧
        c.cfg.failCount = min 8 (s.chip.cfg.failCount + 1) ∧
        c.cfg.maint = (if 8 ≤ s.chip.cfg.failCount + 1 then .lockout else s.chip.cfg.maint) ∧
        c.w.evtCount 207 = min 255 (s.chip.w.evtCount 207 + 1))))

/-- Management cores and the measurement (R356, R358, R359): a kick is noted; a running core whose kick is missed stops with
cause 2 and source 214, and is reloaded where auto_restart says so; a restart reloads the core with cause 3; a reload whose
sections match gives the core its code and data of the running image and runs again with source 215, and any other stays stopped with source 217; a new measurement comes into
force, with source 212 on every die when it differs; a read index frees the records before it. -/
def Obligations.CoresAndMeasurement : Prop :=
  (∀ (s : State) (m : Master) (d : DieId) (k : Nat) (v : Word), s.runs → s.chip.hasDie d = true → k < 2 →
    s.chip.mayClosed m = true →
    (bit v 1 = false → ∃ c, Completes (.watchdogKick m d k v) s c ∧
      ((c.die d).mc k) = { (s.chip.die d).mc k with kickAt := s.chip.now } ∧
      c.fld d (F.CFG_MC_CTRL_wd_ms.at k) = bits v 31 16 ∧ c.fld d (F.CFG_MC_CTRL_auto_restart.at k) = bits v 2 2) ∧
    (∃ c, Completes (.coreRestart m d k v) s c ∧ ((c.die d).mc k).state = .reloading ∧ ((c.die d).mc k).cause = 3 ∧
      ((c.die d).evt.core k).stack = [])) ∧
  (∀ (s : State) (d : DieId) (k : Nat), s.runs → s.chip.hasDie d = true → k < 2 →
    (s.chip.firmwareRuns = true → ((s.chip.die d).mc k).state = .running → s.chip.fld d (F.CFG_MC_CTRL_wd_ms.at k) ≠ 0 →
      1000000 * s.chip.fld d (F.CFG_MC_CTRL_wd_ms.at k) ≤ s.chip.now - ((s.chip.die d).mc k).kickAt →
      ∃ c, Completes (.watchdogExpiry d k) s c ∧ ((c.die d).mc k).cause = 2 ∧
        ((c.die d).mc k).state = (if s.chip.flag d (F.CFG_MC_CTRL_auto_restart.at k) then .reloading else .stopped) ∧
        (c.die d).evtCount 214 = min 255 ((s.chip.die d).evtCount 214 + 1)) ∧
    (((s.chip.die d).mc k).state = .reloading →
      (s.chip.coreSectionsOk d k = true → Completes (.coreReloadComplete d k) s
        (let f := s.chip.flash (b2n s.chip.cfg.imageB)
         (s.chip.onDie d (·.onMc k fun q => { q with
           state := .running, kickAt := s.chip.now, code := coreMemory f 1 (coreTarget d k)
           data := coreMemory f 2 (coreTarget d k) })).raise d 215)) ∧
      (s.chip.coreSectionsOk d k = false → Completes (.coreReloadComplete d k) s
        ((s.chip.onDie d (·.onMc k fun q => { q with state := .stopped })).raise d 217)))) ∧
  (∀ s : State, s.runs → s.chip.cfg.measBusy = true → ∃ c, Completes .measurementRecomputeComplete s c ∧
    c.cfg.measBusy = false ∧ c.cfg.meas = s.chip.computeMeas ∧
    (s.chip.computeMeas ≠ s.chip.measBytes → ∀ d, s.chip.hasDie d = true →
      (c.die d).evtCount 212 = min 255 ((s.chip.die d).evtCount 212 + 1))) ∧
  (∀ (s : State) (m : Master) (d : DieId) (v : Word), s.runs → s.chip.hasDie d = true →
    let x := (s.chip.die d).jlog
    let n := (bits v 7 0 + 256 - x.rd) % 256
    (bit v 8 = false → n ≤ x.count → Completes (.jlogRdIdxWrite m d v) s
      (s.chip.onJlog d fun y => { y with rd := bits v 7 0, count := y.count - n })) ∧
    (bit v 8 = false → x.count < n → Completes (.jlogRdIdxWrite m d v) s (s.chip.raise d 2)) ∧
    (bit v 8 = true → n = 0 → x.count = 256 → Completes (.jlogRdIdxWrite m d v) s
      (s.chip.onJlog d fun y => { y with rd := bits v 7 0, count := 0 })))

/-- The flash devices (R337, R372): an operation of a master with access starts when none runs, and is ignored else, on the bytes its address names; the
running image's device is not written, nor is the counter sector: that is an error with source 217. At its end source 216
is raised; a programmed page keeps the bits that both hold, an erased sector reads 0xFF, and every other byte stays. -/
def Obligations.FlashDevices : Prop :=
  (∀ (s : State) (m : Master) (dev : Bool), s.runs → s.chip.cfg.flashOp = none → s.chip.mayClosed m = true →
    let a := s.chip.fld .w F.CFG_FLASH_ADDR_addr
    let kept (at' : Nat) : Prop := s.chip.runningDevice ≠ some (b2n dev) ∧ at' < 0x3FF0000
    let begun (c : Chip) (op at' : Nat) : Prop := c.cfg.flashError = false ∧
      c.cfg.flashOp.map (fun o => (o.op, o.device, o.addr)) = some (op, b2n dev, at') ∧ c.nv = s.chip.nv
    (∃ c, Completes (.flashRead m dev) s c ∧ begun c 1 a) ∧
    (kept (a / 256 * 256) → ∃ c, Completes (.flashProgram m dev) s c ∧ begun c 2 (a / 256 * 256)) ∧
    (kept (a / 65536 * 65536) → ∃ c, Completes (.flashErase m dev) s c ∧ begun c 3 (a / 65536 * 65536)) ∧
    (s.chip.runningDevice = some (b2n dev) →
      let c : Chip := { s.chip with cfg := { s.chip.cfg with flashError := true } }
      Completes (.flashProgram m dev) s (c.raise .w 217) ∧ Completes (.flashErase m dev) s (c.raise .w 217)) ∧
    (0x3FF0000 ≤ a → let c : Chip := { s.chip with cfg := { s.chip.cfg with flashError := true } }
      Completes (.flashProgram m dev) s (c.raise .w 217) ∧ Completes (.flashErase m dev) s (c.raise .w 217))) ∧
  (∀ (s : State) (m : Master) (dev : Bool), s.runs → s.chip.cfg.flashOp.isSome = true ∨ s.chip.mayClosed m = false →
    Completes (.flashRead m dev) s s.chip ∧ Completes (.flashProgram m dev) s s.chip ∧
    Completes (.flashErase m dev) s s.chip) ∧
  (∀ (s : State) (o : FlashOp), s.runs → s.chip.cfg.flashOp = some o → ∃ c, Completes (.flashOperationDone false) s c ∧
    c.cfg.flashOp = none ∧ c.cfg.flashError = false ∧ c.w.evtCount 216 = min 255 (s.chip.w.evtCount 216 + 1) ∧
    (∀ i, i < o.addr ∨ o.addr + o.extent ≤ i → smGet 255 i (c.flash o.device) = smGet 255 i (s.chip.flash o.device)) ∧
    (if o.device = 0 then c.nv.flash1 = s.chip.nv.flash1 else c.nv.flash0 = s.chip.nv.flash0) ∧
    (o.op = 1 → c.nv = s.chip.nv) ∧
    (o.op = 3 → ∀ i, o.addr ≤ i → i < o.addr + 65536 → smGet 255 i (c.flash o.device) = 255) ∧
    (o.op = 2 → o.buffer.length = 64 → ∀ i, i < 256 → smGet 255 (o.addr + i) (c.flash o.device) =
      Nat.land (smGet 255 (o.addr + i) (s.chip.flash o.device)) ((o.buffer.getD (i / 4) 0).toNat / 256 ^ (i % 4) % 256)))

/-! ### Herds (chapter 14) -/

/-- HELLO_SEND, STATUS_SEND, TIME_SEND and SYNC_MESSAGE_RECEIVE (R365, R366, R370, R371): each message leaves on both links, under
the next sequence number, when its period has passed, and the buck's TIME aligns every module heard of; without both locks a
link's block is discarded and counted, and its message not used; a copy of a message acted on before is forwarded on the other
link, while it has passed fewer than 7 links, and not acted on; a first copy is noted, and a member takes the buck's slot
message as a decision of the tick it names; a HELLO under the module's own id that is not its own last one makes it refused,
with source 231. A standalone module ignores its links (R369).

HERD_ELECTION, HERD_DECISION_ACT and HERD_DIGEST_COMPLETE (R363, R367, R371): a joining module that is
the lowest present one set in buck_ok, when its time has come, is the buck, and one that is not stays joining under that id;
a decision acts in its tick and not before; the buck's digest is SHA-256 (`sha256`, FIPS 180-4) over the present members in ascending id. -/
def Obligations.HerdMessagesAndElection : Prop :=
  ((∀ s : State, s.runs →
     let h := s.chip.herd
     let sent (g : Herd) (m : SyncMsg) : Chip := { s.chip with
       herd := { g with seq := h.seq + 1 }, out := s.chip.out ++ [.sync false h.addr h.seq 0 m, .sync true h.addr h.seq 0 m] }
     (∀ t, h.settings = some t → h.role ≠ .standalone → 10000 * (h.hellos + 1) ≤ s.chip.now →
       Completes .helloSend s (sent { h with hellos := s.chip.now / 10000, helloSeq := some h.seq }
         (.hello (if s.chip.variant = .k262 then 0x0262 else 0x0131) h.role.code (b2n (nbit t.buckOk h.addr)) t.crc))) ∧
     (h.role = .member ∨ h.role = .buck → 1000 * (h.statuses + 1) ≤ s.chip.now →
       Completes .statusSend s (sent { h with statuses := s.chip.now / 1000 } (.status s.chip.statusMsg))) ∧
     (h.role = .buck → 10000 * (h.times + 1) ≤ s.chip.now → Completes .timeSend s
       (sent { h with times := s.chip.now / 10000, peers := h.peers.map fun p => { p with aligned := true } }
         (.time s.chip.formatTime s.chip.ptp.state.code s.chip.now)))) ∧
   (∀ (s : State) (linkB : Bool) (skip : Nat) (blocks : List LineBlock) (origin seq hops : Nat) (m : SyncMsg)
       (due short long : Nat), s.runs → origin < 8 →
     let cmd : Instr := .syncMessageReceive linkB skip blocks origin seq hops m due short long
     let h := s.chip.herd
     let c1 := s.chip.syncBlocks linkB skip blocks
     let locked := (c1.herd.rx linkB).usable s.chip.now
     let count := if linkB then F.HERD_LINK_ERR_b else F.HERD_LINK_ERR_a
     (h.role = .standalone → Completes cmd s s.chip) ∧
     (h.role ≠ .standalone → (if linkB then c1.herd.linkB else c1.herd.linkA) = locked ∧
       (∀ b, blocks = [b] → (h.rx linkB).usable s.chip.now = false ∨ validSync b = false →
         c1.fld .w count = min 65535 (s.chip.fld .w count + 1)) ∧
       (locked = false → Completes cmd s c1) ∧
       (locked = true → origin ≠ h.addr → (origin, seq) ∈ h.seen → Completes cmd s { c1 with
         out := if hops < 6 then s.chip.out ++ [.sync (!linkB) origin seq (hops + 1) m] else s.chip.out }) ∧
       (locked = true → origin ≠ h.addr → (origin, seq) ∉ h.seen → ∃ c, Completes cmd s c ∧
         (origin, seq) ∈ c.herd.seen ∧ (hops < 6 → .sync (!linkB) origin seq (hops + 1) m ∈ c.out) ∧
         (∀ x, m = .slot x → h.role = .member → h.buckId = origin →
           c.herd.decisions = h.decisions ++ [⟨due, some x, none⟩])) ∧
       (∀ part state ok crc, locked = true → h.role ≠ .refused → origin = h.addr → h.helloSeq ≠ some seq →
         m = .hello part state ok crc → Completes cmd s
           ({ c1 with herd := { c1.herd with role := .refused } }.raise .w 231))))) ∧
  ((∀ (s : State) (t : HerdSettings) (id : Nat), s.runs → s.chip.herd.settings = some t → s.chip.herd.role = .joining →
     (∀ p ∈ s.chip.herd.peers, p.state ≠ 3) → t.formMs * 1000000 ≤ s.chip.now - s.chip.herd.bootAt →
     lowest (s.chip.candidates 0) = some id → ∃ c, Completes .herdElection s c ∧ c.herd.buckId = id ∧
       c.herd.role = (if id = s.chip.herd.addr then .buck else .joining) ∧
       (∀ p ∈ c.herd.peers, p.admitted = false) ∧ c = { s.chip with herd := c.herd, out := c.out } ∧
       (id ≠ s.chip.herd.addr → c.out = s.chip.out)) ∧
   (∀ (s : State) (x : Decision) (l : List Decision), s.runs → s.chip.herd.decisions = x :: l →
     (s.chip.now < x.at_ → Completes .herdDecisionAct s s.chip) ∧
     (∀ m, x.at_ ≤ s.chip.now → x.slot = some m → x.commit = none → m.s0 = none → m.ends = none → m.fires = true →
       m.exposing = false → ∃ c, Completes .herdDecisionAct s c ∧ c.herd.decisions = l ∧
         c.sched.slot = m.number ∧ c.sched.slotAt = s.chip.now)) ∧
   (∀ s : State, s.runs → s.chip.herd.role = .buck → s.chip.herd.measDirty = true →
     let own := (s.chip.herd.addr, s.chip.measBytes)
     let ps := (s.chip.herd.peers.filter (·.admitted)).map fun p => (p.id, p.meas)
     Completes .herdDigestComplete s { s.chip with herd := { s.chip.herd with
       measDirty := false
       meas := sha256 ((ps.filter (·.1 < own.1) ++ own :: ps.filter (own.1 < ·.1)).flatMap fun p => p.1 :: p.2) } }))

/-- MEMBER_LOSS, BUCK_LOSS and SYNC_LINK_LOSS (R380): a member of which the buck has heard nothing for 2 µs is lost, and not
before; the loss is counted in HERD_LOST_COUNT and raises source 225. A link that is lost raises source 228 and changes
nothing but its own mark and its receiver's locks. A member that has heard nothing from the buck for 2 µs, and not before, enters lost. -/
def Obligations.HerdSilence : Prop :=
  (∀ (s : State) (p : Peer), s.runs → s.chip.herd.role = .buck → s.chip.herd.peer? p.id = some p → p.admitted = true →
    (s.chip.now - p.heardAt < 2000 → Completes (.memberLoss p.id) s s.chip) ∧
    (2000 ≤ s.chip.now - p.heardAt → ∃ c, Completes (.memberLoss p.id) s c ∧
      c.herd.peer? p.id = some { p with admitted := false, gone := true, goneAt := s.chip.now } ∧ c.herd.role = .buck ∧
      c.fld .w F.HERD_LOST_COUNT_count = min (2 ^ 32 - 1) (s.chip.fld .w F.HERD_LOST_COUNT_count + 1) ∧
      c.w.evtCount 225 = min 255 (s.chip.w.evtCount 225 + 1) ∧ c.sched = s.chip.sched)) ∧
  (∀ (s : State) (linkB : Bool), s.runs → s.chip.herd.role ≠ .standalone →
    (if linkB then s.chip.herd.linkB else s.chip.herd.linkA) = true → Completes (.syncLinkLoss linkB) s
      ({ s.chip with herd := if linkB then { s.chip.herd with linkB := false, rxB := s.chip.herd.rxB.loseBlock }
        else { s.chip.herd with linkA := false, rxA := s.chip.herd.rxA.loseBlock } }.raise .w 228)) ∧
  (∀ (s : State) (p : Peer), s.runs → s.chip.herd.role = .member → s.chip.herd.peer? s.chip.herd.buckId = some p →
    (s.chip.now - p.heardAt < 2000 → Completes .buckLoss s s.chip) ∧
    (2000 ≤ s.chip.now - p.heardAt → ∃ c, Completes .buckLoss s c ∧ c.herd.role = .lost ∧ c.herd.lostAt = s.chip.now))

/-- BUCK_LOSS and FAILOVER_ELECTION (R382, R383): a member that enters lost, with no decision of the buck's due, closes its
gates, with source 9 naming the buck where they were open, has an idle scheduler and raises source 230. After 100 µs, where
failover is enabled, a lost module that is the lowest present one set in buck_ok is, once after each loss, the new buck, with source 227 and its own
slot number; an armed swap is cancelled, with outcome 3 and source 204. -/
def Obligations.HerdFailover : Prop :=
  (∀ s : State, s.runs → s.chip.herd.role = .member → (∀ x ∈ s.chip.herd.decisions, s.chip.now < x.at_) →
    2000 ≤ s.chip.now - ((s.chip.herd.peer? s.chip.herd.buckId).map (·.heardAt)).getD 0 → ∃ c, Completes .buckLoss s c ∧
      c.herd.decisions = [] ∧ c.sched.mode = .idle ∧ c.w.evtCount 230 = min 255 (s.chip.w.evtCount 230 + 1) ∧
      (∀ d, s.chip.hasDie d = true → (c.die d).ilk.gateOpen = false ∧
        ((s.chip.die d).ilk.gateOpen = true → c.fld d F.ILK_FIRST_source = 9 ∧
          c.fld d F.ILK_FIRST_module_id = s.chip.herd.buckId % 8))) ∧
  (∀ (s : State) (t : HerdSettings) (id : Nat), s.runs → s.chip.herd.settings = some t → s.chip.herd.role = .lost →
    lowest (s.chip.candidates s.chip.herd.lostAt) = some id →
    (t.failover = false ∨ s.chip.herd.elected = true → Completes .failoverElection s s.chip) ∧
    (t.failover = true → s.chip.herd.elected = false → 100000 ≤ s.chip.now - s.chip.herd.lostAt → ∃ c, Completes .failoverElection s c ∧
      c.herd.buckId = id ∧ c.herd.role = (if id = s.chip.herd.addr then .buck else .lost) ∧ c.herd.elected = true ∧
      c.w.evtCount 227 = min 255 (s.chip.w.evtCount 227 + 1) ∧ c.sched = s.chip.sched ∧ c.cfg.swap = none ∧
      (s.chip.cfg.swap.isSome = true → c.fld .w F.CFG_SWAP_STATUS_outcome = 3 ∧
        c.w.evtCount 204 = min 255 (s.chip.w.evtCount 204 + 1))))

/-! ### Calibration (chapter 15) -/

/-- CHAIN_CHECK_REQUEST, CAL_STEP_GO and CAL_ABORT (R389, R395): each write of CAL_CTRL stores its enables; the first asks for a
chain check; the second starts the named step, with every result not measured, or ends it at once, with source 232, when it
has nothing to measure; an abort ends the step under way.

CHAIN_CHECK_START, CHAIN_CHECK_COMPLETE and CAL_ZERO_COMPLETE (R388, R389): a check asked for starts outside a burst; its
1,024 zero samples give z, and a clipped zero is measured again; at the end of the reference measurement source 234 is
raised, and the check passes when it did not clip and the correction lies within the tolerance: the correction is then
in force under the next sequence number, and otherwise source 235 is raised and the old correction stands.

CAL_ADC_SAMPLE (R387, R388, R402): a sample of a measurement under way enters its sum and its count, and a sample at the end of
the scale marks it as clipped; outside a measurement it is counted only; none is due before its time, and one that its time has
passed is not made up for. -/
def Obligations.CalibrationSteps : Prop :=
  (∀ (s : State) (m : Master) (v : Word), s.serves →
     let stored (c : Chip) : Prop := c.fld .w F.CAL_CTRL_en = bits v 0 0 ∧ c.fld .w F.CAL_CTRL_apply = bits v 1 1 ∧
       c.fld .w F.CAL_CTRL_capture_en = bits v 2 2
     let ended (c : Chip) : Prop := c.cal.step = none ∧ c.fld .w F.CAL_STATUS_step_done = 1 ∧
       c.w.evtCount 232 = min 255 (s.chip.w.evtCount 232 + 1)
     let empty : Prop := s.chip.fld .w F.CAL_BURST_code_hi ≤ s.chip.fld .w F.CAL_BURST_code_lo ∨
       (s.chip.fld .w F.CAL_STEP_MASK_mask_low = 0 ∧ s.chip.fld .w F.CAL_STEP_MASK_1_mask_high = 0)
     (bit v 4 = false → bit v 5 = false → ∃ c, Completes (.chainCheckRequest m v) s c ∧ stored c ∧
       c.cal = { s.chip.cal with chainWanted := true }) ∧
     (bit v 3 = false → bit v 5 = false →
       (s.chip.cal.step = none → ∃ c, Completes (.calStepGo m v) s c ∧ stored c ∧
         (∀ i, i < 64 → c.fld .w (F.CAL_RESULT_status.at i) = 5) ∧
         (empty → ended c) ∧
         (¬ empty → c.cal.step = some s.chip.stepNamed ∧
           c.cal.phase = (if s.chip.cal.phase = .idle then .waiting else s.chip.cal.phase))) ∧
       (s.chip.cal.step.isSome = true → ∃ c, Completes (.calStepGo m v) s c ∧ stored c ∧ c.cal = s.chip.cal)) ∧
     (bit v 3 = false → bit v 4 = false →
       (s.chip.cal.step.isSome = true → ∃ c, Completes (.calAbort m v) s c ∧ stored c ∧ ended c ∧
         (c.cal.phase = .idle ∨ (c.cal.phase = s.chip.cal.phase ∧ c.cal.phase ∈ [CalPhase.chainZero, .chainRef]))) ∧
       (s.chip.cal.step = none → ∃ c, Completes (.calAbort m v) s c ∧ stored c ∧ c.cal = s.chip.cal))) ∧
  (∀ s : State, s.runs →
     let x := s.chip.cal
     let anew (p : CalPhase) (z : Int) : Cal :=
       { x with phase := p, phaseAt := s.chip.now, sum := 0, count := 0, clipped := false, z := z }
     (x.chainWanted = true → s.chip.flag .w F.CAL_CTRL_en = true → x.phase ∈ [CalPhase.idle, .waiting, .gap] →
       s.chip.sched.turnOpen = true ∨ s.chip.sched.calOpen = true ∨ s.chip.sched.mode = .idle →
       Completes .chainCheckStart s { s.chip with cal := { anew .chainZero x.z with
         chainWanted := false
         range := if x.step.isSome = true then x.range else s.chip.fld .w F.CAL_ADC_range } }) ∧
     (1024 ≤ x.count →
       (x.phase = .zero → x.clipped = true → Completes .calZeroComplete s { s.chip with cal := anew .zero x.z }) ∧
       (x.phase = .zero → x.clipped = false → Completes .calZeroComplete s
         { s.chip with cal := { anew .gap (roundDiv (256 * x.sum) 1024) with burst := .background } }) ∧
       (x.phase = .chainZero → x.clipped = true → Completes .calZeroComplete s { s.chip with cal := anew .chainZero x.z }) ∧
       (x.phase = .chainZero → x.clipped = false → Completes .calZeroComplete s
         { s.chip with cal := anew .chainRef (roundDiv (256 * x.sum) 1024) }) ∧
       (x.phase = .chainRef →
         let raw := roundDiv ((256 * x.sum - x.count * x.z) * fullScale x.range * 65536) (2 ^ 39 * x.count)
         let k := roundDiv (65536 * s.chip.act .w F.CAL_REF_FA_ref_fa) raw
         let pass : Prop := x.clipped = false ∧
           (k - 65536).natAbs * 1000000 ≤ 65536 * s.chip.fld .w F.CAL_LIMITS_chain_tol_ppm
         0 < raw → ∃ c, Completes .chainCheckComplete s c ∧
           c.cal.phase = (if x.step.isSome = true then .waiting else .idle) ∧ c.cal.z = x.z ∧
           c.w.evtCount 234 = min 255 (s.chip.w.evtCount 234 + 1) ∧
           (pass → c.cal.pass = true ∧ c.cal.kChain = k.toNat ∧ c.cal.chainSeq = (x.chainSeq + 1) % 65536 ∧
             c.cal.passAt = some s.chip.now ∧ c.w.evtCount 235 = s.chip.w.evtCount 235) ∧
           (¬ pass → c.cal.pass = false ∧ c.cal.kChain = x.kChain ∧ c.cal.chainSeq = x.chainSeq ∧ c.cal.passAt = x.passAt ∧
             c.w.evtCount 235 = min 255 (s.chip.w.evtCount 235 + 1))))) ∧
  (∀ (s : State) (v : Int), s.runs → -32768 ≤ v → v < 32768 →
     let x := s.chip.cal
     let under : Prop := x.phase = .slots ∨ (x.phase = .span ∧ s.chip.now ≤ x.slotAt + 5000) ∨
       (x.phase ∈ [CalPhase.zero, .chainZero, .chainRef] ∧ x.count < 1024)
     (s.chip.now / 1000 ≤ x.samples → Completes (.calAdcSample v) s s.chip) ∧
     (x.samples < s.chip.now / 1000 → s.chip.flag .w F.CAL_CTRL_capture_en = false → x.capture.length < 32 →
       (¬ under → Completes (.calAdcSample v) s { s.chip with cal := { x with samples := s.chip.now / 1000 } }) ∧
       (under → Completes (.calAdcSample v) s { s.chip with cal := { x with
           samples := s.chip.now / 1000, sum := x.sum + v, count := x.count + 1
           clipped := x.clipped || v == 32767 || v == -32768 } })))

/-- CAL_BURST_START, CAL_BURST_SLOT and CAL_BURST_COMPLETE (R392, R393): 20 µs after its gap began, in an open window on an idle
scheduler, a burst's first slot fires, and each next one a slot period later, as idle slots of the one slot count; 5 µs after
the last its span ends. A clipped sample, a closed gate or an echo not confirmed discards it, counted and with source 233,
and its echoes no longer count; otherwise the charge of R388 is the background, the low charge, or completes the beam's result.

LANE_RECAL_TURN and LANE_RECAL_START (R399): a lane's turn falls period_h hours after the previous recalibration ended, an hour
at least; it starts at the opening of a turnaround window, or, of a lane that has not yielded, at once on an idle scheduler; a
failed lane is skipped. -/
def Obligations.CalibrationBurstsAndRecal : Prop :=
  (∀ s : State, s.runs → s.chip.herd.role = .standalone →
     let x := s.chip.cal
     let fires : Prop := s.chip.w.clockFault = false ∧ s.chip.sched.decidedAt ≠ s.chip.now ∧ s.chip.sched.mode = .idle
     let fired (c : Chip) : Prop := c.cal.slotAt = s.chip.now ∧ c.sched.mode = .idle ∧ c.sched.decidedAt = s.chip.now ∧
       c.sched.decided = (s.chip.sched.decided + 1) % 2 ^ 48 ∧ c.sched.slot = (s.chip.sched.decided + 1) % 2 ^ 48
     let q := roundDiv ((256 * x.sum - x.count * x.z) * fullScale x.range * x.kChain) (2 ^ 39 * x.n)
     (fires → x.phase = .gap → 20000 ≤ s.chip.now - x.phaseAt → s.chip.flag .w F.CAL_CTRL_en = true →
       s.chip.sched.calOpen = true → ∃ c, Completes .calBurstStart s c ∧ fired c ∧ c.cal.phase = .slots ∧ c.cal.fired = 1 ∧
         c.cal.n = 2 ^ max 6 (min 14 (s.chip.fld .w F.CAL_BURST_n_log2))) ∧
     (fires → x.phase = .slots → x.slotAt + tMinOf s.chip.burstKhz ≤ s.chip.now → ∃ c, Completes .calBurstSlot s c ∧ fired c ∧
       c.cal.fired = x.fired + 1 ∧ c.cal.phase = (if x.fired + 1 = x.n then .span else .slots)) ∧
     (∀ t, x.step = some t → x.phase = .span → 5000 ≤ s.chip.now - x.slotAt →
       (x.clipped = true ∨ x.gateHit = true ∨ x.echoHit = true → ∃ c, Completes .calBurstComplete s c ∧
         c.cal = { x with
           phase := .waiting, spent := true, goSlots := x.goSlots.filter (·.2 != x.burst.tag)
           lastDiscard := if x.clipped = true then 1 else if x.gateHit = true then 2 else 3 } ∧
         c.fld .w F.CAL_DISCARD_COUNT_count = min (2 ^ 32 - 1) (s.chip.fld .w F.CAL_DISCARD_COUNT_count + 1) ∧
         c.w.evtCount 233 = min 255 (s.chip.w.evtCount 233 + 1)) ∧
       (x.clipped = false → x.gateHit = false → x.echoHit = false →
         (x.burst = .background → ∃ c, Completes .calBurstComplete s c ∧ c.cal = { x with
           step := some { t with qBg := q }, burst := .beam (t.left.headD 0) false
           phase := .gap, phaseAt := s.chip.now, sum := 0, count := 0 }) ∧
         (∀ p, x.burst = .beam p false → Completes .calBurstComplete s { s.chip with cal := { x with
           step := some { t with qLo := q - t.qBg }, burst := .beam p true
           phase := .gap, phaseAt := s.chip.now, sum := 0, count := 0 } }) ∧
         (∀ p, x.burst = .beam p true → ∃ c, Completes .calBurstComplete s c ∧
           (t.left.filter (· != p) = [] → c.cal.step = none ∧ c.cal.phase = .idle ∧
             c.w.evtCount 232 = min 255 (s.chip.w.evtCount 232 + 1)) ∧
           (∀ p1 l, t.left.filter (· != p) = p1 :: l → c.cal.step = some { t with left := p1 :: l } ∧
             c.cal.burst = .beam p1 false ∧ c.cal.phase = .gap))))) ∧
  (∀ (s : State) (d : DieId), s.runs → s.chip.hasDie d = true → s.chip.flag d F.CAL_LANE_CTRL_en = true →
     let x := (s.chip.die d).laneCal
     x.busy = false →
     (x.due = false →
       (max 1 (s.chip.fld d F.CAL_LANE_CTRL_period_h) * 3600 * 1000000000 ≤ s.chip.now - x.endedAt →
         Completes (.laneRecalTurn d) s (s.chip.onDie d fun y => { y with laneCal := { x with due := true, dueAt := s.chip.now } })) ∧
       (s.chip.now - x.endedAt < max 1 (s.chip.fld d F.CAL_LANE_CTRL_period_h) * 3600 * 1000000000 →
         Completes (.laneRecalTurn d) s s.chip)) ∧
     (x.due = true →
       let skipped : Chip := s.chip.onDie d fun y => { y with laneCal := { x with
         outcome := 2, yielded := false
         next := (x.next + 1) % if s.chip.flag d F.CAL_LANE_CTRL_grist_en then 84 else 68 } }
       (s.chip.sched.mode ≠ .idle ∨ x.yielded = true → s.chip.sched.turnAt ≠ some s.chip.now →
         Completes (.laneRecalStart d) s s.chip) ∧
       ((s.chip.sched.mode = .idle ∧ x.yielded = false) ∨ s.chip.sched.turnAt = some s.chip.now →
         (68 ≤ x.next → x.next < 84 → s.chip.flag d F.CAL_LANE_CTRL_grist_en = true →
           (((s.chip.die d).gr.phy (x.next - 68)).failed = true → Completes (.laneRecalStart d) s skipped) ∧
           (((s.chip.die d).gr.phy (x.next - 68)).failed = false →
             (∀ t ∈ (s.chip.die d).gr.training, t.lane ≠ x.next - 68) → ∃ c, Completes (.laneRecalStart d) s c ∧
             (c.die d).laneCal = { x with busy := true, due := false, yielded := false } ∧
             (∃ t ∈ (c.die d).gr.training, t.lane = x.next - 68))) ∧
         (x.next < 68 → ((s.chip.die d).blnk.phy x.next).failed = true → s.chip.retrainsNow d x.next = false →
           Completes (.laneRecalStart d) s skipped) ∧
         (∀ l, x.next < 68 → ((s.chip.die d).blnk.phy x.next).failed = false → (s.chip.die d).blnk.trains x.next = false →
           (s.chip.die d).blnk.carried x.next = some l → isSpare x.next = false →
           (s.chip.die d).blnk.spareFree (groupOf x.next) = true → ∃ c, Completes (.laneRecalStart d) s c ∧
             (c.die d).laneCal = { x with busy := true, due := false, yielded := false } ∧
             (∃ h ∈ (c.die d).blnk.hos, h.lam = l ∧ h.toLane = spareLane (groupOf x.next))))))

/-! ### Supply and temperature (chapter 17) -/

/-- SENSOR_READ, SUPPLY_WARNING, RAIL_MARGIN_LOW and POWER_ABOVE_LIMIT (R418, R423, R430): a reading stands in its register, the
power with its peak; a warning of VIN out of its range for 10 µs, of a rail more than 3 % off for 10 µs, or of a power above the
limit raises its source when it begins.

SUPPLY_FAULT, SENSOR_FAULT, a thermal trip and SUPPLY_FAULT_RESET (R418, R420, R423): a supply fault, that is a condition that
has held for its time, is counted, loads PWR_LAST_RESET with its cause, the VIN last read and the slot number, and closes every
gate, with source 241; a junction at 160 °C and a base at 135 °C do so as a trip, with source 243, and a sensor silent for 100 µs
as one with source 247 besides. Another
supply fault before the reset is counted, with source 241, and puts off no reset. The module reset follows 50 µs after the first
detection, and keeps PWR_LAST_RESET and the counts.
The thresholds of VIN are those at which every module detects (log entry 70). -/
def Obligations.SupplyMonitor : Prop :=
  (∀ (s : State) (v : Int) (dv dev held p : Nat), s.runs →
     let limit := 10 * max 1 (s.chip.fld .w F.PWR_THERM_CFG_warn_power_w)
     let noted (c : Chip) : Prop := c.fld .w F.PWR_POWER_power_dw = min 65535 p ∧
       c.fld .w F.PWR_POWER_peak_dw = max (min 65535 p) (s.chip.fld .w F.PWR_POWER_peak_dw) ∧
       c.pwr = { s.chip.pwr with powerWarn := decide (limit < p) } ∧ c.w.evtCount 245 =
         if limit < p ∧ s.chip.pwr.powerWarn = false then min 255 (s.chip.w.evtCount 245 + 1) else s.chip.w.evtCount 245
     Completes (.sensorRead .iin v) s (s.chip.put .w F.PWR_VIN_iin_ma (min 65535 v.toNat)) ∧
     (∃ c, Completes (.sensorRead .vin v) s c ∧ c.fld .w F.PWR_VIN_vin_dv = min 65535 v.toNat ∧
       (360 ≤ v → v ≤ 750 → c.pwr.vinWarn = false) ∧ (v < 360 ∨ 750 < v → c.pwr.vinWarn = s.chip.pwr.vinWarn)) ∧
     (∃ c, Completes (.sensorRead .power p) s c ∧ noted c) ∧
     (∃ c, Completes (.powerAboveLimit p) s c ∧ noted c) ∧
     ((360 ≤ dv ∧ dv ≤ 750) ∨ held < 10000 → Completes (.supplyWarning dv held) s s.chip) ∧
     (dv < 360 ∨ 750 < dv → 10000 ≤ held → ∃ c, Completes (.supplyWarning dv held) s c ∧
       c.pwr = { s.chip.pwr with vinWarn := true } ∧
       c.fld .w F.PWR_VIN_vin_dv = min 65535 dv ∧ c.w.evtCount 240 =
         if s.chip.pwr.vinWarn = true then s.chip.w.evtCount 240 else min 255 (s.chip.w.evtCount 240 + 1)) ∧
     (30 < dev → dev ≤ 50 → 10000 ≤ held → ∃ c, Completes (.railMarginLow dev held) s c ∧
       c.pwr = { s.chip.pwr with railLow := true } ∧ c.w.evtCount 246 =
         if s.chip.pwr.railLow = true then s.chip.w.evtCount 246 else min 255 (s.chip.w.evtCount 246 + 1)) ∧
     (30 < dev → held < 10000 → Completes (.railMarginLow dev held) s s.chip) ∧
     (dev ≤ 30 → Completes (.railMarginLow dev held) s { s.chip with pwr := { s.chip.pwr with railLow := false } })) ∧
  ((∀ s : State, s.runs → s.chip.pwr.fault = none → s.chip.pwr.seen = [] →
     let down (c : Chip) (why source : Nat) (count : Fld) : Prop :=
       c.pwr.fault = some (s.chip.now, why) ∧ c.fld .w F.PWR_LAST_RESET_why = why ∧
       c.fld .w F.PWR_LAST_RESET_1_slot_low = s.chip.sched.slot % 2 ^ 32 ∧
       c.fld .w count = min 65535 (s.chip.fld .w count + 1) ∧
       c.w.evtCount source = min 255 (s.chip.w.evtCount source + 1) ∧
       (∀ d, s.chip.hasDie d = true → (c.die d).ilk.gateOpen = false)
     (∀ why value held,
       (why = 1 ∧ value < 335 ∧ 10000 ≤ held) ∨ (why = 2 ∧ 775 < value ∧ 10000 ≤ held) ∨
         (why = 3 ∧ 15000 < value ∧ 1000000 ≤ held) ∨ (why = 4 ∧ 50 < value ∧ 2000 ≤ held) →
       ∃ c, Completes (.supplyFault why value held) s c ∧ down c why 241 F.PWR_FAULT_COUNT_supply ∧
         c.pwr.good = false ∧ c.fld .w F.PWR_LAST_RESET_vin_min_dv = s.chip.fld .w F.PWR_VIN_vin_dv) ∧
     (∀ value held, 335 ≤ value → value ≤ 775 →
       Completes (.supplyFault 1 value held) s s.chip ∧ Completes (.supplyFault 2 value held) s s.chip) ∧
     (∀ d i v, s.chip.hasDie d = true → i < 32 → 320 ≤ v → ∃ c, Completes (.sensorRead (.junction d i) v) s c ∧
       down c 5 243 F.PWR_FAULT_COUNT_thermal ∧ c.pwr.hot = true) ∧
     (∀ v, 270 ≤ v → ∃ c, Completes (.sensorRead .base v) s c ∧ down c 5 243 F.PWR_FAULT_COUNT_thermal ∧
       c.pwr.hot = true) ∧
     (∀ d i silent, s.chip.hasDie d = true → i < 32 → 100000 ≤ silent →
       ∃ c, Completes (.sensorFault (.junction d i) silent) s c ∧
         down c 6 243 F.PWR_FAULT_COUNT_thermal ∧ (c.die d).evtCount 247 = min 255 ((s.chip.die d).evtCount 247 + 1))) ∧
   (∀ (s : State) (t was why value held : Nat), s.runs → s.chip.pwr.fault = some (t, was) →
     supplyFaultHolds why value held = true →
     (why ∈ s.chip.pwr.seen → Completes (.supplyFault why value held) s s.chip) ∧
     (why ∉ s.chip.pwr.seen → ∃ c, Completes (.supplyFault why value held) s c ∧ c.pwr.good = false ∧
       c.pwr.fault = some (t, if 5 ≤ was then why else was) ∧
       c.fld .w F.PWR_FAULT_COUNT_supply = min 65535 (s.chip.fld .w F.PWR_FAULT_COUNT_supply + 1) ∧
       c.w.evtCount 241 = min 255 (s.chip.w.evtCount 241 + 1))) ∧
   (∀ (s : State) (t why : Nat), s.chip.pwr.fault = some (t, why) →
     (s.chip.now - t < 50000 → Completes .supplyFaultReset s s.chip) ∧
     (50000 ≤ s.chip.now - t → ∃ c, Completes .supplyFaultReset s c ∧ c.cfg.stage = .held ∧
       (s.chip.cfg.flashOp = none → c.nv = s.chip.nv) ∧ c.pwr.fault = none ∧ c.pwr.good = s.chip.pwr.good ∧
       c.fld .w F.PWR_LAST_RESET_why = s.chip.fld .w F.PWR_LAST_RESET_why ∧
       c.fld .w F.PWR_LAST_RESET_vin_min_dv = s.chip.fld .w F.PWR_LAST_RESET_vin_min_dv ∧
       c.fld .w F.PWR_FAULT_COUNT_supply = s.chip.fld .w F.PWR_FAULT_COUNT_supply)))
end

