-- ==== Sys2Proof/Laws/State.lean ====
section
/-! SUPPORT. What each update of the state leaves and what it sets: one lemma per field and update. -/

namespace Sys2Proof.Machine

/-! ### One die -/

@[simp] theorem Chip.die_w (c : Chip) : c.die .w = c.w := rfl
@[simp] theorem Chip.die_e (c : Chip) : c.die .e = c.e := rfl
@[simp] theorem Chip.die_onDie (c : Chip) (d : DieId) (f : Die → Die) : (c.onDie d f).die d = f (c.die d) := by
  cases d <;> rfl
theorem Chip.die_onDie_other (c : Chip) (d d' : DieId) (f : Die → Die) (h : d' ≠ d) : (c.onDie d f).die d' = c.die d' := by
  cases d <;> cases d' <;> first | rfl | exact absurd rfl h
@[simp] theorem Chip.w_onDie_e (c : Chip) (f : Die → Die) : (c.onDie .e f).w = c.w := rfl
@[simp] theorem Chip.e_onDie_w (c : Chip) (f : Die → Die) : (c.onDie .w f).e = c.e := rfl
@[simp] theorem Chip.w_onDie (c : Chip) (f : Die → Die) : (c.onDie .w f).w = f c.w := rfl
@[simp] theorem Chip.e_onDie (c : Chip) (f : Die → Die) : (c.onDie .e f).e = f c.e := rfl

@[simp] theorem Chip.variant_onDie (c : Chip) (d : DieId) (f : Die → Die) : (c.onDie d f).variant = c.variant := by cases d <;> rfl
@[simp] theorem Chip.now_onDie (c : Chip) (d : DieId) (f : Die → Die) : (c.onDie d f).now = c.now := by cases d <;> rfl
@[simp] theorem Chip.time_onDie (c : Chip) (d : DieId) (f : Die → Die) : (c.onDie d f).time = c.time := by cases d <;> rfl
@[simp] theorem Chip.inc_onDie (c : Chip) (d : DieId) (f : Die → Die) : (c.onDie d f).inc = c.inc := by cases d <;> rfl
@[simp] theorem Chip.evune_onDie (c : Chip) (d : DieId) (f : Die → Die) : (c.onDie d f).evune = c.evune := by cases d <;> rfl
@[simp] theorem Chip.ptp_onDie (c : Chip) (d : DieId) (f : Die → Die) : (c.onDie d f).ptp = c.ptp := by cases d <;> rfl
@[simp] theorem Chip.chans_onDie (c : Chip) (d : DieId) (f : Die → Die) : (c.onDie d f).chans = c.chans := by cases d <;> rfl
@[simp] theorem Chip.sched_onDie (c : Chip) (d : DieId) (f : Die → Die) : (c.onDie d f).sched = c.sched := by cases d <;> rfl
@[simp] theorem Chip.defl_onDie (c : Chip) (d : DieId) (f : Die → Die) : (c.onDie d f).defl = c.defl := by cases d <;> rfl
@[simp] theorem Chip.axis0_onDie (c : Chip) (d : DieId) (f : Die → Die) : (c.onDie d f).axis0 = c.axis0 := by cases d <;> rfl
@[simp] theorem Chip.axis1_onDie (c : Chip) (d : DieId) (f : Die → Die) : (c.onDie d f).axis1 = c.axis1 := by cases d <;> rfl
@[simp] theorem Chip.cfg_onDie (c : Chip) (d : DieId) (f : Die → Die) : (c.onDie d f).cfg = c.cfg := by cases d <;> rfl
@[simp] theorem Chip.nv_onDie (c : Chip) (d : DieId) (f : Die → Die) : (c.onDie d f).nv = c.nv := by cases d <;> rfl
@[simp] theorem Chip.ownId_onDie (c : Chip) (d : DieId) (f : Die → Die) : (c.onDie d f).ownId = c.ownId := by cases d <;> rfl
@[simp] theorem Chip.memberGates_onDie (c : Chip) (d : DieId) (f : Die → Die) : (c.onDie d f).memberGates = c.memberGates := by cases d <;> rfl
@[simp] theorem Chip.herd_onDie (c : Chip) (d : DieId) (f : Die → Die) : (c.onDie d f).herd = c.herd := by cases d <;> rfl
@[simp] theorem Chip.cal_onDie (c : Chip) (d : DieId) (f : Die → Die) : (c.onDie d f).cal = c.cal := by cases d <;> rfl
@[simp] theorem Chip.pwr_onDie (c : Chip) (d : DieId) (f : Die → Die) : (c.onDie d f).pwr = c.pwr := by cases d <;> rfl
@[simp] theorem Chip.start_onDie (c : Chip) (d : DieId) (f : Die → Die) : (c.onDie d f).start = c.start := by cases d <;> rfl
@[simp] theorem Chip.out_onDie (c : Chip) (d : DieId) (f : Die → Die) : (c.onDie d f).out = c.out := by cases d <;> rfl
@[simp] theorem Chip.free_onDie (c : Chip) (d : DieId) (f : Die → Die) : (c.onDie d f).free = c.free := by cases d <;> rfl

/-! ### Parts of a die -/

@[simp] theorem Chip.die_onEvl (c : Chip) (d : DieId) (f : Evl → Evl) :
    (c.onEvl d f).die d = { c.die d with evl := f (c.die d).evl } := by cases d <;> rfl
@[simp] theorem Chip.variant_onEvl (c : Chip) (d : DieId) (f : Evl → Evl) : (c.onEvl d f).variant = c.variant := by
  cases d <;> rfl
@[simp] theorem Chip.now_onEvl (c : Chip) (d : DieId) (f : Evl → Evl) : (c.onEvl d f).now = c.now := by
  cases d <;> rfl
@[simp] theorem Chip.time_onEvl (c : Chip) (d : DieId) (f : Evl → Evl) : (c.onEvl d f).time = c.time := by
  cases d <;> rfl
@[simp] theorem Chip.inc_onEvl (c : Chip) (d : DieId) (f : Evl → Evl) : (c.onEvl d f).inc = c.inc := by
  cases d <;> rfl
@[simp] theorem Chip.evune_onEvl (c : Chip) (d : DieId) (f : Evl → Evl) : (c.onEvl d f).evune = c.evune := by
  cases d <;> rfl
@[simp] theorem Chip.ptp_onEvl (c : Chip) (d : DieId) (f : Evl → Evl) : (c.onEvl d f).ptp = c.ptp := by
  cases d <;> rfl
@[simp] theorem Chip.chans_onEvl (c : Chip) (d : DieId) (f : Evl → Evl) : (c.onEvl d f).chans = c.chans := by
  cases d <;> rfl
@[simp] theorem Chip.sched_onEvl (c : Chip) (d : DieId) (f : Evl → Evl) : (c.onEvl d f).sched = c.sched := by
  cases d <;> rfl
@[simp] theorem Chip.defl_onEvl (c : Chip) (d : DieId) (f : Evl → Evl) : (c.onEvl d f).defl = c.defl := by
  cases d <;> rfl
@[simp] theorem Chip.axis0_onEvl (c : Chip) (d : DieId) (f : Evl → Evl) : (c.onEvl d f).axis0 = c.axis0 := by
  cases d <;> rfl
@[simp] theorem Chip.axis1_onEvl (c : Chip) (d : DieId) (f : Evl → Evl) : (c.onEvl d f).axis1 = c.axis1 := by
  cases d <;> rfl
@[simp] theorem Chip.cfg_onEvl (c : Chip) (d : DieId) (f : Evl → Evl) : (c.onEvl d f).cfg = c.cfg := by
  cases d <;> rfl
@[simp] theorem Chip.nv_onEvl (c : Chip) (d : DieId) (f : Evl → Evl) : (c.onEvl d f).nv = c.nv := by
  cases d <;> rfl
@[simp] theorem Chip.ownId_onEvl (c : Chip) (d : DieId) (f : Evl → Evl) : (c.onEvl d f).ownId = c.ownId := by
  cases d <;> rfl
@[simp] theorem Chip.memberGates_onEvl (c : Chip) (d : DieId) (f : Evl → Evl) : (c.onEvl d f).memberGates = c.memberGates := by
  cases d <;> rfl
@[simp] theorem Chip.herd_onEvl (c : Chip) (d : DieId) (f : Evl → Evl) : (c.onEvl d f).herd = c.herd := by
  cases d <;> rfl
@[simp] theorem Chip.cal_onEvl (c : Chip) (d : DieId) (f : Evl → Evl) : (c.onEvl d f).cal = c.cal := by
  cases d <;> rfl
@[simp] theorem Chip.pwr_onEvl (c : Chip) (d : DieId) (f : Evl → Evl) : (c.onEvl d f).pwr = c.pwr := by
  cases d <;> rfl
@[simp] theorem Chip.start_onEvl (c : Chip) (d : DieId) (f : Evl → Evl) : (c.onEvl d f).start = c.start := by
  cases d <;> rfl
@[simp] theorem Chip.out_onEvl (c : Chip) (d : DieId) (f : Evl → Evl) : (c.onEvl d f).out = c.out := by
  cases d <;> rfl
@[simp] theorem Chip.free_onEvl (c : Chip) (d : DieId) (f : Evl → Evl) : (c.onEvl d f).free = c.free := by
  cases d <;> rfl
@[simp] theorem Chip.die_onEvt (c : Chip) (d : DieId) (f : Evt → Evt) :
    (c.onEvt d f).die d = { c.die d with evt := f (c.die d).evt } := by cases d <;> rfl
@[simp] theorem Chip.variant_onEvt (c : Chip) (d : DieId) (f : Evt → Evt) : (c.onEvt d f).variant = c.variant := by
  cases d <;> rfl
@[simp] theorem Chip.now_onEvt (c : Chip) (d : DieId) (f : Evt → Evt) : (c.onEvt d f).now = c.now := by
  cases d <;> rfl
@[simp] theorem Chip.time_onEvt (c : Chip) (d : DieId) (f : Evt → Evt) : (c.onEvt d f).time = c.time := by
  cases d <;> rfl
@[simp] theorem Chip.inc_onEvt (c : Chip) (d : DieId) (f : Evt → Evt) : (c.onEvt d f).inc = c.inc := by
  cases d <;> rfl
@[simp] theorem Chip.evune_onEvt (c : Chip) (d : DieId) (f : Evt → Evt) : (c.onEvt d f).evune = c.evune := by
  cases d <;> rfl
@[simp] theorem Chip.ptp_onEvt (c : Chip) (d : DieId) (f : Evt → Evt) : (c.onEvt d f).ptp = c.ptp := by
  cases d <;> rfl
@[simp] theorem Chip.chans_onEvt (c : Chip) (d : DieId) (f : Evt → Evt) : (c.onEvt d f).chans = c.chans := by
  cases d <;> rfl
@[simp] theorem Chip.sched_onEvt (c : Chip) (d : DieId) (f : Evt → Evt) : (c.onEvt d f).sched = c.sched := by
  cases d <;> rfl
@[simp] theorem Chip.defl_onEvt (c : Chip) (d : DieId) (f : Evt → Evt) : (c.onEvt d f).defl = c.defl := by
  cases d <;> rfl
@[simp] theorem Chip.axis0_onEvt (c : Chip) (d : DieId) (f : Evt → Evt) : (c.onEvt d f).axis0 = c.axis0 := by
  cases d <;> rfl
@[simp] theorem Chip.axis1_onEvt (c : Chip) (d : DieId) (f : Evt → Evt) : (c.onEvt d f).axis1 = c.axis1 := by
  cases d <;> rfl
@[simp] theorem Chip.cfg_onEvt (c : Chip) (d : DieId) (f : Evt → Evt) : (c.onEvt d f).cfg = c.cfg := by
  cases d <;> rfl
@[simp] theorem Chip.nv_onEvt (c : Chip) (d : DieId) (f : Evt → Evt) : (c.onEvt d f).nv = c.nv := by
  cases d <;> rfl
@[simp] theorem Chip.ownId_onEvt (c : Chip) (d : DieId) (f : Evt → Evt) : (c.onEvt d f).ownId = c.ownId := by
  cases d <;> rfl
@[simp] theorem Chip.memberGates_onEvt (c : Chip) (d : DieId) (f : Evt → Evt) : (c.onEvt d f).memberGates = c.memberGates := by
  cases d <;> rfl
@[simp] theorem Chip.herd_onEvt (c : Chip) (d : DieId) (f : Evt → Evt) : (c.onEvt d f).herd = c.herd := by
  cases d <;> rfl
@[simp] theorem Chip.cal_onEvt (c : Chip) (d : DieId) (f : Evt → Evt) : (c.onEvt d f).cal = c.cal := by
  cases d <;> rfl
@[simp] theorem Chip.pwr_onEvt (c : Chip) (d : DieId) (f : Evt → Evt) : (c.onEvt d f).pwr = c.pwr := by
  cases d <;> rfl
@[simp] theorem Chip.start_onEvt (c : Chip) (d : DieId) (f : Evt → Evt) : (c.onEvt d f).start = c.start := by
  cases d <;> rfl
@[simp] theorem Chip.out_onEvt (c : Chip) (d : DieId) (f : Evt → Evt) : (c.onEvt d f).out = c.out := by
  cases d <;> rfl
@[simp] theorem Chip.free_onEvt (c : Chip) (d : DieId) (f : Evt → Evt) : (c.onEvt d f).free = c.free := by
  cases d <;> rfl
@[simp] theorem Chip.die_onPort (c : Chip) (d : DieId) (f : Port → Port) :
    (c.onPort d f).die d = { c.die d with port := f (c.die d).port } := by cases d <;> rfl
@[simp] theorem Chip.variant_onPort (c : Chip) (d : DieId) (f : Port → Port) : (c.onPort d f).variant = c.variant := by
  cases d <;> rfl
@[simp] theorem Chip.now_onPort (c : Chip) (d : DieId) (f : Port → Port) : (c.onPort d f).now = c.now := by
  cases d <;> rfl
@[simp] theorem Chip.time_onPort (c : Chip) (d : DieId) (f : Port → Port) : (c.onPort d f).time = c.time := by
  cases d <;> rfl
@[simp] theorem Chip.inc_onPort (c : Chip) (d : DieId) (f : Port → Port) : (c.onPort d f).inc = c.inc := by
  cases d <;> rfl
@[simp] theorem Chip.evune_onPort (c : Chip) (d : DieId) (f : Port → Port) : (c.onPort d f).evune = c.evune := by
  cases d <;> rfl
@[simp] theorem Chip.ptp_onPort (c : Chip) (d : DieId) (f : Port → Port) : (c.onPort d f).ptp = c.ptp := by
  cases d <;> rfl
@[simp] theorem Chip.chans_onPort (c : Chip) (d : DieId) (f : Port → Port) : (c.onPort d f).chans = c.chans := by
  cases d <;> rfl
@[simp] theorem Chip.sched_onPort (c : Chip) (d : DieId) (f : Port → Port) : (c.onPort d f).sched = c.sched := by
  cases d <;> rfl
@[simp] theorem Chip.defl_onPort (c : Chip) (d : DieId) (f : Port → Port) : (c.onPort d f).defl = c.defl := by
  cases d <;> rfl
@[simp] theorem Chip.axis0_onPort (c : Chip) (d : DieId) (f : Port → Port) : (c.onPort d f).axis0 = c.axis0 := by
  cases d <;> rfl
@[simp] theorem Chip.axis1_onPort (c : Chip) (d : DieId) (f : Port → Port) : (c.onPort d f).axis1 = c.axis1 := by
  cases d <;> rfl
@[simp] theorem Chip.cfg_onPort (c : Chip) (d : DieId) (f : Port → Port) : (c.onPort d f).cfg = c.cfg := by
  cases d <;> rfl
@[simp] theorem Chip.nv_onPort (c : Chip) (d : DieId) (f : Port → Port) : (c.onPort d f).nv = c.nv := by
  cases d <;> rfl
@[simp] theorem Chip.ownId_onPort (c : Chip) (d : DieId) (f : Port → Port) : (c.onPort d f).ownId = c.ownId := by
  cases d <;> rfl
@[simp] theorem Chip.memberGates_onPort (c : Chip) (d : DieId) (f : Port → Port) : (c.onPort d f).memberGates = c.memberGates := by
  cases d <;> rfl
@[simp] theorem Chip.herd_onPort (c : Chip) (d : DieId) (f : Port → Port) : (c.onPort d f).herd = c.herd := by
  cases d <;> rfl
@[simp] theorem Chip.cal_onPort (c : Chip) (d : DieId) (f : Port → Port) : (c.onPort d f).cal = c.cal := by
  cases d <;> rfl
@[simp] theorem Chip.pwr_onPort (c : Chip) (d : DieId) (f : Port → Port) : (c.onPort d f).pwr = c.pwr := by
  cases d <;> rfl
@[simp] theorem Chip.start_onPort (c : Chip) (d : DieId) (f : Port → Port) : (c.onPort d f).start = c.start := by
  cases d <;> rfl
@[simp] theorem Chip.out_onPort (c : Chip) (d : DieId) (f : Port → Port) : (c.onPort d f).out = c.out := by
  cases d <;> rfl
@[simp] theorem Chip.free_onPort (c : Chip) (d : DieId) (f : Port → Port) : (c.onPort d f).free = c.free := by
  cases d <;> rfl
@[simp] theorem Chip.die_onGr (c : Chip) (d : DieId) (f : GrLanes → GrLanes) :
    (c.onGr d f).die d = { c.die d with gr := f (c.die d).gr } := by cases d <;> rfl
@[simp] theorem Chip.variant_onGr (c : Chip) (d : DieId) (f : GrLanes → GrLanes) : (c.onGr d f).variant = c.variant := by
  cases d <;> rfl
@[simp] theorem Chip.now_onGr (c : Chip) (d : DieId) (f : GrLanes → GrLanes) : (c.onGr d f).now = c.now := by
  cases d <;> rfl
@[simp] theorem Chip.time_onGr (c : Chip) (d : DieId) (f : GrLanes → GrLanes) : (c.onGr d f).time = c.time := by
  cases d <;> rfl
@[simp] theorem Chip.inc_onGr (c : Chip) (d : DieId) (f : GrLanes → GrLanes) : (c.onGr d f).inc = c.inc := by
  cases d <;> rfl
@[simp] theorem Chip.evune_onGr (c : Chip) (d : DieId) (f : GrLanes → GrLanes) : (c.onGr d f).evune = c.evune := by
  cases d <;> rfl
@[simp] theorem Chip.ptp_onGr (c : Chip) (d : DieId) (f : GrLanes → GrLanes) : (c.onGr d f).ptp = c.ptp := by
  cases d <;> rfl
@[simp] theorem Chip.chans_onGr (c : Chip) (d : DieId) (f : GrLanes → GrLanes) : (c.onGr d f).chans = c.chans := by
  cases d <;> rfl
@[simp] theorem Chip.sched_onGr (c : Chip) (d : DieId) (f : GrLanes → GrLanes) : (c.onGr d f).sched = c.sched := by
  cases d <;> rfl
@[simp] theorem Chip.defl_onGr (c : Chip) (d : DieId) (f : GrLanes → GrLanes) : (c.onGr d f).defl = c.defl := by
  cases d <;> rfl
@[simp] theorem Chip.axis0_onGr (c : Chip) (d : DieId) (f : GrLanes → GrLanes) : (c.onGr d f).axis0 = c.axis0 := by
  cases d <;> rfl
@[simp] theorem Chip.axis1_onGr (c : Chip) (d : DieId) (f : GrLanes → GrLanes) : (c.onGr d f).axis1 = c.axis1 := by
  cases d <;> rfl
@[simp] theorem Chip.cfg_onGr (c : Chip) (d : DieId) (f : GrLanes → GrLanes) : (c.onGr d f).cfg = c.cfg := by
  cases d <;> rfl
@[simp] theorem Chip.nv_onGr (c : Chip) (d : DieId) (f : GrLanes → GrLanes) : (c.onGr d f).nv = c.nv := by
  cases d <;> rfl
@[simp] theorem Chip.ownId_onGr (c : Chip) (d : DieId) (f : GrLanes → GrLanes) : (c.onGr d f).ownId = c.ownId := by
  cases d <;> rfl
@[simp] theorem Chip.memberGates_onGr (c : Chip) (d : DieId) (f : GrLanes → GrLanes) : (c.onGr d f).memberGates = c.memberGates := by
  cases d <;> rfl
@[simp] theorem Chip.herd_onGr (c : Chip) (d : DieId) (f : GrLanes → GrLanes) : (c.onGr d f).herd = c.herd := by
  cases d <;> rfl
@[simp] theorem Chip.cal_onGr (c : Chip) (d : DieId) (f : GrLanes → GrLanes) : (c.onGr d f).cal = c.cal := by
  cases d <;> rfl
@[simp] theorem Chip.pwr_onGr (c : Chip) (d : DieId) (f : GrLanes → GrLanes) : (c.onGr d f).pwr = c.pwr := by
  cases d <;> rfl
@[simp] theorem Chip.start_onGr (c : Chip) (d : DieId) (f : GrLanes → GrLanes) : (c.onGr d f).start = c.start := by
  cases d <;> rfl
@[simp] theorem Chip.out_onGr (c : Chip) (d : DieId) (f : GrLanes → GrLanes) : (c.onGr d f).out = c.out := by
  cases d <;> rfl
@[simp] theorem Chip.free_onGr (c : Chip) (d : DieId) (f : GrLanes → GrLanes) : (c.onGr d f).free = c.free := by
  cases d <;> rfl
@[simp] theorem Chip.die_onGrist (c : Chip) (d : DieId) (f : Grist → Grist) :
    (c.onGrist d f).die d = { c.die d with grist := f (c.die d).grist } := by cases d <;> rfl
@[simp] theorem Chip.variant_onGrist (c : Chip) (d : DieId) (f : Grist → Grist) : (c.onGrist d f).variant = c.variant := by
  cases d <;> rfl
@[simp] theorem Chip.now_onGrist (c : Chip) (d : DieId) (f : Grist → Grist) : (c.onGrist d f).now = c.now := by
  cases d <;> rfl
@[simp] theorem Chip.time_onGrist (c : Chip) (d : DieId) (f : Grist → Grist) : (c.onGrist d f).time = c.time := by
  cases d <;> rfl
@[simp] theorem Chip.inc_onGrist (c : Chip) (d : DieId) (f : Grist → Grist) : (c.onGrist d f).inc = c.inc := by
  cases d <;> rfl
@[simp] theorem Chip.evune_onGrist (c : Chip) (d : DieId) (f : Grist → Grist) : (c.onGrist d f).evune = c.evune := by
  cases d <;> rfl
@[simp] theorem Chip.ptp_onGrist (c : Chip) (d : DieId) (f : Grist → Grist) : (c.onGrist d f).ptp = c.ptp := by
  cases d <;> rfl
@[simp] theorem Chip.chans_onGrist (c : Chip) (d : DieId) (f : Grist → Grist) : (c.onGrist d f).chans = c.chans := by
  cases d <;> rfl
@[simp] theorem Chip.sched_onGrist (c : Chip) (d : DieId) (f : Grist → Grist) : (c.onGrist d f).sched = c.sched := by
  cases d <;> rfl
@[simp] theorem Chip.defl_onGrist (c : Chip) (d : DieId) (f : Grist → Grist) : (c.onGrist d f).defl = c.defl := by
  cases d <;> rfl
@[simp] theorem Chip.axis0_onGrist (c : Chip) (d : DieId) (f : Grist → Grist) : (c.onGrist d f).axis0 = c.axis0 := by
  cases d <;> rfl
@[simp] theorem Chip.axis1_onGrist (c : Chip) (d : DieId) (f : Grist → Grist) : (c.onGrist d f).axis1 = c.axis1 := by
  cases d <;> rfl
@[simp] theorem Chip.cfg_onGrist (c : Chip) (d : DieId) (f : Grist → Grist) : (c.onGrist d f).cfg = c.cfg := by
  cases d <;> rfl
@[simp] theorem Chip.nv_onGrist (c : Chip) (d : DieId) (f : Grist → Grist) : (c.onGrist d f).nv = c.nv := by
  cases d <;> rfl
@[simp] theorem Chip.ownId_onGrist (c : Chip) (d : DieId) (f : Grist → Grist) : (c.onGrist d f).ownId = c.ownId := by
  cases d <;> rfl
@[simp] theorem Chip.memberGates_onGrist (c : Chip) (d : DieId) (f : Grist → Grist) : (c.onGrist d f).memberGates = c.memberGates := by
  cases d <;> rfl
@[simp] theorem Chip.herd_onGrist (c : Chip) (d : DieId) (f : Grist → Grist) : (c.onGrist d f).herd = c.herd := by
  cases d <;> rfl
@[simp] theorem Chip.cal_onGrist (c : Chip) (d : DieId) (f : Grist → Grist) : (c.onGrist d f).cal = c.cal := by
  cases d <;> rfl
@[simp] theorem Chip.pwr_onGrist (c : Chip) (d : DieId) (f : Grist → Grist) : (c.onGrist d f).pwr = c.pwr := by
  cases d <;> rfl
@[simp] theorem Chip.start_onGrist (c : Chip) (d : DieId) (f : Grist → Grist) : (c.onGrist d f).start = c.start := by
  cases d <;> rfl
@[simp] theorem Chip.out_onGrist (c : Chip) (d : DieId) (f : Grist → Grist) : (c.onGrist d f).out = c.out := by
  cases d <;> rfl
@[simp] theorem Chip.free_onGrist (c : Chip) (d : DieId) (f : Grist → Grist) : (c.onGrist d f).free = c.free := by
  cases d <;> rfl
@[simp] theorem Chip.die_onMash (c : Chip) (d : DieId) (f : Mash → Mash) :
    (c.onMash d f).die d = { c.die d with mash := f (c.die d).mash } := by cases d <;> rfl
@[simp] theorem Chip.variant_onMash (c : Chip) (d : DieId) (f : Mash → Mash) : (c.onMash d f).variant = c.variant := by
  cases d <;> rfl
@[simp] theorem Chip.now_onMash (c : Chip) (d : DieId) (f : Mash → Mash) : (c.onMash d f).now = c.now := by
  cases d <;> rfl
@[simp] theorem Chip.time_onMash (c : Chip) (d : DieId) (f : Mash → Mash) : (c.onMash d f).time = c.time := by
  cases d <;> rfl
@[simp] theorem Chip.inc_onMash (c : Chip) (d : DieId) (f : Mash → Mash) : (c.onMash d f).inc = c.inc := by
  cases d <;> rfl
@[simp] theorem Chip.evune_onMash (c : Chip) (d : DieId) (f : Mash → Mash) : (c.onMash d f).evune = c.evune := by
  cases d <;> rfl
@[simp] theorem Chip.ptp_onMash (c : Chip) (d : DieId) (f : Mash → Mash) : (c.onMash d f).ptp = c.ptp := by
  cases d <;> rfl
@[simp] theorem Chip.chans_onMash (c : Chip) (d : DieId) (f : Mash → Mash) : (c.onMash d f).chans = c.chans := by
  cases d <;> rfl
@[simp] theorem Chip.sched_onMash (c : Chip) (d : DieId) (f : Mash → Mash) : (c.onMash d f).sched = c.sched := by
  cases d <;> rfl
@[simp] theorem Chip.defl_onMash (c : Chip) (d : DieId) (f : Mash → Mash) : (c.onMash d f).defl = c.defl := by
  cases d <;> rfl
@[simp] theorem Chip.axis0_onMash (c : Chip) (d : DieId) (f : Mash → Mash) : (c.onMash d f).axis0 = c.axis0 := by
  cases d <;> rfl
@[simp] theorem Chip.axis1_onMash (c : Chip) (d : DieId) (f : Mash → Mash) : (c.onMash d f).axis1 = c.axis1 := by
  cases d <;> rfl
@[simp] theorem Chip.cfg_onMash (c : Chip) (d : DieId) (f : Mash → Mash) : (c.onMash d f).cfg = c.cfg := by
  cases d <;> rfl
@[simp] theorem Chip.nv_onMash (c : Chip) (d : DieId) (f : Mash → Mash) : (c.onMash d f).nv = c.nv := by
  cases d <;> rfl
@[simp] theorem Chip.ownId_onMash (c : Chip) (d : DieId) (f : Mash → Mash) : (c.onMash d f).ownId = c.ownId := by
  cases d <;> rfl
@[simp] theorem Chip.memberGates_onMash (c : Chip) (d : DieId) (f : Mash → Mash) : (c.onMash d f).memberGates = c.memberGates := by
  cases d <;> rfl
@[simp] theorem Chip.herd_onMash (c : Chip) (d : DieId) (f : Mash → Mash) : (c.onMash d f).herd = c.herd := by
  cases d <;> rfl
@[simp] theorem Chip.cal_onMash (c : Chip) (d : DieId) (f : Mash → Mash) : (c.onMash d f).cal = c.cal := by
  cases d <;> rfl
@[simp] theorem Chip.pwr_onMash (c : Chip) (d : DieId) (f : Mash → Mash) : (c.onMash d f).pwr = c.pwr := by
  cases d <;> rfl
@[simp] theorem Chip.start_onMash (c : Chip) (d : DieId) (f : Mash → Mash) : (c.onMash d f).start = c.start := by
  cases d <;> rfl
@[simp] theorem Chip.out_onMash (c : Chip) (d : DieId) (f : Mash → Mash) : (c.onMash d f).out = c.out := by
  cases d <;> rfl
@[simp] theorem Chip.free_onMash (c : Chip) (d : DieId) (f : Mash → Mash) : (c.onMash d f).free = c.free := by
  cases d <;> rfl
@[simp] theorem Chip.die_onKiln (c : Chip) (d : DieId) (f : Kiln → Kiln) :
    (c.onKiln d f).die d = { c.die d with kiln := f (c.die d).kiln } := by cases d <;> rfl
@[simp] theorem Chip.variant_onKiln (c : Chip) (d : DieId) (f : Kiln → Kiln) : (c.onKiln d f).variant = c.variant := by
  cases d <;> rfl
@[simp] theorem Chip.now_onKiln (c : Chip) (d : DieId) (f : Kiln → Kiln) : (c.onKiln d f).now = c.now := by
  cases d <;> rfl
@[simp] theorem Chip.time_onKiln (c : Chip) (d : DieId) (f : Kiln → Kiln) : (c.onKiln d f).time = c.time := by
  cases d <;> rfl
@[simp] theorem Chip.inc_onKiln (c : Chip) (d : DieId) (f : Kiln → Kiln) : (c.onKiln d f).inc = c.inc := by
  cases d <;> rfl
@[simp] theorem Chip.evune_onKiln (c : Chip) (d : DieId) (f : Kiln → Kiln) : (c.onKiln d f).evune = c.evune := by
  cases d <;> rfl
@[simp] theorem Chip.ptp_onKiln (c : Chip) (d : DieId) (f : Kiln → Kiln) : (c.onKiln d f).ptp = c.ptp := by
  cases d <;> rfl
@[simp] theorem Chip.chans_onKiln (c : Chip) (d : DieId) (f : Kiln → Kiln) : (c.onKiln d f).chans = c.chans := by
  cases d <;> rfl
@[simp] theorem Chip.sched_onKiln (c : Chip) (d : DieId) (f : Kiln → Kiln) : (c.onKiln d f).sched = c.sched := by
  cases d <;> rfl
@[simp] theorem Chip.defl_onKiln (c : Chip) (d : DieId) (f : Kiln → Kiln) : (c.onKiln d f).defl = c.defl := by
  cases d <;> rfl
@[simp] theorem Chip.axis0_onKiln (c : Chip) (d : DieId) (f : Kiln → Kiln) : (c.onKiln d f).axis0 = c.axis0 := by
  cases d <;> rfl
@[simp] theorem Chip.axis1_onKiln (c : Chip) (d : DieId) (f : Kiln → Kiln) : (c.onKiln d f).axis1 = c.axis1 := by
  cases d <;> rfl
@[simp] theorem Chip.cfg_onKiln (c : Chip) (d : DieId) (f : Kiln → Kiln) : (c.onKiln d f).cfg = c.cfg := by
  cases d <;> rfl
@[simp] theorem Chip.nv_onKiln (c : Chip) (d : DieId) (f : Kiln → Kiln) : (c.onKiln d f).nv = c.nv := by
  cases d <;> rfl
@[simp] theorem Chip.ownId_onKiln (c : Chip) (d : DieId) (f : Kiln → Kiln) : (c.onKiln d f).ownId = c.ownId := by
  cases d <;> rfl
@[simp] theorem Chip.memberGates_onKiln (c : Chip) (d : DieId) (f : Kiln → Kiln) : (c.onKiln d f).memberGates = c.memberGates := by
  cases d <;> rfl
@[simp] theorem Chip.herd_onKiln (c : Chip) (d : DieId) (f : Kiln → Kiln) : (c.onKiln d f).herd = c.herd := by
  cases d <;> rfl
@[simp] theorem Chip.cal_onKiln (c : Chip) (d : DieId) (f : Kiln → Kiln) : (c.onKiln d f).cal = c.cal := by
  cases d <;> rfl
@[simp] theorem Chip.pwr_onKiln (c : Chip) (d : DieId) (f : Kiln → Kiln) : (c.onKiln d f).pwr = c.pwr := by
  cases d <;> rfl
@[simp] theorem Chip.start_onKiln (c : Chip) (d : DieId) (f : Kiln → Kiln) : (c.onKiln d f).start = c.start := by
  cases d <;> rfl
@[simp] theorem Chip.out_onKiln (c : Chip) (d : DieId) (f : Kiln → Kiln) : (c.onKiln d f).out = c.out := by
  cases d <;> rfl
@[simp] theorem Chip.free_onKiln (c : Chip) (d : DieId) (f : Kiln → Kiln) : (c.onKiln d f).free = c.free := by
  cases d <;> rfl
@[simp] theorem Chip.die_onCask (c : Chip) (d : DieId) (f : Cask → Cask) :
    (c.onCask d f).die d = { c.die d with cask := f (c.die d).cask } := by cases d <;> rfl
@[simp] theorem Chip.variant_onCask (c : Chip) (d : DieId) (f : Cask → Cask) : (c.onCask d f).variant = c.variant := by
  cases d <;> rfl
@[simp] theorem Chip.now_onCask (c : Chip) (d : DieId) (f : Cask → Cask) : (c.onCask d f).now = c.now := by
  cases d <;> rfl
@[simp] theorem Chip.time_onCask (c : Chip) (d : DieId) (f : Cask → Cask) : (c.onCask d f).time = c.time := by
  cases d <;> rfl
@[simp] theorem Chip.inc_onCask (c : Chip) (d : DieId) (f : Cask → Cask) : (c.onCask d f).inc = c.inc := by
  cases d <;> rfl
@[simp] theorem Chip.evune_onCask (c : Chip) (d : DieId) (f : Cask → Cask) : (c.onCask d f).evune = c.evune := by
  cases d <;> rfl
@[simp] theorem Chip.ptp_onCask (c : Chip) (d : DieId) (f : Cask → Cask) : (c.onCask d f).ptp = c.ptp := by
  cases d <;> rfl
@[simp] theorem Chip.chans_onCask (c : Chip) (d : DieId) (f : Cask → Cask) : (c.onCask d f).chans = c.chans := by
  cases d <;> rfl
@[simp] theorem Chip.sched_onCask (c : Chip) (d : DieId) (f : Cask → Cask) : (c.onCask d f).sched = c.sched := by
  cases d <;> rfl
@[simp] theorem Chip.defl_onCask (c : Chip) (d : DieId) (f : Cask → Cask) : (c.onCask d f).defl = c.defl := by
  cases d <;> rfl
@[simp] theorem Chip.axis0_onCask (c : Chip) (d : DieId) (f : Cask → Cask) : (c.onCask d f).axis0 = c.axis0 := by
  cases d <;> rfl
@[simp] theorem Chip.axis1_onCask (c : Chip) (d : DieId) (f : Cask → Cask) : (c.onCask d f).axis1 = c.axis1 := by
  cases d <;> rfl
@[simp] theorem Chip.cfg_onCask (c : Chip) (d : DieId) (f : Cask → Cask) : (c.onCask d f).cfg = c.cfg := by
  cases d <;> rfl
@[simp] theorem Chip.nv_onCask (c : Chip) (d : DieId) (f : Cask → Cask) : (c.onCask d f).nv = c.nv := by
  cases d <;> rfl
@[simp] theorem Chip.ownId_onCask (c : Chip) (d : DieId) (f : Cask → Cask) : (c.onCask d f).ownId = c.ownId := by
  cases d <;> rfl
@[simp] theorem Chip.memberGates_onCask (c : Chip) (d : DieId) (f : Cask → Cask) : (c.onCask d f).memberGates = c.memberGates := by
  cases d <;> rfl
@[simp] theorem Chip.herd_onCask (c : Chip) (d : DieId) (f : Cask → Cask) : (c.onCask d f).herd = c.herd := by
  cases d <;> rfl
@[simp] theorem Chip.cal_onCask (c : Chip) (d : DieId) (f : Cask → Cask) : (c.onCask d f).cal = c.cal := by
  cases d <;> rfl
@[simp] theorem Chip.pwr_onCask (c : Chip) (d : DieId) (f : Cask → Cask) : (c.onCask d f).pwr = c.pwr := by
  cases d <;> rfl
@[simp] theorem Chip.start_onCask (c : Chip) (d : DieId) (f : Cask → Cask) : (c.onCask d f).start = c.start := by
  cases d <;> rfl
@[simp] theorem Chip.out_onCask (c : Chip) (d : DieId) (f : Cask → Cask) : (c.onCask d f).out = c.out := by
  cases d <;> rfl
@[simp] theorem Chip.free_onCask (c : Chip) (d : DieId) (f : Cask → Cask) : (c.onCask d f).free = c.free := by
  cases d <;> rfl
@[simp] theorem Chip.die_onBlnk (c : Chip) (d : DieId) (f : Blnk → Blnk) :
    (c.onBlnk d f).die d = { c.die d with blnk := f (c.die d).blnk } := by cases d <;> rfl
@[simp] theorem Chip.variant_onBlnk (c : Chip) (d : DieId) (f : Blnk → Blnk) : (c.onBlnk d f).variant = c.variant := by
  cases d <;> rfl
@[simp] theorem Chip.now_onBlnk (c : Chip) (d : DieId) (f : Blnk → Blnk) : (c.onBlnk d f).now = c.now := by
  cases d <;> rfl
@[simp] theorem Chip.time_onBlnk (c : Chip) (d : DieId) (f : Blnk → Blnk) : (c.onBlnk d f).time = c.time := by
  cases d <;> rfl
@[simp] theorem Chip.inc_onBlnk (c : Chip) (d : DieId) (f : Blnk → Blnk) : (c.onBlnk d f).inc = c.inc := by
  cases d <;> rfl
@[simp] theorem Chip.evune_onBlnk (c : Chip) (d : DieId) (f : Blnk → Blnk) : (c.onBlnk d f).evune = c.evune := by
  cases d <;> rfl
@[simp] theorem Chip.ptp_onBlnk (c : Chip) (d : DieId) (f : Blnk → Blnk) : (c.onBlnk d f).ptp = c.ptp := by
  cases d <;> rfl
@[simp] theorem Chip.chans_onBlnk (c : Chip) (d : DieId) (f : Blnk → Blnk) : (c.onBlnk d f).chans = c.chans := by
  cases d <;> rfl
@[simp] theorem Chip.sched_onBlnk (c : Chip) (d : DieId) (f : Blnk → Blnk) : (c.onBlnk d f).sched = c.sched := by
  cases d <;> rfl
@[simp] theorem Chip.defl_onBlnk (c : Chip) (d : DieId) (f : Blnk → Blnk) : (c.onBlnk d f).defl = c.defl := by
  cases d <;> rfl
@[simp] theorem Chip.axis0_onBlnk (c : Chip) (d : DieId) (f : Blnk → Blnk) : (c.onBlnk d f).axis0 = c.axis0 := by
  cases d <;> rfl
@[simp] theorem Chip.axis1_onBlnk (c : Chip) (d : DieId) (f : Blnk → Blnk) : (c.onBlnk d f).axis1 = c.axis1 := by
  cases d <;> rfl
@[simp] theorem Chip.cfg_onBlnk (c : Chip) (d : DieId) (f : Blnk → Blnk) : (c.onBlnk d f).cfg = c.cfg := by
  cases d <;> rfl
@[simp] theorem Chip.nv_onBlnk (c : Chip) (d : DieId) (f : Blnk → Blnk) : (c.onBlnk d f).nv = c.nv := by
  cases d <;> rfl
@[simp] theorem Chip.ownId_onBlnk (c : Chip) (d : DieId) (f : Blnk → Blnk) : (c.onBlnk d f).ownId = c.ownId := by
  cases d <;> rfl
@[simp] theorem Chip.memberGates_onBlnk (c : Chip) (d : DieId) (f : Blnk → Blnk) : (c.onBlnk d f).memberGates = c.memberGates := by
  cases d <;> rfl
@[simp] theorem Chip.herd_onBlnk (c : Chip) (d : DieId) (f : Blnk → Blnk) : (c.onBlnk d f).herd = c.herd := by
  cases d <;> rfl
@[simp] theorem Chip.cal_onBlnk (c : Chip) (d : DieId) (f : Blnk → Blnk) : (c.onBlnk d f).cal = c.cal := by
  cases d <;> rfl
@[simp] theorem Chip.pwr_onBlnk (c : Chip) (d : DieId) (f : Blnk → Blnk) : (c.onBlnk d f).pwr = c.pwr := by
  cases d <;> rfl
@[simp] theorem Chip.start_onBlnk (c : Chip) (d : DieId) (f : Blnk → Blnk) : (c.onBlnk d f).start = c.start := by
  cases d <;> rfl
@[simp] theorem Chip.out_onBlnk (c : Chip) (d : DieId) (f : Blnk → Blnk) : (c.onBlnk d f).out = c.out := by
  cases d <;> rfl
@[simp] theorem Chip.free_onBlnk (c : Chip) (d : DieId) (f : Blnk → Blnk) : (c.onBlnk d f).free = c.free := by
  cases d <;> rfl
@[simp] theorem Chip.die_onDram (c : Chip) (d : DieId) (f : DramCtl → DramCtl) :
    (c.onDram d f).die d = { c.die d with dram := f (c.die d).dram } := by cases d <;> rfl
@[simp] theorem Chip.variant_onDram (c : Chip) (d : DieId) (f : DramCtl → DramCtl) : (c.onDram d f).variant = c.variant := by
  cases d <;> rfl
@[simp] theorem Chip.now_onDram (c : Chip) (d : DieId) (f : DramCtl → DramCtl) : (c.onDram d f).now = c.now := by
  cases d <;> rfl
@[simp] theorem Chip.time_onDram (c : Chip) (d : DieId) (f : DramCtl → DramCtl) : (c.onDram d f).time = c.time := by
  cases d <;> rfl
@[simp] theorem Chip.inc_onDram (c : Chip) (d : DieId) (f : DramCtl → DramCtl) : (c.onDram d f).inc = c.inc := by
  cases d <;> rfl
@[simp] theorem Chip.evune_onDram (c : Chip) (d : DieId) (f : DramCtl → DramCtl) : (c.onDram d f).evune = c.evune := by
  cases d <;> rfl
@[simp] theorem Chip.ptp_onDram (c : Chip) (d : DieId) (f : DramCtl → DramCtl) : (c.onDram d f).ptp = c.ptp := by
  cases d <;> rfl
@[simp] theorem Chip.chans_onDram (c : Chip) (d : DieId) (f : DramCtl → DramCtl) : (c.onDram d f).chans = c.chans := by
  cases d <;> rfl
@[simp] theorem Chip.sched_onDram (c : Chip) (d : DieId) (f : DramCtl → DramCtl) : (c.onDram d f).sched = c.sched := by
  cases d <;> rfl
@[simp] theorem Chip.defl_onDram (c : Chip) (d : DieId) (f : DramCtl → DramCtl) : (c.onDram d f).defl = c.defl := by
  cases d <;> rfl
@[simp] theorem Chip.axis0_onDram (c : Chip) (d : DieId) (f : DramCtl → DramCtl) : (c.onDram d f).axis0 = c.axis0 := by
  cases d <;> rfl
@[simp] theorem Chip.axis1_onDram (c : Chip) (d : DieId) (f : DramCtl → DramCtl) : (c.onDram d f).axis1 = c.axis1 := by
  cases d <;> rfl
@[simp] theorem Chip.cfg_onDram (c : Chip) (d : DieId) (f : DramCtl → DramCtl) : (c.onDram d f).cfg = c.cfg := by
  cases d <;> rfl
@[simp] theorem Chip.nv_onDram (c : Chip) (d : DieId) (f : DramCtl → DramCtl) : (c.onDram d f).nv = c.nv := by
  cases d <;> rfl
@[simp] theorem Chip.ownId_onDram (c : Chip) (d : DieId) (f : DramCtl → DramCtl) : (c.onDram d f).ownId = c.ownId := by
  cases d <;> rfl
@[simp] theorem Chip.memberGates_onDram (c : Chip) (d : DieId) (f : DramCtl → DramCtl) : (c.onDram d f).memberGates = c.memberGates := by
  cases d <;> rfl
@[simp] theorem Chip.herd_onDram (c : Chip) (d : DieId) (f : DramCtl → DramCtl) : (c.onDram d f).herd = c.herd := by
  cases d <;> rfl
@[simp] theorem Chip.cal_onDram (c : Chip) (d : DieId) (f : DramCtl → DramCtl) : (c.onDram d f).cal = c.cal := by
  cases d <;> rfl
@[simp] theorem Chip.pwr_onDram (c : Chip) (d : DieId) (f : DramCtl → DramCtl) : (c.onDram d f).pwr = c.pwr := by
  cases d <;> rfl
@[simp] theorem Chip.start_onDram (c : Chip) (d : DieId) (f : DramCtl → DramCtl) : (c.onDram d f).start = c.start := by
  cases d <;> rfl
@[simp] theorem Chip.out_onDram (c : Chip) (d : DieId) (f : DramCtl → DramCtl) : (c.onDram d f).out = c.out := by
  cases d <;> rfl
@[simp] theorem Chip.free_onDram (c : Chip) (d : DieId) (f : DramCtl → DramCtl) : (c.onDram d f).free = c.free := by
  cases d <;> rfl
@[simp] theorem Chip.die_onIlk (c : Chip) (d : DieId) (f : Ilk → Ilk) :
    (c.onIlk d f).die d = { c.die d with ilk := f (c.die d).ilk } := by cases d <;> rfl
@[simp] theorem Chip.variant_onIlk (c : Chip) (d : DieId) (f : Ilk → Ilk) : (c.onIlk d f).variant = c.variant := by
  cases d <;> rfl
@[simp] theorem Chip.now_onIlk (c : Chip) (d : DieId) (f : Ilk → Ilk) : (c.onIlk d f).now = c.now := by
  cases d <;> rfl
@[simp] theorem Chip.time_onIlk (c : Chip) (d : DieId) (f : Ilk → Ilk) : (c.onIlk d f).time = c.time := by
  cases d <;> rfl
@[simp] theorem Chip.inc_onIlk (c : Chip) (d : DieId) (f : Ilk → Ilk) : (c.onIlk d f).inc = c.inc := by
  cases d <;> rfl
@[simp] theorem Chip.evune_onIlk (c : Chip) (d : DieId) (f : Ilk → Ilk) : (c.onIlk d f).evune = c.evune := by
  cases d <;> rfl
@[simp] theorem Chip.ptp_onIlk (c : Chip) (d : DieId) (f : Ilk → Ilk) : (c.onIlk d f).ptp = c.ptp := by
  cases d <;> rfl
@[simp] theorem Chip.chans_onIlk (c : Chip) (d : DieId) (f : Ilk → Ilk) : (c.onIlk d f).chans = c.chans := by
  cases d <;> rfl
@[simp] theorem Chip.sched_onIlk (c : Chip) (d : DieId) (f : Ilk → Ilk) : (c.onIlk d f).sched = c.sched := by
  cases d <;> rfl
@[simp] theorem Chip.defl_onIlk (c : Chip) (d : DieId) (f : Ilk → Ilk) : (c.onIlk d f).defl = c.defl := by
  cases d <;> rfl
@[simp] theorem Chip.axis0_onIlk (c : Chip) (d : DieId) (f : Ilk → Ilk) : (c.onIlk d f).axis0 = c.axis0 := by
  cases d <;> rfl
@[simp] theorem Chip.axis1_onIlk (c : Chip) (d : DieId) (f : Ilk → Ilk) : (c.onIlk d f).axis1 = c.axis1 := by
  cases d <;> rfl
@[simp] theorem Chip.cfg_onIlk (c : Chip) (d : DieId) (f : Ilk → Ilk) : (c.onIlk d f).cfg = c.cfg := by
  cases d <;> rfl
@[simp] theorem Chip.nv_onIlk (c : Chip) (d : DieId) (f : Ilk → Ilk) : (c.onIlk d f).nv = c.nv := by
  cases d <;> rfl
@[simp] theorem Chip.ownId_onIlk (c : Chip) (d : DieId) (f : Ilk → Ilk) : (c.onIlk d f).ownId = c.ownId := by
  cases d <;> rfl
@[simp] theorem Chip.memberGates_onIlk (c : Chip) (d : DieId) (f : Ilk → Ilk) : (c.onIlk d f).memberGates = c.memberGates := by
  cases d <;> rfl
@[simp] theorem Chip.herd_onIlk (c : Chip) (d : DieId) (f : Ilk → Ilk) : (c.onIlk d f).herd = c.herd := by
  cases d <;> rfl
@[simp] theorem Chip.cal_onIlk (c : Chip) (d : DieId) (f : Ilk → Ilk) : (c.onIlk d f).cal = c.cal := by
  cases d <;> rfl
@[simp] theorem Chip.pwr_onIlk (c : Chip) (d : DieId) (f : Ilk → Ilk) : (c.onIlk d f).pwr = c.pwr := by
  cases d <;> rfl
@[simp] theorem Chip.start_onIlk (c : Chip) (d : DieId) (f : Ilk → Ilk) : (c.onIlk d f).start = c.start := by
  cases d <;> rfl
@[simp] theorem Chip.out_onIlk (c : Chip) (d : DieId) (f : Ilk → Ilk) : (c.onIlk d f).out = c.out := by
  cases d <;> rfl
@[simp] theorem Chip.free_onIlk (c : Chip) (d : DieId) (f : Ilk → Ilk) : (c.onIlk d f).free = c.free := by
  cases d <;> rfl
@[simp] theorem Chip.die_onJlog (c : Chip) (d : DieId) (f : JobLog → JobLog) :
    (c.onJlog d f).die d = { c.die d with jlog := f (c.die d).jlog } := by cases d <;> rfl
@[simp] theorem Chip.variant_onJlog (c : Chip) (d : DieId) (f : JobLog → JobLog) : (c.onJlog d f).variant = c.variant := by
  cases d <;> rfl
@[simp] theorem Chip.now_onJlog (c : Chip) (d : DieId) (f : JobLog → JobLog) : (c.onJlog d f).now = c.now := by
  cases d <;> rfl
@[simp] theorem Chip.time_onJlog (c : Chip) (d : DieId) (f : JobLog → JobLog) : (c.onJlog d f).time = c.time := by
  cases d <;> rfl
@[simp] theorem Chip.inc_onJlog (c : Chip) (d : DieId) (f : JobLog → JobLog) : (c.onJlog d f).inc = c.inc := by
  cases d <;> rfl
@[simp] theorem Chip.evune_onJlog (c : Chip) (d : DieId) (f : JobLog → JobLog) : (c.onJlog d f).evune = c.evune := by
  cases d <;> rfl
@[simp] theorem Chip.ptp_onJlog (c : Chip) (d : DieId) (f : JobLog → JobLog) : (c.onJlog d f).ptp = c.ptp := by
  cases d <;> rfl
@[simp] theorem Chip.chans_onJlog (c : Chip) (d : DieId) (f : JobLog → JobLog) : (c.onJlog d f).chans = c.chans := by
  cases d <;> rfl
@[simp] theorem Chip.sched_onJlog (c : Chip) (d : DieId) (f : JobLog → JobLog) : (c.onJlog d f).sched = c.sched := by
  cases d <;> rfl
@[simp] theorem Chip.defl_onJlog (c : Chip) (d : DieId) (f : JobLog → JobLog) : (c.onJlog d f).defl = c.defl := by
  cases d <;> rfl
@[simp] theorem Chip.axis0_onJlog (c : Chip) (d : DieId) (f : JobLog → JobLog) : (c.onJlog d f).axis0 = c.axis0 := by
  cases d <;> rfl
@[simp] theorem Chip.axis1_onJlog (c : Chip) (d : DieId) (f : JobLog → JobLog) : (c.onJlog d f).axis1 = c.axis1 := by
  cases d <;> rfl
@[simp] theorem Chip.cfg_onJlog (c : Chip) (d : DieId) (f : JobLog → JobLog) : (c.onJlog d f).cfg = c.cfg := by
  cases d <;> rfl
@[simp] theorem Chip.nv_onJlog (c : Chip) (d : DieId) (f : JobLog → JobLog) : (c.onJlog d f).nv = c.nv := by
  cases d <;> rfl
@[simp] theorem Chip.ownId_onJlog (c : Chip) (d : DieId) (f : JobLog → JobLog) : (c.onJlog d f).ownId = c.ownId := by
  cases d <;> rfl
@[simp] theorem Chip.memberGates_onJlog (c : Chip) (d : DieId) (f : JobLog → JobLog) : (c.onJlog d f).memberGates = c.memberGates := by
  cases d <;> rfl
@[simp] theorem Chip.herd_onJlog (c : Chip) (d : DieId) (f : JobLog → JobLog) : (c.onJlog d f).herd = c.herd := by
  cases d <;> rfl
@[simp] theorem Chip.cal_onJlog (c : Chip) (d : DieId) (f : JobLog → JobLog) : (c.onJlog d f).cal = c.cal := by
  cases d <;> rfl
@[simp] theorem Chip.pwr_onJlog (c : Chip) (d : DieId) (f : JobLog → JobLog) : (c.onJlog d f).pwr = c.pwr := by
  cases d <;> rfl
@[simp] theorem Chip.start_onJlog (c : Chip) (d : DieId) (f : JobLog → JobLog) : (c.onJlog d f).start = c.start := by
  cases d <;> rfl
@[simp] theorem Chip.out_onJlog (c : Chip) (d : DieId) (f : JobLog → JobLog) : (c.onJlog d f).out = c.out := by
  cases d <;> rfl
@[simp] theorem Chip.free_onJlog (c : Chip) (d : DieId) (f : JobLog → JobLog) : (c.onJlog d f).free = c.free := by
  cases d <;> rfl
@[simp] theorem Chip.die_onLaneCal (c : Chip) (d : DieId) (f : LaneCal → LaneCal) :
    (c.onLaneCal d f).die d = { c.die d with laneCal := f (c.die d).laneCal } := by cases d <;> rfl
@[simp] theorem Chip.variant_onLaneCal (c : Chip) (d : DieId) (f : LaneCal → LaneCal) : (c.onLaneCal d f).variant = c.variant := by
  cases d <;> rfl
@[simp] theorem Chip.now_onLaneCal (c : Chip) (d : DieId) (f : LaneCal → LaneCal) : (c.onLaneCal d f).now = c.now := by
  cases d <;> rfl
@[simp] theorem Chip.time_onLaneCal (c : Chip) (d : DieId) (f : LaneCal → LaneCal) : (c.onLaneCal d f).time = c.time := by
  cases d <;> rfl
@[simp] theorem Chip.inc_onLaneCal (c : Chip) (d : DieId) (f : LaneCal → LaneCal) : (c.onLaneCal d f).inc = c.inc := by
  cases d <;> rfl
@[simp] theorem Chip.evune_onLaneCal (c : Chip) (d : DieId) (f : LaneCal → LaneCal) : (c.onLaneCal d f).evune = c.evune := by
  cases d <;> rfl
@[simp] theorem Chip.ptp_onLaneCal (c : Chip) (d : DieId) (f : LaneCal → LaneCal) : (c.onLaneCal d f).ptp = c.ptp := by
  cases d <;> rfl
@[simp] theorem Chip.chans_onLaneCal (c : Chip) (d : DieId) (f : LaneCal → LaneCal) : (c.onLaneCal d f).chans = c.chans := by
  cases d <;> rfl
@[simp] theorem Chip.sched_onLaneCal (c : Chip) (d : DieId) (f : LaneCal → LaneCal) : (c.onLaneCal d f).sched = c.sched := by
  cases d <;> rfl
@[simp] theorem Chip.defl_onLaneCal (c : Chip) (d : DieId) (f : LaneCal → LaneCal) : (c.onLaneCal d f).defl = c.defl := by
  cases d <;> rfl
@[simp] theorem Chip.axis0_onLaneCal (c : Chip) (d : DieId) (f : LaneCal → LaneCal) : (c.onLaneCal d f).axis0 = c.axis0 := by
  cases d <;> rfl
@[simp] theorem Chip.axis1_onLaneCal (c : Chip) (d : DieId) (f : LaneCal → LaneCal) : (c.onLaneCal d f).axis1 = c.axis1 := by
  cases d <;> rfl
@[simp] theorem Chip.cfg_onLaneCal (c : Chip) (d : DieId) (f : LaneCal → LaneCal) : (c.onLaneCal d f).cfg = c.cfg := by
  cases d <;> rfl
@[simp] theorem Chip.nv_onLaneCal (c : Chip) (d : DieId) (f : LaneCal → LaneCal) : (c.onLaneCal d f).nv = c.nv := by
  cases d <;> rfl
@[simp] theorem Chip.ownId_onLaneCal (c : Chip) (d : DieId) (f : LaneCal → LaneCal) : (c.onLaneCal d f).ownId = c.ownId := by
  cases d <;> rfl
@[simp] theorem Chip.memberGates_onLaneCal (c : Chip) (d : DieId) (f : LaneCal → LaneCal) : (c.onLaneCal d f).memberGates = c.memberGates := by
  cases d <;> rfl
@[simp] theorem Chip.herd_onLaneCal (c : Chip) (d : DieId) (f : LaneCal → LaneCal) : (c.onLaneCal d f).herd = c.herd := by
  cases d <;> rfl
@[simp] theorem Chip.cal_onLaneCal (c : Chip) (d : DieId) (f : LaneCal → LaneCal) : (c.onLaneCal d f).cal = c.cal := by
  cases d <;> rfl
@[simp] theorem Chip.pwr_onLaneCal (c : Chip) (d : DieId) (f : LaneCal → LaneCal) : (c.onLaneCal d f).pwr = c.pwr := by
  cases d <;> rfl
@[simp] theorem Chip.start_onLaneCal (c : Chip) (d : DieId) (f : LaneCal → LaneCal) : (c.onLaneCal d f).start = c.start := by
  cases d <;> rfl
@[simp] theorem Chip.out_onLaneCal (c : Chip) (d : DieId) (f : LaneCal → LaneCal) : (c.onLaneCal d f).out = c.out := by
  cases d <;> rfl
@[simp] theorem Chip.free_onLaneCal (c : Chip) (d : DieId) (f : LaneCal → LaneCal) : (c.onLaneCal d f).free = c.free := by
  cases d <;> rfl

/-! ### Units of the module -/

@[simp] theorem Chip.sched_onSched (c : Chip) (f : Sched → Sched) : (c.onSched f).sched = f c.sched := rfl
@[simp] theorem Chip.die_onSched (c : Chip) (d : DieId) (f : Sched → Sched) : (c.onSched f).die d = c.die d := by cases d <;> rfl
@[simp] theorem Chip.variant_onSched (c : Chip) (f : Sched → Sched) : (c.onSched f).variant = c.variant := rfl
@[simp] theorem Chip.now_onSched (c : Chip) (f : Sched → Sched) : (c.onSched f).now = c.now := rfl
@[simp] theorem Chip.time_onSched (c : Chip) (f : Sched → Sched) : (c.onSched f).time = c.time := rfl
@[simp] theorem Chip.inc_onSched (c : Chip) (f : Sched → Sched) : (c.onSched f).inc = c.inc := rfl
@[simp] theorem Chip.evune_onSched (c : Chip) (f : Sched → Sched) : (c.onSched f).evune = c.evune := rfl
@[simp] theorem Chip.ptp_onSched (c : Chip) (f : Sched → Sched) : (c.onSched f).ptp = c.ptp := rfl
@[simp] theorem Chip.chans_onSched (c : Chip) (f : Sched → Sched) : (c.onSched f).chans = c.chans := rfl
@[simp] theorem Chip.defl_onSched (c : Chip) (f : Sched → Sched) : (c.onSched f).defl = c.defl := rfl
@[simp] theorem Chip.axis0_onSched (c : Chip) (f : Sched → Sched) : (c.onSched f).axis0 = c.axis0 := rfl
@[simp] theorem Chip.axis1_onSched (c : Chip) (f : Sched → Sched) : (c.onSched f).axis1 = c.axis1 := rfl
@[simp] theorem Chip.cfg_onSched (c : Chip) (f : Sched → Sched) : (c.onSched f).cfg = c.cfg := rfl
@[simp] theorem Chip.nv_onSched (c : Chip) (f : Sched → Sched) : (c.onSched f).nv = c.nv := rfl
@[simp] theorem Chip.ownId_onSched (c : Chip) (f : Sched → Sched) : (c.onSched f).ownId = c.ownId := rfl
@[simp] theorem Chip.memberGates_onSched (c : Chip) (f : Sched → Sched) : (c.onSched f).memberGates = c.memberGates := rfl
@[simp] theorem Chip.herd_onSched (c : Chip) (f : Sched → Sched) : (c.onSched f).herd = c.herd := rfl
@[simp] theorem Chip.cal_onSched (c : Chip) (f : Sched → Sched) : (c.onSched f).cal = c.cal := rfl
@[simp] theorem Chip.pwr_onSched (c : Chip) (f : Sched → Sched) : (c.onSched f).pwr = c.pwr := rfl
@[simp] theorem Chip.w_onSched (c : Chip) (f : Sched → Sched) : (c.onSched f).w = c.w := rfl
@[simp] theorem Chip.e_onSched (c : Chip) (f : Sched → Sched) : (c.onSched f).e = c.e := rfl
@[simp] theorem Chip.start_onSched (c : Chip) (f : Sched → Sched) : (c.onSched f).start = c.start := rfl
@[simp] theorem Chip.out_onSched (c : Chip) (f : Sched → Sched) : (c.onSched f).out = c.out := rfl
@[simp] theorem Chip.free_onSched (c : Chip) (f : Sched → Sched) : (c.onSched f).free = c.free := rfl
@[simp] theorem Chip.cfg_onCfg (c : Chip) (f : Cfg → Cfg) : (c.onCfg f).cfg = f c.cfg := rfl
@[simp] theorem Chip.die_onCfg (c : Chip) (d : DieId) (f : Cfg → Cfg) : (c.onCfg f).die d = c.die d := by cases d <;> rfl
@[simp] theorem Chip.variant_onCfg (c : Chip) (f : Cfg → Cfg) : (c.onCfg f).variant = c.variant := rfl
@[simp] theorem Chip.now_onCfg (c : Chip) (f : Cfg → Cfg) : (c.onCfg f).now = c.now := rfl
@[simp] theorem Chip.time_onCfg (c : Chip) (f : Cfg → Cfg) : (c.onCfg f).time = c.time := rfl
@[simp] theorem Chip.inc_onCfg (c : Chip) (f : Cfg → Cfg) : (c.onCfg f).inc = c.inc := rfl
@[simp] theorem Chip.evune_onCfg (c : Chip) (f : Cfg → Cfg) : (c.onCfg f).evune = c.evune := rfl
@[simp] theorem Chip.ptp_onCfg (c : Chip) (f : Cfg → Cfg) : (c.onCfg f).ptp = c.ptp := rfl
@[simp] theorem Chip.chans_onCfg (c : Chip) (f : Cfg → Cfg) : (c.onCfg f).chans = c.chans := rfl
@[simp] theorem Chip.sched_onCfg (c : Chip) (f : Cfg → Cfg) : (c.onCfg f).sched = c.sched := rfl
@[simp] theorem Chip.defl_onCfg (c : Chip) (f : Cfg → Cfg) : (c.onCfg f).defl = c.defl := rfl
@[simp] theorem Chip.axis0_onCfg (c : Chip) (f : Cfg → Cfg) : (c.onCfg f).axis0 = c.axis0 := rfl
@[simp] theorem Chip.axis1_onCfg (c : Chip) (f : Cfg → Cfg) : (c.onCfg f).axis1 = c.axis1 := rfl
@[simp] theorem Chip.nv_onCfg (c : Chip) (f : Cfg → Cfg) : (c.onCfg f).nv = c.nv := rfl
@[simp] theorem Chip.ownId_onCfg (c : Chip) (f : Cfg → Cfg) : (c.onCfg f).ownId = c.ownId := rfl
@[simp] theorem Chip.memberGates_onCfg (c : Chip) (f : Cfg → Cfg) : (c.onCfg f).memberGates = c.memberGates := rfl
@[simp] theorem Chip.herd_onCfg (c : Chip) (f : Cfg → Cfg) : (c.onCfg f).herd = c.herd := rfl
@[simp] theorem Chip.cal_onCfg (c : Chip) (f : Cfg → Cfg) : (c.onCfg f).cal = c.cal := rfl
@[simp] theorem Chip.pwr_onCfg (c : Chip) (f : Cfg → Cfg) : (c.onCfg f).pwr = c.pwr := rfl
@[simp] theorem Chip.w_onCfg (c : Chip) (f : Cfg → Cfg) : (c.onCfg f).w = c.w := rfl
@[simp] theorem Chip.e_onCfg (c : Chip) (f : Cfg → Cfg) : (c.onCfg f).e = c.e := rfl
@[simp] theorem Chip.start_onCfg (c : Chip) (f : Cfg → Cfg) : (c.onCfg f).start = c.start := rfl
@[simp] theorem Chip.out_onCfg (c : Chip) (f : Cfg → Cfg) : (c.onCfg f).out = c.out := rfl
@[simp] theorem Chip.free_onCfg (c : Chip) (f : Cfg → Cfg) : (c.onCfg f).free = c.free := rfl
@[simp] theorem Chip.herd_onHerd (c : Chip) (f : Herd → Herd) : (c.onHerd f).herd = f c.herd := rfl
@[simp] theorem Chip.die_onHerd (c : Chip) (d : DieId) (f : Herd → Herd) : (c.onHerd f).die d = c.die d := by cases d <;> rfl
@[simp] theorem Chip.variant_onHerd (c : Chip) (f : Herd → Herd) : (c.onHerd f).variant = c.variant := rfl
@[simp] theorem Chip.now_onHerd (c : Chip) (f : Herd → Herd) : (c.onHerd f).now = c.now := rfl
@[simp] theorem Chip.time_onHerd (c : Chip) (f : Herd → Herd) : (c.onHerd f).time = c.time := rfl
@[simp] theorem Chip.inc_onHerd (c : Chip) (f : Herd → Herd) : (c.onHerd f).inc = c.inc := rfl
@[simp] theorem Chip.evune_onHerd (c : Chip) (f : Herd → Herd) : (c.onHerd f).evune = c.evune := rfl
@[simp] theorem Chip.ptp_onHerd (c : Chip) (f : Herd → Herd) : (c.onHerd f).ptp = c.ptp := rfl
@[simp] theorem Chip.chans_onHerd (c : Chip) (f : Herd → Herd) : (c.onHerd f).chans = c.chans := rfl
@[simp] theorem Chip.sched_onHerd (c : Chip) (f : Herd → Herd) : (c.onHerd f).sched = c.sched := rfl
@[simp] theorem Chip.defl_onHerd (c : Chip) (f : Herd → Herd) : (c.onHerd f).defl = c.defl := rfl
@[simp] theorem Chip.axis0_onHerd (c : Chip) (f : Herd → Herd) : (c.onHerd f).axis0 = c.axis0 := rfl
@[simp] theorem Chip.axis1_onHerd (c : Chip) (f : Herd → Herd) : (c.onHerd f).axis1 = c.axis1 := rfl
@[simp] theorem Chip.cfg_onHerd (c : Chip) (f : Herd → Herd) : (c.onHerd f).cfg = c.cfg := rfl
@[simp] theorem Chip.nv_onHerd (c : Chip) (f : Herd → Herd) : (c.onHerd f).nv = c.nv := rfl
@[simp] theorem Chip.ownId_onHerd (c : Chip) (f : Herd → Herd) : (c.onHerd f).ownId = c.ownId := rfl
@[simp] theorem Chip.memberGates_onHerd (c : Chip) (f : Herd → Herd) : (c.onHerd f).memberGates = c.memberGates := rfl
@[simp] theorem Chip.cal_onHerd (c : Chip) (f : Herd → Herd) : (c.onHerd f).cal = c.cal := rfl
@[simp] theorem Chip.pwr_onHerd (c : Chip) (f : Herd → Herd) : (c.onHerd f).pwr = c.pwr := rfl
@[simp] theorem Chip.w_onHerd (c : Chip) (f : Herd → Herd) : (c.onHerd f).w = c.w := rfl
@[simp] theorem Chip.e_onHerd (c : Chip) (f : Herd → Herd) : (c.onHerd f).e = c.e := rfl
@[simp] theorem Chip.start_onHerd (c : Chip) (f : Herd → Herd) : (c.onHerd f).start = c.start := rfl
@[simp] theorem Chip.out_onHerd (c : Chip) (f : Herd → Herd) : (c.onHerd f).out = c.out := rfl
@[simp] theorem Chip.free_onHerd (c : Chip) (f : Herd → Herd) : (c.onHerd f).free = c.free := rfl
@[simp] theorem Chip.cal_onCal (c : Chip) (f : Cal → Cal) : (c.onCal f).cal = f c.cal := rfl
@[simp] theorem Chip.die_onCal (c : Chip) (d : DieId) (f : Cal → Cal) : (c.onCal f).die d = c.die d := by cases d <;> rfl
@[simp] theorem Chip.variant_onCal (c : Chip) (f : Cal → Cal) : (c.onCal f).variant = c.variant := rfl
@[simp] theorem Chip.now_onCal (c : Chip) (f : Cal → Cal) : (c.onCal f).now = c.now := rfl
@[simp] theorem Chip.time_onCal (c : Chip) (f : Cal → Cal) : (c.onCal f).time = c.time := rfl
@[simp] theorem Chip.inc_onCal (c : Chip) (f : Cal → Cal) : (c.onCal f).inc = c.inc := rfl
@[simp] theorem Chip.evune_onCal (c : Chip) (f : Cal → Cal) : (c.onCal f).evune = c.evune := rfl
@[simp] theorem Chip.ptp_onCal (c : Chip) (f : Cal → Cal) : (c.onCal f).ptp = c.ptp := rfl
@[simp] theorem Chip.chans_onCal (c : Chip) (f : Cal → Cal) : (c.onCal f).chans = c.chans := rfl
@[simp] theorem Chip.sched_onCal (c : Chip) (f : Cal → Cal) : (c.onCal f).sched = c.sched := rfl
@[simp] theorem Chip.defl_onCal (c : Chip) (f : Cal → Cal) : (c.onCal f).defl = c.defl := rfl
@[simp] theorem Chip.axis0_onCal (c : Chip) (f : Cal → Cal) : (c.onCal f).axis0 = c.axis0 := rfl
@[simp] theorem Chip.axis1_onCal (c : Chip) (f : Cal → Cal) : (c.onCal f).axis1 = c.axis1 := rfl
@[simp] theorem Chip.cfg_onCal (c : Chip) (f : Cal → Cal) : (c.onCal f).cfg = c.cfg := rfl
@[simp] theorem Chip.nv_onCal (c : Chip) (f : Cal → Cal) : (c.onCal f).nv = c.nv := rfl
@[simp] theorem Chip.ownId_onCal (c : Chip) (f : Cal → Cal) : (c.onCal f).ownId = c.ownId := rfl
@[simp] theorem Chip.memberGates_onCal (c : Chip) (f : Cal → Cal) : (c.onCal f).memberGates = c.memberGates := rfl
@[simp] theorem Chip.herd_onCal (c : Chip) (f : Cal → Cal) : (c.onCal f).herd = c.herd := rfl
@[simp] theorem Chip.pwr_onCal (c : Chip) (f : Cal → Cal) : (c.onCal f).pwr = c.pwr := rfl
@[simp] theorem Chip.w_onCal (c : Chip) (f : Cal → Cal) : (c.onCal f).w = c.w := rfl
@[simp] theorem Chip.e_onCal (c : Chip) (f : Cal → Cal) : (c.onCal f).e = c.e := rfl
@[simp] theorem Chip.start_onCal (c : Chip) (f : Cal → Cal) : (c.onCal f).start = c.start := rfl
@[simp] theorem Chip.out_onCal (c : Chip) (f : Cal → Cal) : (c.onCal f).out = c.out := rfl
@[simp] theorem Chip.free_onCal (c : Chip) (f : Cal → Cal) : (c.onCal f).free = c.free := rfl
@[simp] theorem Chip.pwr_onPwr (c : Chip) (f : Pwr → Pwr) : (c.onPwr f).pwr = f c.pwr := rfl
@[simp] theorem Chip.die_onPwr (c : Chip) (d : DieId) (f : Pwr → Pwr) : (c.onPwr f).die d = c.die d := by cases d <;> rfl
@[simp] theorem Chip.variant_onPwr (c : Chip) (f : Pwr → Pwr) : (c.onPwr f).variant = c.variant := rfl
@[simp] theorem Chip.now_onPwr (c : Chip) (f : Pwr → Pwr) : (c.onPwr f).now = c.now := rfl
@[simp] theorem Chip.time_onPwr (c : Chip) (f : Pwr → Pwr) : (c.onPwr f).time = c.time := rfl
@[simp] theorem Chip.inc_onPwr (c : Chip) (f : Pwr → Pwr) : (c.onPwr f).inc = c.inc := rfl
@[simp] theorem Chip.evune_onPwr (c : Chip) (f : Pwr → Pwr) : (c.onPwr f).evune = c.evune := rfl
@[simp] theorem Chip.ptp_onPwr (c : Chip) (f : Pwr → Pwr) : (c.onPwr f).ptp = c.ptp := rfl
@[simp] theorem Chip.chans_onPwr (c : Chip) (f : Pwr → Pwr) : (c.onPwr f).chans = c.chans := rfl
@[simp] theorem Chip.sched_onPwr (c : Chip) (f : Pwr → Pwr) : (c.onPwr f).sched = c.sched := rfl
@[simp] theorem Chip.defl_onPwr (c : Chip) (f : Pwr → Pwr) : (c.onPwr f).defl = c.defl := rfl
@[simp] theorem Chip.axis0_onPwr (c : Chip) (f : Pwr → Pwr) : (c.onPwr f).axis0 = c.axis0 := rfl
@[simp] theorem Chip.axis1_onPwr (c : Chip) (f : Pwr → Pwr) : (c.onPwr f).axis1 = c.axis1 := rfl
@[simp] theorem Chip.cfg_onPwr (c : Chip) (f : Pwr → Pwr) : (c.onPwr f).cfg = c.cfg := rfl
@[simp] theorem Chip.nv_onPwr (c : Chip) (f : Pwr → Pwr) : (c.onPwr f).nv = c.nv := rfl
@[simp] theorem Chip.ownId_onPwr (c : Chip) (f : Pwr → Pwr) : (c.onPwr f).ownId = c.ownId := rfl
@[simp] theorem Chip.memberGates_onPwr (c : Chip) (f : Pwr → Pwr) : (c.onPwr f).memberGates = c.memberGates := rfl
@[simp] theorem Chip.herd_onPwr (c : Chip) (f : Pwr → Pwr) : (c.onPwr f).herd = c.herd := rfl
@[simp] theorem Chip.cal_onPwr (c : Chip) (f : Pwr → Pwr) : (c.onPwr f).cal = c.cal := rfl
@[simp] theorem Chip.w_onPwr (c : Chip) (f : Pwr → Pwr) : (c.onPwr f).w = c.w := rfl
@[simp] theorem Chip.e_onPwr (c : Chip) (f : Pwr → Pwr) : (c.onPwr f).e = c.e := rfl
@[simp] theorem Chip.start_onPwr (c : Chip) (f : Pwr → Pwr) : (c.onPwr f).start = c.start := rfl
@[simp] theorem Chip.out_onPwr (c : Chip) (f : Pwr → Pwr) : (c.onPwr f).out = c.out := rfl
@[simp] theorem Chip.free_onPwr (c : Chip) (f : Pwr → Pwr) : (c.onPwr f).free = c.free := rfl
@[simp] theorem Chip.defl_onDefl (c : Chip) (f : Defl → Defl) : (c.onDefl f).defl = f c.defl := rfl
@[simp] theorem Chip.die_onDefl (c : Chip) (d : DieId) (f : Defl → Defl) : (c.onDefl f).die d = c.die d := by cases d <;> rfl
@[simp] theorem Chip.variant_onDefl (c : Chip) (f : Defl → Defl) : (c.onDefl f).variant = c.variant := rfl
@[simp] theorem Chip.now_onDefl (c : Chip) (f : Defl → Defl) : (c.onDefl f).now = c.now := rfl
@[simp] theorem Chip.time_onDefl (c : Chip) (f : Defl → Defl) : (c.onDefl f).time = c.time := rfl
@[simp] theorem Chip.inc_onDefl (c : Chip) (f : Defl → Defl) : (c.onDefl f).inc = c.inc := rfl
@[simp] theorem Chip.evune_onDefl (c : Chip) (f : Defl → Defl) : (c.onDefl f).evune = c.evune := rfl
@[simp] theorem Chip.ptp_onDefl (c : Chip) (f : Defl → Defl) : (c.onDefl f).ptp = c.ptp := rfl
@[simp] theorem Chip.chans_onDefl (c : Chip) (f : Defl → Defl) : (c.onDefl f).chans = c.chans := rfl
@[simp] theorem Chip.sched_onDefl (c : Chip) (f : Defl → Defl) : (c.onDefl f).sched = c.sched := rfl
@[simp] theorem Chip.axis0_onDefl (c : Chip) (f : Defl → Defl) : (c.onDefl f).axis0 = c.axis0 := rfl
@[simp] theorem Chip.axis1_onDefl (c : Chip) (f : Defl → Defl) : (c.onDefl f).axis1 = c.axis1 := rfl
@[simp] theorem Chip.cfg_onDefl (c : Chip) (f : Defl → Defl) : (c.onDefl f).cfg = c.cfg := rfl
@[simp] theorem Chip.nv_onDefl (c : Chip) (f : Defl → Defl) : (c.onDefl f).nv = c.nv := rfl
@[simp] theorem Chip.ownId_onDefl (c : Chip) (f : Defl → Defl) : (c.onDefl f).ownId = c.ownId := rfl
@[simp] theorem Chip.memberGates_onDefl (c : Chip) (f : Defl → Defl) : (c.onDefl f).memberGates = c.memberGates := rfl
@[simp] theorem Chip.herd_onDefl (c : Chip) (f : Defl → Defl) : (c.onDefl f).herd = c.herd := rfl
@[simp] theorem Chip.cal_onDefl (c : Chip) (f : Defl → Defl) : (c.onDefl f).cal = c.cal := rfl
@[simp] theorem Chip.pwr_onDefl (c : Chip) (f : Defl → Defl) : (c.onDefl f).pwr = c.pwr := rfl
@[simp] theorem Chip.w_onDefl (c : Chip) (f : Defl → Defl) : (c.onDefl f).w = c.w := rfl
@[simp] theorem Chip.e_onDefl (c : Chip) (f : Defl → Defl) : (c.onDefl f).e = c.e := rfl
@[simp] theorem Chip.start_onDefl (c : Chip) (f : Defl → Defl) : (c.onDefl f).start = c.start := rfl
@[simp] theorem Chip.out_onDefl (c : Chip) (f : Defl → Defl) : (c.onDefl f).out = c.out := rfl
@[simp] theorem Chip.free_onDefl (c : Chip) (f : Defl → Defl) : (c.onDefl f).free = c.free := rfl
@[simp] theorem Chip.evune_onEvune (c : Chip) (f : Evune → Evune) : (c.onEvune f).evune = f c.evune := rfl
@[simp] theorem Chip.die_onEvune (c : Chip) (d : DieId) (f : Evune → Evune) : (c.onEvune f).die d = c.die d := by cases d <;> rfl
@[simp] theorem Chip.variant_onEvune (c : Chip) (f : Evune → Evune) : (c.onEvune f).variant = c.variant := rfl
@[simp] theorem Chip.now_onEvune (c : Chip) (f : Evune → Evune) : (c.onEvune f).now = c.now := rfl
@[simp] theorem Chip.time_onEvune (c : Chip) (f : Evune → Evune) : (c.onEvune f).time = c.time := rfl
@[simp] theorem Chip.inc_onEvune (c : Chip) (f : Evune → Evune) : (c.onEvune f).inc = c.inc := rfl
@[simp] theorem Chip.ptp_onEvune (c : Chip) (f : Evune → Evune) : (c.onEvune f).ptp = c.ptp := rfl
@[simp] theorem Chip.chans_onEvune (c : Chip) (f : Evune → Evune) : (c.onEvune f).chans = c.chans := rfl
@[simp] theorem Chip.sched_onEvune (c : Chip) (f : Evune → Evune) : (c.onEvune f).sched = c.sched := rfl
@[simp] theorem Chip.defl_onEvune (c : Chip) (f : Evune → Evune) : (c.onEvune f).defl = c.defl := rfl
@[simp] theorem Chip.axis0_onEvune (c : Chip) (f : Evune → Evune) : (c.onEvune f).axis0 = c.axis0 := rfl
@[simp] theorem Chip.axis1_onEvune (c : Chip) (f : Evune → Evune) : (c.onEvune f).axis1 = c.axis1 := rfl
@[simp] theorem Chip.cfg_onEvune (c : Chip) (f : Evune → Evune) : (c.onEvune f).cfg = c.cfg := rfl
@[simp] theorem Chip.nv_onEvune (c : Chip) (f : Evune → Evune) : (c.onEvune f).nv = c.nv := rfl
@[simp] theorem Chip.ownId_onEvune (c : Chip) (f : Evune → Evune) : (c.onEvune f).ownId = c.ownId := rfl
@[simp] theorem Chip.memberGates_onEvune (c : Chip) (f : Evune → Evune) : (c.onEvune f).memberGates = c.memberGates := rfl
@[simp] theorem Chip.herd_onEvune (c : Chip) (f : Evune → Evune) : (c.onEvune f).herd = c.herd := rfl
@[simp] theorem Chip.cal_onEvune (c : Chip) (f : Evune → Evune) : (c.onEvune f).cal = c.cal := rfl
@[simp] theorem Chip.pwr_onEvune (c : Chip) (f : Evune → Evune) : (c.onEvune f).pwr = c.pwr := rfl
@[simp] theorem Chip.w_onEvune (c : Chip) (f : Evune → Evune) : (c.onEvune f).w = c.w := rfl
@[simp] theorem Chip.e_onEvune (c : Chip) (f : Evune → Evune) : (c.onEvune f).e = c.e := rfl
@[simp] theorem Chip.start_onEvune (c : Chip) (f : Evune → Evune) : (c.onEvune f).start = c.start := rfl
@[simp] theorem Chip.out_onEvune (c : Chip) (f : Evune → Evune) : (c.onEvune f).out = c.out := rfl
@[simp] theorem Chip.free_onEvune (c : Chip) (f : Evune → Evune) : (c.onEvune f).free = c.free := rfl
@[simp] theorem Chip.ptp_onPtp (c : Chip) (f : Ptp → Ptp) : (c.onPtp f).ptp = f c.ptp := rfl
@[simp] theorem Chip.die_onPtp (c : Chip) (d : DieId) (f : Ptp → Ptp) : (c.onPtp f).die d = c.die d := by cases d <;> rfl
@[simp] theorem Chip.variant_onPtp (c : Chip) (f : Ptp → Ptp) : (c.onPtp f).variant = c.variant := rfl
@[simp] theorem Chip.now_onPtp (c : Chip) (f : Ptp → Ptp) : (c.onPtp f).now = c.now := rfl
@[simp] theorem Chip.time_onPtp (c : Chip) (f : Ptp → Ptp) : (c.onPtp f).time = c.time := rfl
@[simp] theorem Chip.inc_onPtp (c : Chip) (f : Ptp → Ptp) : (c.onPtp f).inc = c.inc := rfl
@[simp] theorem Chip.evune_onPtp (c : Chip) (f : Ptp → Ptp) : (c.onPtp f).evune = c.evune := rfl
@[simp] theorem Chip.chans_onPtp (c : Chip) (f : Ptp → Ptp) : (c.onPtp f).chans = c.chans := rfl
@[simp] theorem Chip.sched_onPtp (c : Chip) (f : Ptp → Ptp) : (c.onPtp f).sched = c.sched := rfl
@[simp] theorem Chip.defl_onPtp (c : Chip) (f : Ptp → Ptp) : (c.onPtp f).defl = c.defl := rfl
@[simp] theorem Chip.axis0_onPtp (c : Chip) (f : Ptp → Ptp) : (c.onPtp f).axis0 = c.axis0 := rfl
@[simp] theorem Chip.axis1_onPtp (c : Chip) (f : Ptp → Ptp) : (c.onPtp f).axis1 = c.axis1 := rfl
@[simp] theorem Chip.cfg_onPtp (c : Chip) (f : Ptp → Ptp) : (c.onPtp f).cfg = c.cfg := rfl
@[simp] theorem Chip.nv_onPtp (c : Chip) (f : Ptp → Ptp) : (c.onPtp f).nv = c.nv := rfl
@[simp] theorem Chip.ownId_onPtp (c : Chip) (f : Ptp → Ptp) : (c.onPtp f).ownId = c.ownId := rfl
@[simp] theorem Chip.memberGates_onPtp (c : Chip) (f : Ptp → Ptp) : (c.onPtp f).memberGates = c.memberGates := rfl
@[simp] theorem Chip.herd_onPtp (c : Chip) (f : Ptp → Ptp) : (c.onPtp f).herd = c.herd := rfl
@[simp] theorem Chip.cal_onPtp (c : Chip) (f : Ptp → Ptp) : (c.onPtp f).cal = c.cal := rfl
@[simp] theorem Chip.pwr_onPtp (c : Chip) (f : Ptp → Ptp) : (c.onPtp f).pwr = c.pwr := rfl
@[simp] theorem Chip.w_onPtp (c : Chip) (f : Ptp → Ptp) : (c.onPtp f).w = c.w := rfl
@[simp] theorem Chip.e_onPtp (c : Chip) (f : Ptp → Ptp) : (c.onPtp f).e = c.e := rfl
@[simp] theorem Chip.start_onPtp (c : Chip) (f : Ptp → Ptp) : (c.onPtp f).start = c.start := rfl
@[simp] theorem Chip.out_onPtp (c : Chip) (f : Ptp → Ptp) : (c.onPtp f).out = c.out := rfl
@[simp] theorem Chip.free_onPtp (c : Chip) (f : Ptp → Ptp) : (c.onPtp f).free = c.free := rfl

/-! ### Outputs and DRAM -/

@[simp] theorem Chip.out_emit (c : Chip) (o : Output) : (c.emit o).out = c.out ++ [o] := rfl
@[simp] theorem Chip.die_emit (c : Chip) (o : Output) (d : DieId) : (c.emit o).die d = c.die d := by cases d <;> rfl
@[simp] theorem Chip.variant_emit (c : Chip) (o : Output) : (c.emit o).variant = c.variant := rfl
@[simp] theorem Chip.now_emit (c : Chip) (o : Output) : (c.emit o).now = c.now := rfl
@[simp] theorem Chip.time_emit (c : Chip) (o : Output) : (c.emit o).time = c.time := rfl
@[simp] theorem Chip.inc_emit (c : Chip) (o : Output) : (c.emit o).inc = c.inc := rfl
@[simp] theorem Chip.evune_emit (c : Chip) (o : Output) : (c.emit o).evune = c.evune := rfl
@[simp] theorem Chip.ptp_emit (c : Chip) (o : Output) : (c.emit o).ptp = c.ptp := rfl
@[simp] theorem Chip.chans_emit (c : Chip) (o : Output) : (c.emit o).chans = c.chans := rfl
@[simp] theorem Chip.sched_emit (c : Chip) (o : Output) : (c.emit o).sched = c.sched := rfl
@[simp] theorem Chip.defl_emit (c : Chip) (o : Output) : (c.emit o).defl = c.defl := rfl
@[simp] theorem Chip.axis0_emit (c : Chip) (o : Output) : (c.emit o).axis0 = c.axis0 := rfl
@[simp] theorem Chip.axis1_emit (c : Chip) (o : Output) : (c.emit o).axis1 = c.axis1 := rfl
@[simp] theorem Chip.cfg_emit (c : Chip) (o : Output) : (c.emit o).cfg = c.cfg := rfl
@[simp] theorem Chip.nv_emit (c : Chip) (o : Output) : (c.emit o).nv = c.nv := rfl
@[simp] theorem Chip.ownId_emit (c : Chip) (o : Output) : (c.emit o).ownId = c.ownId := rfl
@[simp] theorem Chip.memberGates_emit (c : Chip) (o : Output) : (c.emit o).memberGates = c.memberGates := rfl
@[simp] theorem Chip.herd_emit (c : Chip) (o : Output) : (c.emit o).herd = c.herd := rfl
@[simp] theorem Chip.cal_emit (c : Chip) (o : Output) : (c.emit o).cal = c.cal := rfl
@[simp] theorem Chip.pwr_emit (c : Chip) (o : Output) : (c.emit o).pwr = c.pwr := rfl
@[simp] theorem Chip.w_emit (c : Chip) (o : Output) : (c.emit o).w = c.w := rfl
@[simp] theorem Chip.e_emit (c : Chip) (o : Output) : (c.emit o).e = c.e := rfl
@[simp] theorem Chip.start_emit (c : Chip) (o : Output) : (c.emit o).start = c.start := rfl
@[simp] theorem Chip.free_emit (c : Chip) (o : Output) : (c.emit o).free = c.free := rfl
@[simp] theorem State.chip_onChip (s : State) (f : Chip → Chip) : (s.onChip f).chip = f s.chip := rfl
@[simp] theorem State.pending_onChip (s : State) (f : Chip → Chip) : (s.onChip f).pending = s.pending := rfl
@[simp] theorem State.dramW_onChip (s : State) (f : Chip → Chip) : (s.onChip f).dramW = s.dramW := rfl
@[simp] theorem State.dramE_onChip (s : State) (f : Chip → Chip) : (s.onChip f).dramE = s.dramE := rfl
@[simp] theorem State.chip_onDramWords (s : State) (d : DieId) (f : List (Nat × DWord) → List (Nat × DWord)) :
    (s.onDramWords d f).chip = s.chip := by cases d <;> rfl
@[simp] theorem State.pending_onDramWords (s : State) (d : DieId) (f : List (Nat × DWord) → List (Nat × DWord)) :
    (s.onDramWords d f).pending = s.pending := by cases d <;> rfl

end Sys2Proof.Machine
end

