-- ==== Sys2Proof/Laws/Commands.lean ====
section
/-! SUPPORT. What a command can do to the state, by the one of the shared forms it has: every command answers a next
state, only the queue's front is consumed, and only the DRAM commands touch DRAM. -/

namespace Sys2Proof.Machine

/-- A command on the chip alone: what it answers when the module runs, and when it is held in reset. -/
theorem State.nextChip_running (s : State) (f : Chip → Chip) (h : s.chip.running = true) :
    s.nextChip f = .next { s with chip := f s.chip } := by simp [State.nextChip, h]

theorem State.nextChip_held (s : State) (f : Chip → Chip) (h : s.chip.running = false) : s.nextChip f = .next s := by
  simp [State.nextChip, h]

/-- A register command outside SYS and CFG acts while the module runs and is not in recovery. -/
theorem State.nextBus_running (s : State) (f : Chip → Chip) (h : s.chip.running = true)
    (hr : s.chip.cfg.stage ≠ .recovery) : s.nextBus f = .next { s with chip := f s.chip } := by
  simp [State.nextBus, State.nextChip, h, hr]

theorem State.nextBus_recovery (s : State) (f : Chip → Chip) (hr : s.chip.cfg.stage = .recovery) :
    s.nextBus f = .next s := by
  simp [State.nextBus, State.nextChip, hr]

theorem State.nextAll_running (s : State) (f : State → State) (h : s.chip.running = true) : s.nextAll f = .next (f s) := by
  simp [State.nextAll, h]

/-- A command on the chip leaves the queue and both DRAMs as they are. -/
theorem State.nextChip_next (s t : State) (f : Chip → Chip) (h : s.nextChip f = .next t) :
    t.pending = s.pending ∧ t.dramW = s.dramW ∧ t.dramE = s.dramE := by
  simp only [State.nextChip, Host.Outcome.next.injEq] at h
  subst h; split <;> exact ⟨rfl, rfl, rfl⟩

theorem State.nextBus_next (s t : State) (f : Chip → Chip) (h : s.nextBus f = .next t) :
    t.pending = s.pending ∧ t.dramW = s.dramW ∧ t.dramE = s.dramE := State.nextChip_next s t _ h

theorem State.nextAccess_next (s t : State) (d : DieId) (off : Nat) (f : Chip → Chip) (h : s.nextAccess d off f = .next t) :
    t.pending = s.pending ∧ t.dramW = s.dramW ∧ t.dramE = s.dramE := State.nextChip_next s t _ h

theorem State.nextSupply_next (s t : State) (f : Chip → Chip) (h : s.nextSupply f = .next t) :
    t.pending = s.pending := by
  simp only [State.nextSupply, Host.Outcome.next.injEq] at h
  subst h; rfl

/-- The commands of the supply and thermal monitor and of the reference, which act on a module that is held in reset too. -/
def isSupply : Instr → Bool
  | .powerOn | .supplyGood | .resetRelease .. | .moduleReset | .sensorRead .. | .sensorFault .. | .supplyWarning ..
  | .supplyFault .. | .supplyFaultReset | .railMarginLow .. | .powerAboveLimit _ | .clockFault _ | .clockFaultEnd _ => true
  | _ => false

/-- The commands that can change DRAM. -/
def touchesDram : Instr → Bool
  | .dramRead .. | .pageRetireComplete _ | .dramTrainComplete .. | .dramFillComplete _ | .scrubRead .. | .calAdcSample _
  | .chkRangeComplete .. => true
  | _ => false

theorem State.nextChip_form (s : State) (f : Chip → Chip) : ∃ g, s.nextChip f = s.nextChip g := ⟨f, rfl⟩
theorem State.nextBus_form (s : State) (f : Chip → Chip) : ∃ g, s.nextBus f = s.nextChip g := ⟨_, rfl⟩
theorem State.nextAccess_form (s : State) (d : DieId) (off : Nat) (f : Chip → Chip) :
    ∃ g, s.nextAccess d off f = s.nextChip g := ⟨_, rfl⟩
theorem State.nextSupply_form (s : State) (f : Chip → Chip) : ∃ g, s.nextSupply f = s.nextSupply g := ⟨f, rfl⟩
theorem State.nextAll_form (s : State) (f : State → State) : ∃ g, s.nextAll f = s.nextAll g := ⟨f, rfl⟩

/-- Every other command changes the chip alone, and acts only while the module runs. -/
theorem exec_chip (i : Instr) (s : State) (h1 : isSupply i = false) (h2 : touchesDram i = false) :
    ∃ f : Chip → Chip, exec i s = s.nextChip f :=
  match i, h1, h2 with
  | .registerWrite m d off v, _, _ => (State.nextAccess_form s _ _ _ : ∃ f, execRegisterWrite m d off v s = s.nextChip f)
  | .rcRead m d off, _, _ => (State.nextAccess_form s _ _ _ : ∃ f, execRcRead m d off s = s.nextChip f)
  | .wideLowWordRead m d off, _, _ => (State.nextAccess_form s _ _ _ : ∃ f, execWideLowWordRead m d off s = s.nextChip f)
  | .shadowCopyWrite m d off v, _, _ => (State.nextAccess_form s _ _ _ : ∃ f, execShadowCopyWrite m d off v s = s.nextChip f)
  | .evuneLaneFail fromW lane, _, _ => (State.nextChip_form s _ : ∃ f, execEvuneLaneFail fromW lane s = s.nextChip f)
  | .evuneTrainingTimeout, _, _ => (State.nextChip_form s _ : ∃ f, execEvuneTrainingTimeout s = s.nextChip f)
  | .evuneRetrain, _, _ => (State.nextChip_form s _ : ∃ f, execEvuneRetrain s = s.nextChip f)
  | .evuneLinkReturn maskWE maskEW latency, _, _ => (State.nextChip_form s _ : ∃ f, execEvuneLinkReturn maskWE maskEW latency s = s.nextChip f)
  | .clockFault _, h, _ => nomatch h
  | .clockFaultEnd _, h, _ => nomatch h
  | .tunRowRelease d stripe row, _, _ => (State.nextChip_form s _ : ∃ f, execTunRowRelease d stripe row s = s.nextChip f)
  | .logEntryWrite d, _, _ => (State.nextChip_form s _ : ∃ f, execLogEntryWrite d s = s.nextChip f)
  | .evlRdIdxWrite m d v, _, _ => (State.nextBus_form s _ : ∃ f, execEvlRdIdxWrite m d v s = s.nextChip f)
  | .evlClearOverflow m d halt, _, _ => (State.nextBus_form s _ : ∃ f, execEvlClearOverflow m d halt s = s.nextChip f)
  | .spanEntryCaptureRead m d idx, _, _ => (State.nextBus_form s _ : ∃ f, execSpanEntryCaptureRead m d idx s = s.nextChip f)
  | .budgetPeriodStart d, _, _ => (State.nextChip_form s _ : ∃ f, execBudgetPeriodStart d s = s.nextChip f)
  | .gristBlockArrival d rounds, _, _ => (State.nextChip_form s _ : ∃ f, execGristBlockArrival d rounds s = s.nextChip f)
  | .creditPeriodic d, _, _ => (State.nextChip_form s _ : ∃ f, execCreditPeriodic d s = s.nextChip f)
  | .verifyDecodeStart d, _, _ => (State.nextChip_form s _ : ∃ f, execVerifyDecodeStart d s = s.nextChip f)
  | .verifyDecodeEnd d read, _, _ => (State.nextChip_form s _ : ∃ f, execVerifyDecodeEnd d read s = s.nextChip f)
  | .feedDecodeStart d, _, _ => (State.nextChip_form s _ : ∃ f, execFeedDecodeStart d s = s.nextChip f)
  | .feedDecodeEnd d read fault, _, _ => (State.nextChip_form s _ : ∃ f, execFeedDecodeEnd d read fault s = s.nextChip f)
  | .blockTreatedAsFed d, _, _ => (State.nextChip_form s _ : ∃ f, execBlockTreatedAsFed d s = s.nextChip f)
  | .figuresCreditReturn d stripe seq, _, _ => (State.nextChip_form s _ : ∃ f, execFiguresCreditReturn d stripe seq s = s.nextChip f)
  | .gristEnable m d, _, _ => (State.nextBus_form s _ : ∃ f, execGristEnable m d s = s.nextChip f)
  | .gristDisable m d, _, _ => (State.nextBus_form s _ : ∃ f, execGristDisable m d s = s.nextChip f)
  | .gristFlush m d, _, _ => (State.nextBus_form s _ : ∃ f, execGristFlush m d s = s.nextChip f)
  | .rowDeadline d row, _, _ => (State.nextChip_form s _ : ∃ f, execRowDeadline d row s = s.nextChip f)
  | .figureRecord d sram, _, _ => (State.nextChip_form s _ : ∃ f, execFigureRecord d sram s = s.nextChip f)
  | .kilnStripeBind d stripe, _, _ => (State.nextChip_form s _ : ∃ f, execKilnStripeBind d stripe s = s.nextChip f)
  | .kilnRowRasterize d stripe row run, _, _ => (State.nextChip_form s _ : ∃ f, execKilnRowRasterize d stripe row run s = s.nextChip f)
  | .tasterCompareComplete d stripe tx ty mismatch, _, _ => (State.nextChip_form s _ : ∃ f, execTasterCompareComplete d stripe tx ty mismatch s = s.nextChip f)
  | .kilnEngineEnWrite m d v, _, _ => (State.nextBus_form s _ : ∃ f, execKilnEngineEnWrite m d v s = s.nextChip f)
  | .shiftTableWrite m d c v, _, _ => (State.nextBus_form s _ : ∃ f, execShiftTableWrite m d c v s = s.nextChip f)
  | .stripeOpenReport d, _, _ => (State.nextChip_form s _ : ∃ f, execStripeOpenReport d s = s.nextChip f)
  | .marginMessageSend d stripe row, _, _ => (State.nextChip_form s _ : ∃ f, execMarginMessageSend d stripe row s = s.nextChip f)
  | .marginMessageReceive d, _, _ => (State.nextChip_form s _ : ∃ f, execMarginMessageReceive d s = s.nextChip f)
  | .seamMismatchReceive d, _, _ => (State.nextChip_form s _ : ∃ f, execSeamMismatchReceive d s = s.nextChip f)
  | .mapCheckComplete d, _, _ => (State.nextChip_form s _ : ∃ f, execMapCheckComplete d s = s.nextChip f)
  | .caskChunkCommit d stream read flips, _, _ => (State.nextChip_form s _ : ∃ f, execCaskChunkCommit d stream read flips s = s.nextChip f)
  | .caskPlayBind d stripe dir, _, _ => (State.nextChip_form s _ : ∃ f, execCaskPlayBind d stripe dir s = s.nextChip f)
  | .caskChunkRead d stripe chunk read flips, _, _ => (State.nextChip_form s _ : ∃ f, execCaskChunkRead d stripe chunk read flips s = s.nextChip f)
  | .caskFreeEntry m d entry, _, _ => (State.nextBus_form s _ : ∃ f, execCaskFreeEntry m d entry s = s.nextChip f)
  | .caskFreeAll m d, _, _ => (State.nextBus_form s _ : ∃ f, execCaskFreeAll m d s = s.nextChip f)
  | .caskEnable m d effort, _, _ => (State.nextBus_form s _ : ∃ f, execCaskEnable m d effort s = s.nextChip f)
  | .caskDisable m d effort, _, _ => (State.nextBus_form s _ : ∃ f, execCaskDisable m d effort s = s.nextChip f)
  | .caskEntryFreed d entry, _, _ => (State.nextChip_form s _ : ∃ f, execCaskEntryFreed d entry s = s.nextChip f)
  | .positionWord ch errors control bytes, _, _ => (State.nextChip_form s _ : ∃ f, execPositionWord ch errors control bytes s = s.nextChip f)
  | .positionLockAcquire ch, _, _ => (State.nextChip_form s _ : ∃ f, execPositionLockAcquire ch s = s.nextChip f)
  | .positionLockLoss ch symbols, _, _ => (State.nextChip_form s _ : ∃ f, execPositionLockLoss ch symbols s = s.nextChip f)
  | .coastExpiry ch, _, _ => (State.nextChip_form s _ : ∃ f, execCoastExpiry ch s = s.nextChip f)
  | .stillTimeout ch, _, _ => (State.nextChip_form s _ : ∃ f, execStillTimeout ch s = s.nextChip f)
  | .channelEnable m ch, _, _ => (State.nextBus_form s _ : ∃ f, execChannelEnable m ch s = s.nextChip f)
  | .channelDisable m ch, _, _ => (State.nextBus_form s _ : ∃ f, execChannelDisable m ch s = s.nextChip f)
  | .channelRearm m ch, _, _ => (State.nextBus_form s _ : ∃ f, execChannelRearm m ch s = s.nextChip f)
  | .slotFire, _, _ => (State.nextChip_form s _ : ∃ f, execSlotFire s = s.nextChip f)
  | .overspeedEnd, _, _ => (State.nextChip_form s _ : ∃ f, execOverspeedEnd s = s.nextChip f)
  | .idleSlotFire, _, _ => (State.nextChip_form s _ : ∃ f, execIdleSlotFire s = s.nextChip f)
  | .slotArm m stripe, _, _ => (State.nextBus_form s _ : ∃ f, execSlotArm m stripe s = s.nextChip f)
  | .slotDisarm m stripe, _, _ => (State.nextBus_form s _ : ∃ f, execSlotDisarm m stripe s = s.nextChip f)
  | .stripeNotBegun, _, _ => (State.nextChip_form s _ : ∃ f, execStripeNotBegun s = s.nextChip f)
  | .stripeStart, _, _ => (State.nextChip_form s _ : ∃ f, execStripeStart s = s.nextChip f)
  | .compareFire n, _, _ => (State.nextChip_form s _ : ∃ f, execCompareFire n s = s.nextChip f)
  | .stripeEnd, _, _ => (State.nextChip_form s _ : ∃ f, execStripeEnd s = s.nextChip f)
  | .deflectionSample, _, _ => (State.nextChip_form s _ : ∃ f, execDeflectionSample s = s.nextChip f)
  | .deflectionCheckComplete, _, _ => (State.nextChip_form s _ : ∃ f, execDeflectionCheckComplete s = s.nextChip f)
  | .deflEnable m v, _, _ => (State.nextBus_form s _ : ∃ f, execDeflEnable m v s = s.nextChip f)
  | .axisStepTick n, _, _ => (State.nextChip_form s _ : ∃ f, execAxisStepTick n s = s.nextChip f)
  | .axisProfileTick n, _, _ => (State.nextChip_form s _ : ∃ f, execAxisProfileTick n s = s.nextChip f)
  | .axisStillTimeout n, _, _ => (State.nextChip_form s _ : ∃ f, execAxisStillTimeout n s = s.nextChip f)
  | .limitFilterChange n fwd, _, _ => (State.nextChip_form s _ : ∃ f, execLimitFilterChange n fwd s = s.nextChip f)
  | .limitRawEdge n fwd, _, _ => (State.nextChip_form s _ : ∃ f, execLimitRawEdge n fwd s = s.nextChip f)
  | .encoderTransition n a b ha hb, _, _ => (State.nextChip_form s _ : ∃ f, execEncoderTransition n a b ha hb s = s.nextChip f)
  | .encoderIndexEdge n, _, _ => (State.nextChip_form s _ : ∃ f, execEncoderIndexEdge n s = s.nextChip f)
  | .encoderSpeedEstimate n, _, _ => (State.nextChip_form s _ : ∃ f, execEncoderSpeedEstimate n s = s.nextChip f)
  | .axisMove m n, _, _ => (State.nextBus_form s _ : ∃ f, execAxisMove m n s = s.nextChip f)
  | .axisStop m n, _, _ => (State.nextBus_form s _ : ∃ f, execAxisStop m n s = s.nextChip f)
  | .axisHome m n, _, _ => (State.nextBus_form s _ : ∃ f, execAxisHome m n s = s.nextChip f)
  | .axisFaultStop m n, _, _ => (State.nextBus_form s _ : ∃ f, execAxisFaultStop m n s = s.nextChip f)
  | .paramSegmentSend d, _, _ => (State.nextChip_form s _ : ∃ f, execParamSegmentSend d s = s.nextChip f)
  | .bankLoadStart d, _, _ => (State.nextChip_form s _ : ∃ f, execBankLoadStart d s = s.nextChip f)
  | .echoReceive d lane bytes, _, _ => (State.nextChip_form s _ : ∃ f, execEchoReceive d lane bytes s = s.nextChip f)
  | .echoDeadline d, _, _ => (State.nextChip_form s _ : ∃ f, execEchoDeadline d s = s.nextChip f)
  | .handoverToSpare m d lam, _, _ => (State.nextBus_form s _ : ∃ f, execHandoverToSpare m d lam s = s.nextChip f)
  | .handback m d lam, _, _ => (State.nextBus_form s _ : ∃ f, execHandback m d lam s = s.nextChip f)
  | .handoverWakeEnd d group, _, _ => (State.nextChip_form s _ : ∃ f, execHandoverWakeEnd d group s = s.nextChip f)
  | .handoverAbandon d group, _, _ => (State.nextChip_form s _ : ∃ f, execHandoverAbandon d group s = s.nextChip f)
  | .blnkEnable m d v, _, _ => (State.nextBus_form s _ : ∃ f, execBlnkEnable m d v s = s.nextChip f)
  | .blnkDisable m d v, _, _ => (State.nextBus_form s _ : ∃ f, execBlnkDisable m d v s = s.nextChip f)
  | .rxBlockLockGain d grist lane skip blocks, _, _ => (State.nextChip_form s _ : ∃ f, execRxBlockLockGain d grist lane skip blocks s = s.nextChip f)
  | .rxBlockLockLoss d grist lane skip blocks, _, _ => (State.nextChip_form s _ : ∃ f, execRxBlockLockLoss d grist lane skip blocks s = s.nextChip f)
  | .descramblerLockGain d grist lane skip blocks, _, _ => (State.nextChip_form s _ : ∃ f, execDescramblerLockGain d grist lane skip blocks s = s.nextChip f)
  | .descramblerLockLoss d grist lane skip blocks, _, _ => (State.nextChip_form s _ : ∃ f, execDescramblerLockLoss d grist lane skip blocks s = s.nextChip f)
  | .transitionWindowEnd d grist lane transitions skip blocks, _, _ => (State.nextChip_form s _ : ∃ f, execTransitionWindowEnd d grist lane transitions skip blocks s = s.nextChip f)
  | .laneTrainCommand m d lane, _, _ => (State.nextBus_form s _ : ∃ f, execLaneTrainCommand m d lane s = s.nextChip f)
  | .trainReportReceive d lane bytes eyeH eyeW errors, _, _ => (State.nextChip_form s _ : ∃ f, execTrainReportReceive d lane bytes eyeH eyeW errors s = s.nextChip f)
  | .trainReportTimeout d lane eyeH eyeW errors, _, _ => (State.nextChip_form s _ : ∃ f, execTrainReportTimeout d lane eyeH eyeW errors s = s.nextChip f)
  | .alignRound d blocks, _, _ => (State.nextChip_form s _ : ∃ f, execAlignRound d blocks s = s.nextChip f)
  | .deskewTimeout d, _, _ => (State.nextChip_form s _ : ∃ f, execDeskewTimeout d s = s.nextChip f)
  | .laneSetChange d, _, _ => (State.nextChip_form s _ : ∃ f, execLaneSetChange d s = s.nextChip f)
  | .laneMessageResend d, _, _ => (State.nextChip_form s _ : ∃ f, execLaneMessageResend d s = s.nextChip f)
  | .returnLaneSleep d, _, _ => (State.nextChip_form s _ : ∃ f, execReturnLaneSleep d s = s.nextChip f)
  | .returnLaneWake d, _, _ => (State.nextChip_form s _ : ∃ f, execReturnLaneWake d s = s.nextChip f)
  | .gristResync m d v, _, _ => (State.nextBus_form s _ : ∃ f, execGristResync m d v s = s.nextChip f)
  | .gristLaneEnWrite m d v, _, _ => (State.nextBus_form s _ : ∃ f, execGristLaneEnWrite m d v s = s.nextChip f)
  | .gristLaneTrainCommand m d lane, _, _ => (State.nextBus_form s _ : ∃ f, execGristLaneTrainCommand m d lane s = s.nextChip f)
  | .gristTrainStepEnd d lane eyeH eyeW errors, _, _ => (State.nextChip_form s _ : ∃ f, execGristTrainStepEnd d lane eyeH eyeW errors s = s.nextChip f)
  | .controlRead p src tag pdu, _, _ => (State.nextChip_form s _ : ∃ f, execControlRead p src tag pdu s = s.nextChip f)
  | .controlWrite p src tag pdu, _, _ => (State.nextChip_form s _ : ∃ f, execControlWrite p src tag pdu s = s.nextChip f)
  | .forwardedRequest p reported, _, _ => (State.nextChip_form s _ : ∃ f, execForwardedRequest p reported s = s.nextChip f)
  | .forwardTimeout p, _, _ => (State.nextChip_form s _ : ∃ f, execForwardTimeout p s = s.nextChip f)
  | .frameDiscard p dst etherType fcsOk, _, _ => (State.nextChip_form s _ : ∃ f, execFrameDiscard p dst etherType fcsOk s = s.nextChip f)
  | .msgSend d, _, _ => (State.nextChip_form s _ : ∃ f, execMsgSend d s = s.nextChip f)
  | .msgRetry d, _, _ => (State.nextChip_form s _ : ∃ f, execMsgRetry d s = s.nextChip f)
  | .msgAck d seq, _, _ => (State.nextChip_form s _ : ∃ f, execMsgAck d seq s = s.nextChip f)
  | .ptpMessage p msg, _, _ => (State.nextChip_form s _ : ∃ f, execPtpMessage p msg s = s.nextChip f)
  | .syncLoss, _, _ => (State.nextChip_form s _ : ∃ f, execSyncLoss s = s.nextChip f)
  | .holdoverEnd, _, _ => (State.nextChip_form s _ : ∃ f, execHoldoverEnd s = s.nextChip f)
  | .controlPortLinkLoss p, _, _ => (State.nextChip_form s _ : ∃ f, execControlPortLinkLoss p s = s.nextChip f)
  | .timeStep m v, _, _ => (State.nextBus_form s _ : ∃ f, execTimeStep m v s = s.nextChip f)
  | .timeIncWrite m v, _, _ => (State.nextBus_form s _ : ∃ f, execTimeIncWrite m v s = s.nextChip f)
  | .dramRead _ _ _ _ _ _, _, h => nomatch h
  | .pageRetireComplete _, _, h => nomatch h
  | .sramReadError d word poison, _, _ => (State.nextChip_form s _ : ∃ f, execSramReadError d word poison s = s.nextChip f)
  | .retireCommand m d v, _, _ => (State.nextBus_form s _ : ∃ f, execRetireCommand m d v s = s.nextChip f)
  | .refreshRateUpdate d t0 t1 t2 t3, _, _ => (State.nextChip_form s _ : ∃ f, execRefreshRateUpdate d t0 t1 t2 t3 s = s.nextChip f)
  | .refreshDue d channel bank wanted, _, _ => (State.nextChip_form s _ : ∃ f, execRefreshDue d channel bank wanted s = s.nextChip f)
  | .selfRefreshEntry d channel, _, _ => (State.nextChip_form s _ : ∃ f, execSelfRefreshEntry d channel s = s.nextChip f)
  | .dramTrainStart m d v, _, _ => (State.nextBus_form s _ : ∃ f, execDramTrainStart m d v s = s.nextChip f)
  | .dramTrainComplete _ _, _, h => nomatch h
  | .dramDelayWrite m d channel lane v, _, _ => (State.nextBus_form s _ : ∃ f, execDramDelayWrite m d channel lane v s = s.nextChip f)
  | .dramFillStart m d v, _, _ => (State.nextBus_form s _ : ∃ f, execDramFillStart m d v s = s.nextChip f)
  | .dramFillComplete _, _, h => nomatch h
  | .scrubRead _ _, _, h => nomatch h
  | .sramScrubRead d region idx rewritten flips last, _, _ => (State.nextChip_form s _ : ∃ f, execSramScrubRead d region idx rewritten flips last s = s.nextChip f)
  | .interlockInputDrop d input h, _, _ => (State.nextChip_form s _ : ∃ f, execInterlockInputDrop d input h s = s.nextChip f)
  | .interlockInputRestore d input h, _, _ => (State.nextChip_form s _ : ∃ f, execInterlockInputRestore d input h s = s.nextChip f)
  | .gateCloseReport d member, _, _ => (State.nextChip_form s _ : ∃ f, execGateCloseReport d member s = s.nextChip f)
  | .forceClose m d alsoReopen, _, _ => (State.nextBus_form s _ : ∃ f, execForceClose m d alsoReopen s = s.nextChip f)
  | .reopen m d, _, _ => (State.nextBus_form s _ : ∃ f, execReopen m d s = s.nextChip f)
  | .ilkMaskWrite m d v, _, _ => (State.nextBus_form s _ : ∃ f, execIlkMaskWrite m d v s = s.nextChip f)
  | .evtSet m d k v, _, _ => (State.nextBus_form s _ : ∃ f, execEvtSet m d k v s = s.nextChip f)
  | .evtClr m d k v, _, _ => (State.nextBus_form s _ : ∃ f, execEvtClr m d k v s = s.nextChip f)
  | .evtAck m d c, _, _ => (State.nextBus_form s _ : ∃ f, execEvtAck m d c s = s.nextChip f)
  | .evtEoi m d c id, _, _ => (State.nextBus_form s _ : ∃ f, execEvtEoi m d c id s = s.nextChip f)
  | .evtScan m d c, _, _ => (State.nextBus_form s _ : ∃ f, execEvtScan m d c s = s.nextChip f)
  | .coreSleep d c, _, _ => (State.nextChip_form s _ : ∃ f, execCoreSleep d c s = s.nextChip f)
  | .coreWake d c, _, _ => (State.nextChip_form s _ : ∃ f, execCoreWake d c s = s.nextChip f)
  | .fallbackTimeout d source, _, _ => (State.nextChip_form s _ : ∃ f, execFallbackTimeout d source s = s.nextChip f)
  | .remoteCandidate d c, _, _ => (State.nextChip_form s _ : ∃ f, execRemoteCandidate d c s = s.nextChip f)
  | .takenMessage d, _, _ => (State.nextChip_form s _ : ∃ f, execTakenMessage d s = s.nextChip f)
  | .evtTargetWrite m d n v, _, _ => (State.nextBus_form s _ : ∃ f, execEvtTargetWrite m d n v s = s.nextChip f)
  | .evtModeWrite m d c v, _, _ => (State.nextBus_form s _ : ∃ f, execEvtModeWrite m d c v s = s.nextChip f)
  | .hostQueueDelivery d, _, _ => (State.nextChip_form s _ : ∃ f, execHostQueueDelivery d s = s.nextChip f)
  | .powerOn, h, _ => nomatch h
  | .supplyGood, h, _ => nomatch h
  | .resetRelease _straps, h, _ => nomatch h
  | .imageVerifyComplete, _, _ => (State.nextChip_form s _ : ∃ f, execImageVerifyComplete s = s.nextChip f)
  | .bootOk m, _, _ => (State.nextChip_form s _ : ∃ f, execBootOk m s = s.nextChip f)
  | .bootDeadline, _, _ => (State.nextChip_form s _ : ∃ f, execBootDeadline s = s.nextChip f)
  | .moduleReset, h, _ => nomatch h
  | .resetCommand m, _, _ => (State.nextChip_form s _ : ∃ f, execResetCommand m s = s.nextChip f)
  | .swapArm m mode, _, _ => (State.nextChip_form s _ : ∃ f, execSwapArm m mode s = s.nextChip f)
  | .swapDisarm m mode, _, _ => (State.nextChip_form s _ : ∃ f, execSwapDisarm m mode s = s.nextChip f)
  | .swapPrepareComplete d bad, _, _ => (State.nextChip_form s _ : ∃ f, execSwapPrepareComplete d bad s = s.nextChip f)
  | .swapPoint, _, _ => (State.nextChip_form s _ : ∃ f, execSwapPoint s = s.nextChip f)
  | .chkAcquire m d u algo, _, _ => (State.nextBus_form s _ : ∃ f, execChkAcquire m d u algo s = s.nextChip f)
  | .chkRelease m d u algo, _, _ => (State.nextBus_form s _ : ∃ f, execChkRelease m d u algo s = s.nextChip f)
  | .chkStart m d u algo, _, _ => (State.nextBus_form s _ : ∃ f, execChkStart m d u algo s = s.nextChip f)
  | .chkData m d u v, _, _ => (State.nextBus_form s _ : ∃ f, execChkData m d u v s = s.nextChip f)
  | .chkDataB m d u v, _, _ => (State.nextBus_form s _ : ∃ f, execChkDataB m d u v s = s.nextChip f)
  | .chkRangeGo m d u v, _, _ => (State.nextBus_form s _ : ∃ f, execChkRangeGo m d u v s = s.nextChip f)
  | .chkRangeComplete _ _ _ _, _, h => nomatch h
  | .maintChallenge m, _, _ => (State.nextChip_form s _ : ∃ f, execMaintChallenge m s = s.nextChip f)
  | .maintVerify m, _, _ => (State.nextChip_form s _ : ∃ f, execMaintVerify m s = s.nextChip f)
  | .maintVerifyComplete, _, _ => (State.nextChip_form s _ : ∃ f, execMaintVerifyComplete s = s.nextChip f)
  | .maintClose m, _, _ => (State.nextChip_form s _ : ∃ f, execMaintClose m s = s.nextChip f)
  | .maintExpiry, _, _ => (State.nextChip_form s _ : ∃ f, execMaintExpiry s = s.nextChip f)
  | .watchdogKick m d c v, _, _ => (State.nextChip_form s _ : ∃ f, execWatchdogKick m d c v s = s.nextChip f)
  | .watchdogExpiry d c, _, _ => (State.nextChip_form s _ : ∃ f, execWatchdogExpiry d c s = s.nextChip f)
  | .coreRestart m d c v, _, _ => (State.nextChip_form s _ : ∃ f, execCoreRestart m d c v s = s.nextChip f)
  | .coreReloadComplete d c, _, _ => (State.nextChip_form s _ : ∃ f, execCoreReloadComplete d c s = s.nextChip f)
  | .measurementRecomputeComplete, _, _ => (State.nextChip_form s _ : ∃ f, execMeasurementRecomputeComplete s = s.nextChip f)
  | .jlogRdIdxWrite m d v, _, _ => (State.nextChip_form s _ : ∃ f, execJlogRdIdxWrite m d v s = s.nextChip f)
  | .jobLogCaptureRead m d idx, _, _ => (State.nextChip_form s _ : ∃ f, execJobLogCaptureRead m d idx s = s.nextChip f)
  | .caskDirectoryCaptureRead m d idx, _, _ => (State.nextBus_form s _ : ∃ f, execCaskDirectoryCaptureRead m d idx s = s.nextChip f)
  | .errorLogCaptureRead m d idx, _, _ => (State.nextBus_form s _ : ∃ f, execErrorLogCaptureRead m d idx s = s.nextChip f)
  | .flashRead m device, _, _ => (State.nextChip_form s _ : ∃ f, execFlashRead m device s = s.nextChip f)
  | .flashProgram m device, _, _ => (State.nextChip_form s _ : ∃ f, execFlashProgram m device s = s.nextChip f)
  | .flashErase m device, _, _ => (State.nextChip_form s _ : ∃ f, execFlashErase m device s = s.nextChip f)
  | .flashOperationDone failed, _, _ => (State.nextChip_form s _ : ∃ f, execFlashOperationDone failed s = s.nextChip f)
  | .helloSend, _, _ => (State.nextChip_form s _ : ∃ f, execHelloSend s = s.nextChip f)
  | .statusSend, _, _ => (State.nextChip_form s _ : ∃ f, execStatusSend s = s.nextChip f)
  | .timeSend, _, _ => (State.nextChip_form s _ : ∃ f, execTimeSend s = s.nextChip f)
  | .syncMessageReceive linkB skip blocks origin seq hops msg due short long, _, _ => (State.nextChip_form s _ : ∃ f, execSyncMessageReceive linkB skip blocks origin seq hops msg due short long s = s.nextChip f)
  | .herdElection, _, _ => (State.nextChip_form s _ : ∃ f, execHerdElection s = s.nextChip f)
  | .herdDecisionAct, _, _ => (State.nextChip_form s _ : ∃ f, execHerdDecisionAct s = s.nextChip f)
  | .memberLoss id, _, _ => (State.nextChip_form s _ : ∃ f, execMemberLoss id s = s.nextChip f)
  | .buckLoss, _, _ => (State.nextChip_form s _ : ∃ f, execBuckLoss s = s.nextChip f)
  | .failoverElection, _, _ => (State.nextChip_form s _ : ∃ f, execFailoverElection s = s.nextChip f)
  | .syncLinkLoss linkB, _, _ => (State.nextChip_form s _ : ∃ f, execSyncLinkLoss linkB s = s.nextChip f)
  | .chainCheckRequest m v, _, _ => (State.nextBus_form s _ : ∃ f, execChainCheckRequest m v s = s.nextChip f)
  | .chainCheckStart, _, _ => (State.nextChip_form s _ : ∃ f, execChainCheckStart s = s.nextChip f)
  | .chainCheckComplete, _, _ => (State.nextChip_form s _ : ∃ f, execChainCheckComplete s = s.nextChip f)
  | .calStepGo m v, _, _ => (State.nextBus_form s _ : ∃ f, execCalStepGo m v s = s.nextChip f)
  | .calAbort m v, _, _ => (State.nextBus_form s _ : ∃ f, execCalAbort m v s = s.nextChip f)
  | .calZeroComplete, _, _ => (State.nextChip_form s _ : ∃ f, execCalZeroComplete s = s.nextChip f)
  | .calBurstStart, _, _ => (State.nextChip_form s _ : ∃ f, execCalBurstStart s = s.nextChip f)
  | .calBurstSlot, _, _ => (State.nextChip_form s _ : ∃ f, execCalBurstSlot s = s.nextChip f)
  | .calBurstComplete, _, _ => (State.nextChip_form s _ : ∃ f, execCalBurstComplete s = s.nextChip f)
  | .laneRecalTurn d, _, _ => (State.nextChip_form s _ : ∃ f, execLaneRecalTurn d s = s.nextChip f)
  | .laneRecalStart d, _, _ => (State.nextChip_form s _ : ∃ f, execLaneRecalStart d s = s.nextChip f)
  | .calAdcSample _, _, h => nomatch h
  | .sensorRead _ _, h, _ => nomatch h
  | .sensorFault .., h, _ => nomatch h
  | .supplyWarning .., h, _ => nomatch h
  | .supplyFault .., h, _ => nomatch h
  | .supplyFaultReset, h, _ => nomatch h
  | .railMarginLow .., h, _ => nomatch h
  | .powerAboveLimit _, h, _ => nomatch h
  | .herdDigestComplete, _, _ => (State.nextChip_form s _ : ∃ f, execHerdDigestComplete s = s.nextChip f)
  | .controlPortLinkUp p, _, _ => (State.nextChip_form s _ : ∃ f, execControlPortLinkUp p s = s.nextChip f)
  | .scheduleWindowOpen p, _, _ => (State.nextChip_form s _ : ∃ f, execScheduleWindowOpen p s = s.nextChip f)

/-- A supply command changes the chip alone, and acts always. -/
theorem exec_supply (i : Instr) (s : State) (h : isSupply i = true) : ∃ f : Chip → Chip, exec i s = s.nextSupply f := by
  cases i with
  | clockFault d => exact (State.nextSupply_form s _ : ∃ f, execClockFault d s = s.nextSupply f)
  | clockFaultEnd d => exact (State.nextSupply_form s _ : ∃ f, execClockFaultEnd d s = s.nextSupply f)
  | powerOn => exact (State.nextSupply_form s _ : ∃ f, execPowerOn s = s.nextSupply f)
  | supplyGood => exact (State.nextSupply_form s _ : ∃ f, execSupplyGood s = s.nextSupply f)
  | resetRelease straps => exact (State.nextSupply_form s _ : ∃ f, execResetRelease straps s = s.nextSupply f)
  | moduleReset => exact (State.nextSupply_form s _ : ∃ f, execModuleReset s = s.nextSupply f)
  | sensorRead x v => exact (State.nextSupply_form s _ : ∃ f, execSensorRead x v s = s.nextSupply f)
  | sensorFault x silent => exact (State.nextSupply_form s _ : ∃ f, execSensorFault x silent s = s.nextSupply f)
  | supplyWarning vin held => exact (State.nextSupply_form s _ : ∃ f, execSupplyWarning vin held s = s.nextSupply f)
  | supplyFault why value held => exact (State.nextSupply_form s _ : ∃ f, execSupplyFault why value held s = s.nextSupply f)
  | supplyFaultReset => exact (State.nextSupply_form s _ : ∃ f, execSupplyFaultReset s = s.nextSupply f)
  | railMarginLow dev held => exact (State.nextSupply_form s _ : ∃ f, execRailMarginLow dev held s = s.nextSupply f)
  | powerAboveLimit power => exact (State.nextSupply_form s _ : ∃ f, execPowerAboveLimit power s = s.nextSupply f)
  | _ => simp [isSupply] at h

/-- A command that can change DRAM acts only while the module runs. -/
theorem exec_dram (i : Instr) (s : State) (h : touchesDram i = true) : ∃ f : State → State, exec i s = s.nextAll f := by
  cases i with
  | dramRead d client core addr flips early => exact (State.nextAll_form s _ : ∃ f, execDramRead d client core addr flips early s = s.nextAll f)
  | pageRetireComplete d => exact (State.nextAll_form s _ : ∃ f, execPageRetireComplete d s = s.nextAll f)
  | dramTrainComplete d misread => exact (State.nextAll_form s _ : ∃ f, execDramTrainComplete d misread s = s.nextAll f)
  | dramFillComplete d => exact (State.nextAll_form s _ : ∃ f, execDramFillComplete d s = s.nextAll f)
  | scrubRead d flips => exact (State.nextAll_form s _ : ∃ f, execScrubRead d flips s = s.nextAll f)
  | chkRangeComplete d u read good => exact (State.nextAll_form s _ : ∃ f, execChkRangeComplete d u read good s = s.nextAll f)
  | calAdcSample x => exact (State.nextAll_form s _ : ∃ f, execCalAdcSample x s = s.nextAll f)
  | _ => simp [touchesDram] at h

/-- The chip is running when its stage is any but held. -/
theorem Chip.running_iff (c : Chip) : c.running = true ↔ c.cfg.stage ≠ .held := by simp [Chip.running]

end Sys2Proof.Machine
end

