-- ==== Sys2Proof/Laws/DramCode.lean ====
section
/-! SUPPORT. The columns of the DRAM code (R287): whatever the open choices, they are distinct, of weight 3 or 5 for the
data bits and of weight 1 for the check bits. -/

namespace Sys2Proof.Machine

/-- Columns drawn from a pool large enough are members of it, and none is drawn twice. -/
theorem drawColumns_spec (choice : Nat → Nat) (n i : Nat) (pool : List Nat) (hp : pool.Nodup) (hn : n ≤ pool.length) :
    (drawColumns choice n i pool).length = n ∧ (∀ c ∈ drawColumns choice n i pool, c ∈ pool) ∧
    (drawColumns choice n i pool).Nodup := by
  induction n generalizing i pool with
  | zero => simp [drawColumns]
  | succ n ih =>
    have hlt : choice i % pool.length < pool.length := Nat.mod_lt _ (by omega)
    have hmem : pool.getD (choice i % pool.length) 0 ∈ pool := by
      simp [List.getD_eq_getElem?_getD, List.getElem?_eq_getElem hlt]
    generalize hc : pool.getD (choice i % pool.length) 0 = c at hmem
    have hlen : (pool.filter (· != c)).length = pool.length - 1 := by
      rw [← hp.erase_eq_filter, List.length_erase_of_mem hmem]
    obtain ⟨h1, h2, h3⟩ := ih (i + 1) (pool.filter (· != c)) (hp.filter _) (by omega)
    simp only [drawColumns, hc, List.length_cons, List.mem_cons, List.nodup_cons]
    refine ⟨by omega, ?_, ?_, h3⟩
    · rintro x (rfl | hx)
      · exact hmem
      · exact (List.mem_filter.1 (h2 x hx)).1
    · intro hcx
      simpa using (List.mem_filter.1 (h2 c hcx)).2

theorem freeColumns_spec : freeColumns.length = 63 ∧
    (∀ c ∈ freeColumns, c ∈ (columnPool 8 [3, 5]).filter (· != 0x0B)) ∧ freeColumns.Nodup :=
  drawColumns_spec _ _ _ _ ((List.nodup_range.filter _).filter _) (by decide +kernel)

/-- The columns of the data bits are those drawn, and that of bit 37. -/
theorem dataColumns_perm : dataColumns.Perm (0x0B :: freeColumns) := by
  have h := List.perm_middle (a := 0x0B) (l₁ := freeColumns.take 37) (l₂ := freeColumns.drop 37)
  rwa [List.take_append_drop] at h

theorem dataColumns_spec : dataColumns.length = 64 ∧ (∀ c ∈ dataColumns, c ∈ columnPool 8 [3, 5]) ∧ dataColumns.Nodup := by
  obtain ⟨hl, hm, hd⟩ := freeColumns_spec
  refine ⟨by simp [dataColumns_perm.length_eq, hl], fun c hc => ?_, dataColumns_perm.nodup_iff.2 (List.nodup_cons.2 ⟨?_, hd⟩)⟩
  · rcases List.mem_cons.1 (dataColumns_perm.mem_iff.1 hc) with rfl | hf
    · decide +kernel
    · exact (List.mem_filter.1 (hm c hf)).1
  · intro h
    simpa using (List.mem_filter.1 (hm _ h)).2

theorem checkColumns_spec : (drawColumns Config.dramCol 8 64 (columnPool 8 [1])).length = 8 ∧
    (∀ c ∈ drawColumns Config.dramCol 8 64 (columnPool 8 [1]), c ∈ columnPool 8 [1]) ∧
    (drawColumns Config.dramCol 8 64 (columnPool 8 [1])).Nodup :=
  drawColumns_spec _ _ _ _ (List.nodup_range.filter _) (by decide +kernel)

/-- The column of data bit 37 is 0x0B. -/
theorem dramColumn_weak : dramColumn 37 = 0x0B := by
  have hl := freeColumns_spec.1
  simp only [dramColumn, dramColumns, dataColumns, List.getD_eq_getElem?_getD]
  rw [List.getElem?_append_left (by simp [hl]), List.getElem?_append_right (by simp [hl])]
  simp [hl]

/-- The column of a data bit has weight 3 or 5. -/
theorem dramColumn_data (i : Nat) (h : i < 64) : dramColumn i ∈ columnPool 8 [3, 5] := by
  have hl := dataColumns_spec.1
  have := dataColumns_spec.2.1
  simp only [dramColumn, dramColumns, List.getD_eq_getElem?_getD]
  rw [List.getElem?_append_left (by omega), List.getElem?_eq_getElem (by omega)]
  exact this _ (List.getElem_mem _)

/-- The column of a check bit has weight 1. -/
theorem dramColumn_check (i : Nat) (h : 64 ≤ i) (h' : i < 72) : dramColumn i ∈ columnPool 8 [1] := by
  have hl := dataColumns_spec.1
  have hk := checkColumns_spec.1
  have := checkColumns_spec.2.1
  simp only [dramColumn, dramColumns, List.getD_eq_getElem?_getD]
  rw [List.getElem?_append_right (by omega), List.getElem?_eq_getElem (by omega)]
  exact this _ (List.getElem_mem _)

/-- Every column is a nonzero byte of odd weight, and not all ones. -/
theorem dramColumn_odd (i : Nat) (h : i < 72) :
    dramColumn i ≠ 0 ∧ dramColumn i ≠ 255 ∧ dramColumn i < 256 ∧ popcount 8 (dramColumn i) % 2 = 1 := by
  have hd : ∀ c ∈ columnPool 8 [3, 5], c ≠ 0 ∧ c ≠ 255 ∧ c < 256 ∧ popcount 8 c % 2 = 1 := by decide +kernel
  have hc : ∀ c ∈ columnPool 8 [1], c ≠ 0 ∧ c ≠ 255 ∧ c < 256 ∧ popcount 8 c % 2 = 1 := by decide +kernel
  rcases Nat.lt_or_ge i 64 with h1 | h1
  · exact hd _ (dramColumn_data i h1)
  · exact hc _ (dramColumn_check i h1 h)

theorem dramColumns_nodup : dramColumns.Nodup := by
  refine List.nodup_append.2 ⟨dataColumns_spec.2.2, checkColumns_spec.2.2, ?_⟩
  intro a ha b hb hab
  subst hab
  have h1 := dataColumns_spec.2.1 a ha
  have h2 := checkColumns_spec.2.1 a hb
  revert h1 h2
  simp only [columnPool, List.mem_filter]
  intro h1 h2
  simp at h1 h2
  omega

/-- Distinct bits have distinct columns. -/
theorem dramColumn_inj (i j : Nat) (hi : i < 72) (hj : j < 72) (h : dramColumn i = dramColumn j) : i = j := by
  have hl : dramColumns.length = 72 := by
    rw [dramColumns, List.length_append, dataColumns_spec.1, checkColumns_spec.1]
  simp only [dramColumn, List.getD_eq_getElem?_getD] at h
  rw [List.getElem?_eq_getElem (by omega), List.getElem?_eq_getElem (by omega)] at h
  have hp := List.pairwise_iff_getElem.1 dramColumns_nodup
  rcases Nat.lt_trichotomy i j with hlt | heq | hgt
  · exact absurd (by simpa using h) (hp i j _ _ hlt)
  · exact heq
  · exact absurd (by simpa using h.symm) (hp j i _ _ hgt)

/-! ### The columns of the SRAM code -/

theorem sramData_spec : (drawColumns Config.sramCol 128 0 (columnPool 9 [3, 5, 7])).length = 128 ∧
    (∀ c ∈ drawColumns Config.sramCol 128 0 (columnPool 9 [3, 5, 7]), c ∈ columnPool 9 [3, 5, 7]) ∧
    (drawColumns Config.sramCol 128 0 (columnPool 9 [3, 5, 7])).Nodup :=
  drawColumns_spec _ _ _ _ (List.nodup_range.filter _) (by decide +kernel)

theorem sramCheck_spec : (drawColumns Config.sramCol 9 128 (columnPool 9 [1])).length = 9 ∧
    (∀ c ∈ drawColumns Config.sramCol 9 128 (columnPool 9 [1]), c ∈ columnPool 9 [1]) ∧
    (drawColumns Config.sramCol 9 128 (columnPool 9 [1])).Nodup :=
  drawColumns_spec _ _ _ _ (List.nodup_range.filter _) (by decide +kernel)

theorem sramColumns_nodup : sramColumns.Nodup := by
  refine List.nodup_append.2 ⟨sramData_spec.2.2, sramCheck_spec.2.2, ?_⟩
  intro a ha b hb hab
  subst hab
  have h1 := sramData_spec.2.1 a ha
  have h2 := sramCheck_spec.2.1 a hb
  simp only [columnPool, List.mem_filter] at h1 h2
  simp at h1 h2
  omega

/-- Every column of the SRAM code is nonzero and of odd weight. -/
theorem sramColumns_odd (c : Nat) (h : c ∈ sramColumns) : c ≠ 0 ∧ c < 512 ∧ popcount 9 c % 2 = 1 := by
  have hd : ∀ c ∈ columnPool 9 [3, 5, 7], c ≠ 0 ∧ c < 512 ∧ popcount 9 c % 2 = 1 := by decide +kernel
  have hc : ∀ c ∈ columnPool 9 [1], c ≠ 0 ∧ c < 512 ∧ popcount 9 c % 2 = 1 := by decide +kernel
  rcases List.mem_append.1 h with h1 | h1
  · exact hd _ (sramData_spec.2.1 c h1)
  · exact hc _ (sramCheck_spec.2.1 c h1)

end Sys2Proof.Machine
end

