-- ==== Sys2Proof/Laws/SparseMap.lean ====
section
/-! SUPPORT. Sparse maps: what a read gives after a write, and that every operation keeps the canonical form. -/

namespace Sys2Proof.Machine

variable {α : Type}

@[simp] theorem smGet_nil (a : α) (k : Nat) : smGet a k [] = a := rfl

@[simp] theorem smGet_smInsert_same (a v : α) (k : Nat) (l : List (Nat × α)) : smGet a k (smInsert k v l) = v := by
  induction l with
  | nil => simp [smInsert, smGet]
  | cons p l ih =>
    simp only [smInsert]
    split
    · simp [smGet]
    · split
      · simp [smGet]
      · rename_i h; simp [smGet, ih]; intro h'; exact absurd h'.symm h

theorem smGet_smInsert_other (a v : α) (k j : Nat) (l : List (Nat × α)) (h : j ≠ k) :
    smGet a j (smInsert k v l) = smGet a j l := by
  induction l with
  | nil => simp [smInsert, smGet, Ne.symm h]
  | cons p l ih =>
    simp only [smInsert]
    split
    · simp [smGet, Ne.symm h]
    · split
      · rename_i h'; subst h'; simp [smGet, Ne.symm h]
      · simp [smGet, ih]

theorem smGet_smErase_other (a : α) (k j : Nat) (l : List (Nat × α)) (h : j ≠ k) :
    smGet a j (smErase k l) = smGet a j l := by
  induction l with
  | nil => rfl
  | cons p l ih =>
    simp only [smErase]
    split
    · rename_i h'; subst h'; simp [smGet, Ne.symm h, ih]
    · simp [smGet, ih]

@[simp] theorem smGet_smErase_same (a : α) (k : Nat) (l : List (Nat × α)) : smGet a k (smErase k l) = a := by
  induction l with
  | nil => rfl
  | cons p l ih =>
    simp only [smErase]
    split
    · exact ih
    · rename_i h; simp [smGet, h, ih]

/-- Every key of a map lies above a bound. -/
def above (n : Nat) (l : List (Nat × α)) : Prop := ∀ p ∈ l, n < p.1

/-- The canonical form, as a proposition by recursion. -/
def smCanon (dflt : Nat → α) : List (Nat × α) → Prop
  | [] => True
  | p :: l => p.2 ≠ dflt p.1 ∧ above p.1 l ∧ smCanon dflt l

theorem smWf_iff [DecidableEq α] (dflt : Nat → α) (l : List (Nat × α)) : smWf dflt l = true ↔ smCanon dflt l := by
  induction l with
  | nil => simp [smWf, smCanon]
  | cons p l ih =>
    cases l with
    | nil => simp [smWf, smCanon, above]
    | cons q l =>
      simp only [smWf, Bool.and_eq_true, decide_eq_true_eq, ih]
      constructor
      · rintro ⟨⟨h1, h2⟩, h3⟩
        refine ⟨h1, ?_, h3⟩
        intro r hr
        rcases List.mem_cons.1 hr with rfl | hr
        · exact h2
        · exact Nat.lt_trans h2 (h3.2.1 r hr)
      · rintro ⟨h1, h2, h3⟩
        exact ⟨⟨h1, h2 q List.mem_cons_self⟩, h3⟩

theorem above_smErase (n k : Nat) (l : List (Nat × α)) (h : above n l) : above n (smErase k l) := by
  induction l with
  | nil => exact h
  | cons p l ih =>
    simp only [smErase]
    split
    · exact ih (fun q hq => h q (List.mem_cons_of_mem _ hq))
    · intro q hq
      rcases List.mem_cons.1 hq with rfl | hq
      · exact h _ List.mem_cons_self
      · exact ih (fun r hr => h r (List.mem_cons_of_mem _ hr)) q hq

theorem above_smInsert (n k : Nat) (v : α) (l : List (Nat × α)) (h : above n l) (hk : n < k) : above n (smInsert k v l) := by
  induction l with
  | nil => intro q hq; simp [smInsert] at hq; subst hq; exact hk
  | cons p l ih =>
    have hp := h p List.mem_cons_self
    have hl : above n l := fun r hr => h r (List.mem_cons_of_mem _ hr)
    simp only [smInsert]
    split
    · intro q hq
      rcases List.mem_cons.1 hq with rfl | hq
      · exact hk
      · exact h q hq
    · split
      · intro q hq
        rcases List.mem_cons.1 hq with rfl | hq
        · exact hk
        · exact hl q hq
      · intro q hq
        rcases List.mem_cons.1 hq with rfl | hq
        · exact hp
        · exact ih hl q hq

theorem smCanon_smErase (dflt : Nat → α) (k : Nat) (l : List (Nat × α)) (h : smCanon dflt l) :
    smCanon dflt (smErase k l) := by
  induction l with
  | nil => exact h
  | cons p l ih =>
    simp only [smErase]
    split
    · exact ih h.2.2
    · exact ⟨h.1, above_smErase _ _ _ h.2.1, ih h.2.2⟩

theorem smCanon_smInsert (dflt : Nat → α) (k : Nat) (v : α) (l : List (Nat × α)) (h : smCanon dflt l) (hv : v ≠ dflt k) :
    smCanon dflt (smInsert k v l) := by
  induction l with
  | nil => exact ⟨hv, (fun _ h => nomatch h), trivial⟩
  | cons p l ih =>
    simp only [smInsert]
    split
    · rename_i hk
      refine ⟨hv, ?_, h⟩
      intro q hq
      rcases List.mem_cons.1 hq with rfl | hq
      · exact hk
      · exact Nat.lt_trans hk (h.2.1 q hq)
    · split
      · rename_i hk; exact ⟨hv, by have := h.2.1; simpa [hk] using this, h.2.2⟩
      · exact ⟨h.1, above_smInsert _ _ _ _ h.2.1 (by omega), ih h.2.2⟩

variable [DecidableEq α]

/-- A read after a write to the same key. -/
@[simp] theorem smGet_smSet_same (a v : α) (k : Nat) (l : List (Nat × α)) : smGet a k (smSet a k v l) = v := by
  unfold smSet
  split
  · rename_i hv; rw [hv]; simp
  · simp

/-- A write leaves every other key alone. -/
theorem smGet_smSet_other (a b v : α) (k j : Nat) (l : List (Nat × α)) (h : j ≠ k) :
    smGet a j (smSet b k v l) = smGet a j l := by
  unfold smSet
  split
  · exact smGet_smErase_other a k j l h
  · exact smGet_smInsert_other a v k j l h

/-- A write keeps the canonical form. -/
theorem smCanon_smSet (dflt : Nat → α) (k : Nat) (v : α) (l : List (Nat × α)) (h : smCanon dflt l) :
    smCanon dflt (smSet (dflt k) k v l) := by
  unfold smSet
  split
  · exact smCanon_smErase dflt k l h
  · rename_i hv; exact smCanon_smInsert dflt k v l h hv

theorem smWf_smSet (dflt : Nat → α) (k : Nat) (v : α) (l : List (Nat × α)) (h : smWf dflt l = true) :
    smWf dflt (smSet (dflt k) k v l) = true :=
  (smWf_iff _ _).2 (smCanon_smSet dflt k v l ((smWf_iff _ _).1 h))

theorem smWf_smErase (dflt : Nat → α) (k : Nat) (l : List (Nat × α)) (h : smWf dflt l = true) :
    smWf dflt (smErase k l) = true :=
  (smWf_iff _ _).2 (smCanon_smErase dflt k l ((smWf_iff _ _).1 h))

theorem smWf_filter (dflt : Nat → α) (p : Nat × α → Bool) (l : List (Nat × α)) (h : smWf dflt l = true) :
    smWf dflt (l.filter p) = true := by
  rw [smWf_iff] at *
  induction l with
  | nil => exact h
  | cons q l ih =>
    simp only [List.filter_cons]
    split
    · exact ⟨h.1, fun r hr => h.2.1 r (List.mem_filter.1 hr).1, ih h.2.2⟩
    · exact ih h.2.2

end Sys2Proof.Machine
end

