-- ==== Sys2Proof/Laws/Registers.lean ====
section
/-! SUPPORT. Registers: a field reads back what was stored in it, and a store leaves every other register alone. -/

namespace Sys2Proof.Machine

@[simp] theorem Die.reg_setReg_same (x : Die) (off : Nat) (v : Word) : (x.setReg off v).reg off = v := by
  simp [Die.reg, Die.setReg]

theorem Die.reg_setReg_other (x : Die) (off o : Nat) (v : Word) (h : o ≠ off) : (x.setReg off v).reg o = x.reg o := by
  simp [Die.reg, Die.setReg, smGet_smSet_other _ _ _ _ _ _ h]

/-- Bit `i` of a word. -/
theorem bits_testBit (w : Word) (hi lo i : Nat) :
    (bits w hi lo).testBit i = (decide (i < hi + 1 - lo) && w.getLsbD (lo + i)) := by
  simp [bits, Nat.testBit_mod_two_pow, Nat.testBit_shiftRight, BitVec.getLsbD]

theorem fieldMask_bit (hi lo i : Nat) :
    (fieldMask hi lo).getLsbD i = (decide (i < 32) && decide (lo ≤ i) && decide (i - lo < hi + 1 - lo)) := by
  simp only [fieldMask, BitVec.getLsbD_ofNat, Nat.testBit_shiftLeft, Nat.testBit_two_pow_sub_one]
  by_cases h : lo ≤ i <;> simp [h]

theorem putBits_bit (w : Word) (hi lo v i : Nat) (h : i < 32) :
    (putBits w hi lo v).getLsbD i =
      if lo ≤ i ∧ i - lo < hi + 1 - lo then v.testBit (i - lo) else w.getLsbD i := by
  simp only [putBits, BitVec.getLsbD_or, BitVec.getLsbD_and, BitVec.getLsbD_not, fieldMask_bit, BitVec.getLsbD_ofNat,
    Nat.testBit_shiftLeft, h]
  by_cases h1 : lo ≤ i <;> by_cases h2 : i - lo < hi + 1 - lo <;> simp [h1, h2]

/-- A field reads back what is put in it, cut to its width. -/
theorem bits_putBits_same (w : Word) (hi lo v : Nat) (h : hi < 32) :
    bits (putBits w hi lo v) hi lo = v % 2 ^ (hi + 1 - lo) := by
  apply Nat.eq_of_testBit_eq
  intro i
  rw [bits_testBit, Nat.testBit_mod_two_pow]
  by_cases hi' : i < hi + 1 - lo
  · have h1 : lo + i < 32 := by omega
    have h2 : lo + i - lo < hi + 1 - lo := by omega
    rw [putBits_bit _ _ _ _ _ h1]; simp [hi']
  · simp [hi']

/-- A field apart from it keeps its value. -/
theorem bits_putBits_other (w : Word) (hi lo v h2 l2 : Nat) (h : h2 < 32) (hd : h2 < lo ∨ hi < l2) :
    bits (putBits w hi lo v) h2 l2 = bits w h2 l2 := by
  apply Nat.eq_of_testBit_eq
  intro i
  rw [bits_testBit, bits_testBit]
  by_cases hi' : i < h2 + 1 - l2
  · have h1 : l2 + i < 32 := by omega
    have h3 : ¬(lo ≤ l2 + i ∧ l2 + i - lo < hi + 1 - lo) := by omega
    rw [putBits_bit _ _ _ _ _ h1, if_neg h3]
  · simp [hi']

theorem Die.fld_put_same (x : Die) (f : Fld) (v : Nat) (h : f.hi < 32) : (x.put f v).fld f = v % 2 ^ (f.hi + 1 - f.lo) := by
  simp [Die.fld, Die.put, bits_putBits_same _ _ _ _ h]

theorem Die.fld_put_other (x : Die) (f g : Fld) (v : Nat) (h : g.off ≠ f.off) : (x.put f v).fld g = x.fld g := by
  simp [Die.fld, Die.put, Die.reg_setReg_other _ _ _ _ h]

theorem Chip.fld_put_same (c : Chip) (d : DieId) (f : Fld) (v : Nat) (h : f.hi < 32) :
    (c.put d f v).fld d f = v % 2 ^ (f.hi + 1 - f.lo) := by
  simp [Chip.fld, Chip.put, Die.fld_put_same _ _ _ h]

theorem Chip.fld_put_other (c : Chip) (d : DieId) (f g : Fld) (v : Nat) (h : g.off ≠ f.off) :
    (c.put d f v).fld d g = c.fld d g := by
  simp [Chip.fld, Chip.put, Die.fld_put_other _ _ _ _ h]

/-! ### What a store of fields leaves: everything but the registers of its die -/

@[simp] theorem Die.tables_put (x : Die) (f : Fld) (v : Nat) : (x.put f v).tables = x.tables := rfl
@[simp] theorem Die.tables_bumpBy (x : Die) (f : Fld) (n : Nat) : (x.bumpBy f n).tables = x.tables := rfl
@[simp] theorem Die.caps_put (x : Die) (f : Fld) (v : Nat) : (x.put f v).caps = x.caps := rfl
@[simp] theorem Die.caps_bumpBy (x : Die) (f : Fld) (n : Nat) : (x.bumpBy f n).caps = x.caps := rfl
@[simp] theorem Die.evl_put (x : Die) (f : Fld) (v : Nat) : (x.put f v).evl = x.evl := rfl
@[simp] theorem Die.evl_bumpBy (x : Die) (f : Fld) (n : Nat) : (x.bumpBy f n).evl = x.evl := rfl
@[simp] theorem Die.evt_put (x : Die) (f : Fld) (v : Nat) : (x.put f v).evt = x.evt := rfl
@[simp] theorem Die.evt_bumpBy (x : Die) (f : Fld) (n : Nat) : (x.bumpBy f n).evt = x.evt := rfl
@[simp] theorem Die.mc0_put (x : Die) (f : Fld) (v : Nat) : (x.put f v).mc0 = x.mc0 := rfl
@[simp] theorem Die.mc0_bumpBy (x : Die) (f : Fld) (n : Nat) : (x.bumpBy f n).mc0 = x.mc0 := rfl
@[simp] theorem Die.mc1_put (x : Die) (f : Fld) (v : Nat) : (x.put f v).mc1 = x.mc1 := rfl
@[simp] theorem Die.mc1_bumpBy (x : Die) (f : Fld) (n : Nat) : (x.bumpBy f n).mc1 = x.mc1 := rfl
@[simp] theorem Die.port_put (x : Die) (f : Fld) (v : Nat) : (x.put f v).port = x.port := rfl
@[simp] theorem Die.port_bumpBy (x : Die) (f : Fld) (n : Nat) : (x.bumpBy f n).port = x.port := rfl
@[simp] theorem Die.gr_put (x : Die) (f : Fld) (v : Nat) : (x.put f v).gr = x.gr := rfl
@[simp] theorem Die.gr_bumpBy (x : Die) (f : Fld) (n : Nat) : (x.bumpBy f n).gr = x.gr := rfl
@[simp] theorem Die.grist_put (x : Die) (f : Fld) (v : Nat) : (x.put f v).grist = x.grist := rfl
@[simp] theorem Die.grist_bumpBy (x : Die) (f : Fld) (n : Nat) : (x.bumpBy f n).grist = x.grist := rfl
@[simp] theorem Die.mash_put (x : Die) (f : Fld) (v : Nat) : (x.put f v).mash = x.mash := rfl
@[simp] theorem Die.mash_bumpBy (x : Die) (f : Fld) (n : Nat) : (x.bumpBy f n).mash = x.mash := rfl
@[simp] theorem Die.kiln_put (x : Die) (f : Fld) (v : Nat) : (x.put f v).kiln = x.kiln := rfl
@[simp] theorem Die.kiln_bumpBy (x : Die) (f : Fld) (n : Nat) : (x.bumpBy f n).kiln = x.kiln := rfl
@[simp] theorem Die.view_put (x : Die) (f : Fld) (v : Nat) : (x.put f v).view = x.view := rfl
@[simp] theorem Die.view_bumpBy (x : Die) (f : Fld) (n : Nat) : (x.bumpBy f n).view = x.view := rfl
@[simp] theorem Die.pastViews_put (x : Die) (f : Fld) (v : Nat) : (x.put f v).pastViews = x.pastViews := rfl
@[simp] theorem Die.pastViews_bumpBy (x : Die) (f : Fld) (n : Nat) : (x.bumpBy f n).pastViews = x.pastViews := rfl
@[simp] theorem Die.mapCheck_put (x : Die) (f : Fld) (v : Nat) : (x.put f v).mapCheck = x.mapCheck := rfl
@[simp] theorem Die.mapCheck_bumpBy (x : Die) (f : Fld) (n : Nat) : (x.bumpBy f n).mapCheck = x.mapCheck := rfl
@[simp] theorem Die.cask_put (x : Die) (f : Fld) (v : Nat) : (x.put f v).cask = x.cask := rfl
@[simp] theorem Die.cask_bumpBy (x : Die) (f : Fld) (n : Nat) : (x.bumpBy f n).cask = x.cask := rfl
@[simp] theorem Die.blnk_put (x : Die) (f : Fld) (v : Nat) : (x.put f v).blnk = x.blnk := rfl
@[simp] theorem Die.blnk_bumpBy (x : Die) (f : Fld) (n : Nat) : (x.bumpBy f n).blnk = x.blnk := rfl
@[simp] theorem Die.badTables_put (x : Die) (f : Fld) (v : Nat) : (x.put f v).badTables = x.badTables := rfl
@[simp] theorem Die.badTables_bumpBy (x : Die) (f : Fld) (n : Nat) : (x.bumpBy f n).badTables = x.badTables := rfl
@[simp] theorem Die.badLogged_put (x : Die) (f : Fld) (v : Nat) : (x.put f v).badLogged = x.badLogged := rfl
@[simp] theorem Die.badLogged_bumpBy (x : Die) (f : Fld) (n : Nat) : (x.bumpBy f n).badLogged = x.badLogged := rfl
@[simp] theorem Die.dram_put (x : Die) (f : Fld) (v : Nat) : (x.put f v).dram = x.dram := rfl
@[simp] theorem Die.dram_bumpBy (x : Die) (f : Fld) (n : Nat) : (x.bumpBy f n).dram = x.dram := rfl
@[simp] theorem Die.ilk_put (x : Die) (f : Fld) (v : Nat) : (x.put f v).ilk = x.ilk := rfl
@[simp] theorem Die.ilk_bumpBy (x : Die) (f : Fld) (n : Nat) : (x.bumpBy f n).ilk = x.ilk := rfl
@[simp] theorem Die.jlog_put (x : Die) (f : Fld) (v : Nat) : (x.put f v).jlog = x.jlog := rfl
@[simp] theorem Die.jlog_bumpBy (x : Die) (f : Fld) (n : Nat) : (x.bumpBy f n).jlog = x.jlog := rfl
@[simp] theorem Die.chk_put (x : Die) (f : Fld) (v : Nat) : (x.put f v).chk = x.chk := rfl
@[simp] theorem Die.chk_bumpBy (x : Die) (f : Fld) (n : Nat) : (x.bumpBy f n).chk = x.chk := rfl
@[simp] theorem Die.pendingCopy_put (x : Die) (f : Fld) (v : Nat) : (x.put f v).pendingCopy = x.pendingCopy := rfl
@[simp] theorem Die.pendingCopy_bumpBy (x : Die) (f : Fld) (n : Nat) : (x.bumpBy f n).pendingCopy = x.pendingCopy := rfl
@[simp] theorem Die.laneCal_put (x : Die) (f : Fld) (v : Nat) : (x.put f v).laneCal = x.laneCal := rfl
@[simp] theorem Die.laneCal_bumpBy (x : Die) (f : Fld) (n : Nat) : (x.bumpBy f n).laneCal = x.laneCal := rfl
@[simp] theorem Die.cellPend_put (x : Die) (f : Fld) (v : Nat) : (x.put f v).cellPend = x.cellPend := rfl
@[simp] theorem Die.cellPend_bumpBy (x : Die) (f : Fld) (n : Nat) : (x.bumpBy f n).cellPend = x.cellPend := rfl
@[simp] theorem Die.cellFault_put (x : Die) (f : Fld) (v : Nat) : (x.put f v).cellFault = x.cellFault := rfl
@[simp] theorem Die.cellFault_bumpBy (x : Die) (f : Fld) (n : Nat) : (x.bumpBy f n).cellFault = x.cellFault := rfl
@[simp] theorem Die.fieldPend_put (x : Die) (f : Fld) (v : Nat) : (x.put f v).fieldPend = x.fieldPend := rfl
@[simp] theorem Die.fieldPend_bumpBy (x : Die) (f : Fld) (n : Nat) : (x.bumpBy f n).fieldPend = x.fieldPend := rfl
@[simp] theorem Die.fieldFault_put (x : Die) (f : Fld) (v : Nat) : (x.put f v).fieldFault = x.fieldFault := rfl
@[simp] theorem Die.fieldFault_bumpBy (x : Die) (f : Fld) (n : Nat) : (x.bumpBy f n).fieldFault = x.fieldFault := rfl
@[simp] theorem Die.topPend_put (x : Die) (f : Fld) (v : Nat) : (x.put f v).topPend = x.topPend := rfl
@[simp] theorem Die.topPend_bumpBy (x : Die) (f : Fld) (n : Nat) : (x.bumpBy f n).topPend = x.topPend := rfl
@[simp] theorem Die.topFault_put (x : Die) (f : Fld) (v : Nat) : (x.put f v).topFault = x.topFault := rfl
@[simp] theorem Die.topFault_bumpBy (x : Die) (f : Fld) (n : Nat) : (x.bumpBy f n).topFault = x.topFault := rfl
@[simp] theorem Die.unitsNow_put (x : Die) (f : Fld) (v : Nat) : (x.put f v).unitsNow = x.unitsNow := rfl
@[simp] theorem Die.unitsNow_bumpBy (x : Die) (f : Fld) (n : Nat) : (x.bumpBy f n).unitsNow = x.unitsNow := rfl
@[simp] theorem Die.setNow_put (x : Die) (f : Fld) (v : Nat) : (x.put f v).setNow = x.setNow := rfl
@[simp] theorem Die.clockFault_put (x : Die) (f : Fld) (v : Nat) : (x.put f v).clockFault = x.clockFault := rfl
@[simp] theorem Die.clockFault_bumpBy (x : Die) (f : Fld) (n : Nat) : (x.bumpBy f n).clockFault = x.clockFault := rfl
@[simp] theorem Die.hold_put (x : Die) (f : Fld) (v : Nat) : (x.put f v).hold = x.hold := rfl
@[simp] theorem Die.hold_bumpBy (x : Die) (f : Fld) (n : Nat) : (x.bumpBy f n).hold = x.hold := rfl

theorem Chip.puts_shape (c : Chip) (d : DieId) (l : List (Fld × Nat)) :
    c.puts d l = c.onDie d fun x => l.foldl (fun x p => x.put p.1 p.2) x := by
  induction l generalizing c with
  | nil => cases d <;> rfl
  | cons p l ih => simp only [Chip.puts, List.foldl_cons] at ih ⊢; rw [ih]; cases d <;> rfl

theorem Die.puts_regs (x : Die) (l : List (Fld × Nat)) :
    ∃ r, l.foldl (fun x p => x.put p.1 p.2) x = { x with regs := r } := by
  induction l generalizing x with
  | nil => exact ⟨x.regs, rfl⟩
  | cons p l ih => obtain ⟨r, h⟩ := ih (x.put p.1 p.2); exact ⟨r, by rw [List.foldl_cons, h]; rfl⟩

@[simp] theorem Chip.die_put (c : Chip) (d : DieId) (f : Fld) (v : Nat) : (c.put d f v).die d = (c.die d).put f v := by
  cases d <;> rfl
@[simp] theorem Chip.die_bump (c : Chip) (d : DieId) (f : Fld) : (c.bump d f).die d = (c.die d).bumpBy f 1 := by
  cases d <;> rfl
@[simp] theorem Chip.die_puts (c : Chip) (d : DieId) (l : List (Fld × Nat)) :
    (c.puts d l).die d = l.foldl (fun x p => x.put p.1 p.2) (c.die d) := by rw [c.puts_shape]; simp

@[simp] theorem Chip.variant_put (c : Chip) (d : DieId) (f : Fld) (v : Nat) : (c.put d f v).variant = c.variant := by cases d <;> rfl
@[simp] theorem Chip.variant_bump (c : Chip) (d : DieId) (f : Fld) : (c.bump d f).variant = c.variant := by cases d <;> rfl
@[simp] theorem Chip.variant_puts (c : Chip) (d : DieId) (l : List (Fld × Nat)) : (c.puts d l).variant = c.variant := by
  rw [c.puts_shape]; simp
@[simp] theorem Chip.now_put (c : Chip) (d : DieId) (f : Fld) (v : Nat) : (c.put d f v).now = c.now := by cases d <;> rfl
@[simp] theorem Chip.now_bump (c : Chip) (d : DieId) (f : Fld) : (c.bump d f).now = c.now := by cases d <;> rfl
@[simp] theorem Chip.now_puts (c : Chip) (d : DieId) (l : List (Fld × Nat)) : (c.puts d l).now = c.now := by
  rw [c.puts_shape]; simp
@[simp] theorem Chip.time_put (c : Chip) (d : DieId) (f : Fld) (v : Nat) : (c.put d f v).time = c.time := by cases d <;> rfl
@[simp] theorem Chip.time_bump (c : Chip) (d : DieId) (f : Fld) : (c.bump d f).time = c.time := by cases d <;> rfl
@[simp] theorem Chip.time_puts (c : Chip) (d : DieId) (l : List (Fld × Nat)) : (c.puts d l).time = c.time := by
  rw [c.puts_shape]; simp
@[simp] theorem Chip.inc_put (c : Chip) (d : DieId) (f : Fld) (v : Nat) : (c.put d f v).inc = c.inc := by cases d <;> rfl
@[simp] theorem Chip.inc_bump (c : Chip) (d : DieId) (f : Fld) : (c.bump d f).inc = c.inc := by cases d <;> rfl
@[simp] theorem Chip.inc_puts (c : Chip) (d : DieId) (l : List (Fld × Nat)) : (c.puts d l).inc = c.inc := by
  rw [c.puts_shape]; simp
@[simp] theorem Chip.evune_put (c : Chip) (d : DieId) (f : Fld) (v : Nat) : (c.put d f v).evune = c.evune := by cases d <;> rfl
@[simp] theorem Chip.evune_bump (c : Chip) (d : DieId) (f : Fld) : (c.bump d f).evune = c.evune := by cases d <;> rfl
@[simp] theorem Chip.evune_puts (c : Chip) (d : DieId) (l : List (Fld × Nat)) : (c.puts d l).evune = c.evune := by
  rw [c.puts_shape]; simp
@[simp] theorem Chip.ptp_put (c : Chip) (d : DieId) (f : Fld) (v : Nat) : (c.put d f v).ptp = c.ptp := by cases d <;> rfl
@[simp] theorem Chip.ptp_bump (c : Chip) (d : DieId) (f : Fld) : (c.bump d f).ptp = c.ptp := by cases d <;> rfl
@[simp] theorem Chip.ptp_puts (c : Chip) (d : DieId) (l : List (Fld × Nat)) : (c.puts d l).ptp = c.ptp := by
  rw [c.puts_shape]; simp
@[simp] theorem Chip.chans_put (c : Chip) (d : DieId) (f : Fld) (v : Nat) : (c.put d f v).chans = c.chans := by cases d <;> rfl
@[simp] theorem Chip.chans_bump (c : Chip) (d : DieId) (f : Fld) : (c.bump d f).chans = c.chans := by cases d <;> rfl
@[simp] theorem Chip.chans_puts (c : Chip) (d : DieId) (l : List (Fld × Nat)) : (c.puts d l).chans = c.chans := by
  rw [c.puts_shape]; simp
@[simp] theorem Chip.sched_put (c : Chip) (d : DieId) (f : Fld) (v : Nat) : (c.put d f v).sched = c.sched := by cases d <;> rfl
@[simp] theorem Chip.sched_bump (c : Chip) (d : DieId) (f : Fld) : (c.bump d f).sched = c.sched := by cases d <;> rfl
@[simp] theorem Chip.sched_puts (c : Chip) (d : DieId) (l : List (Fld × Nat)) : (c.puts d l).sched = c.sched := by
  rw [c.puts_shape]; simp
@[simp] theorem Chip.defl_put (c : Chip) (d : DieId) (f : Fld) (v : Nat) : (c.put d f v).defl = c.defl := by cases d <;> rfl
@[simp] theorem Chip.defl_bump (c : Chip) (d : DieId) (f : Fld) : (c.bump d f).defl = c.defl := by cases d <;> rfl
@[simp] theorem Chip.defl_puts (c : Chip) (d : DieId) (l : List (Fld × Nat)) : (c.puts d l).defl = c.defl := by
  rw [c.puts_shape]; simp
@[simp] theorem Chip.axis0_put (c : Chip) (d : DieId) (f : Fld) (v : Nat) : (c.put d f v).axis0 = c.axis0 := by cases d <;> rfl
@[simp] theorem Chip.axis0_bump (c : Chip) (d : DieId) (f : Fld) : (c.bump d f).axis0 = c.axis0 := by cases d <;> rfl
@[simp] theorem Chip.axis0_puts (c : Chip) (d : DieId) (l : List (Fld × Nat)) : (c.puts d l).axis0 = c.axis0 := by
  rw [c.puts_shape]; simp
@[simp] theorem Chip.axis1_put (c : Chip) (d : DieId) (f : Fld) (v : Nat) : (c.put d f v).axis1 = c.axis1 := by cases d <;> rfl
@[simp] theorem Chip.axis1_bump (c : Chip) (d : DieId) (f : Fld) : (c.bump d f).axis1 = c.axis1 := by cases d <;> rfl
@[simp] theorem Chip.axis1_puts (c : Chip) (d : DieId) (l : List (Fld × Nat)) : (c.puts d l).axis1 = c.axis1 := by
  rw [c.puts_shape]; simp
@[simp] theorem Chip.cfg_put (c : Chip) (d : DieId) (f : Fld) (v : Nat) : (c.put d f v).cfg = c.cfg := by cases d <;> rfl
@[simp] theorem Chip.cfg_bump (c : Chip) (d : DieId) (f : Fld) : (c.bump d f).cfg = c.cfg := by cases d <;> rfl
@[simp] theorem Chip.cfg_puts (c : Chip) (d : DieId) (l : List (Fld × Nat)) : (c.puts d l).cfg = c.cfg := by
  rw [c.puts_shape]; simp
@[simp] theorem Chip.nv_put (c : Chip) (d : DieId) (f : Fld) (v : Nat) : (c.put d f v).nv = c.nv := by cases d <;> rfl
@[simp] theorem Chip.nv_bump (c : Chip) (d : DieId) (f : Fld) : (c.bump d f).nv = c.nv := by cases d <;> rfl
@[simp] theorem Chip.nv_puts (c : Chip) (d : DieId) (l : List (Fld × Nat)) : (c.puts d l).nv = c.nv := by
  rw [c.puts_shape]; simp
@[simp] theorem Chip.ownId_put (c : Chip) (d : DieId) (f : Fld) (v : Nat) : (c.put d f v).ownId = c.ownId := by cases d <;> rfl
@[simp] theorem Chip.ownId_bump (c : Chip) (d : DieId) (f : Fld) : (c.bump d f).ownId = c.ownId := by cases d <;> rfl
@[simp] theorem Chip.ownId_puts (c : Chip) (d : DieId) (l : List (Fld × Nat)) : (c.puts d l).ownId = c.ownId := by
  rw [c.puts_shape]; simp
@[simp] theorem Chip.memberGates_put (c : Chip) (d : DieId) (f : Fld) (v : Nat) : (c.put d f v).memberGates = c.memberGates := by cases d <;> rfl
@[simp] theorem Chip.memberGates_bump (c : Chip) (d : DieId) (f : Fld) : (c.bump d f).memberGates = c.memberGates := by cases d <;> rfl
@[simp] theorem Chip.memberGates_puts (c : Chip) (d : DieId) (l : List (Fld × Nat)) : (c.puts d l).memberGates = c.memberGates := by
  rw [c.puts_shape]; simp
@[simp] theorem Chip.herd_put (c : Chip) (d : DieId) (f : Fld) (v : Nat) : (c.put d f v).herd = c.herd := by cases d <;> rfl
@[simp] theorem Chip.herd_bump (c : Chip) (d : DieId) (f : Fld) : (c.bump d f).herd = c.herd := by cases d <;> rfl
@[simp] theorem Chip.herd_puts (c : Chip) (d : DieId) (l : List (Fld × Nat)) : (c.puts d l).herd = c.herd := by
  rw [c.puts_shape]; simp
@[simp] theorem Chip.cal_put (c : Chip) (d : DieId) (f : Fld) (v : Nat) : (c.put d f v).cal = c.cal := by cases d <;> rfl
@[simp] theorem Chip.cal_bump (c : Chip) (d : DieId) (f : Fld) : (c.bump d f).cal = c.cal := by cases d <;> rfl
@[simp] theorem Chip.cal_puts (c : Chip) (d : DieId) (l : List (Fld × Nat)) : (c.puts d l).cal = c.cal := by
  rw [c.puts_shape]; simp
@[simp] theorem Chip.pwr_put (c : Chip) (d : DieId) (f : Fld) (v : Nat) : (c.put d f v).pwr = c.pwr := by cases d <;> rfl
@[simp] theorem Chip.pwr_bump (c : Chip) (d : DieId) (f : Fld) : (c.bump d f).pwr = c.pwr := by cases d <;> rfl
@[simp] theorem Chip.pwr_puts (c : Chip) (d : DieId) (l : List (Fld × Nat)) : (c.puts d l).pwr = c.pwr := by
  rw [c.puts_shape]; simp
@[simp] theorem Chip.start_put (c : Chip) (d : DieId) (f : Fld) (v : Nat) : (c.put d f v).start = c.start := by cases d <;> rfl
@[simp] theorem Chip.start_bump (c : Chip) (d : DieId) (f : Fld) : (c.bump d f).start = c.start := by cases d <;> rfl
@[simp] theorem Chip.start_puts (c : Chip) (d : DieId) (l : List (Fld × Nat)) : (c.puts d l).start = c.start := by
  rw [c.puts_shape]; simp
@[simp] theorem Chip.out_put (c : Chip) (d : DieId) (f : Fld) (v : Nat) : (c.put d f v).out = c.out := by cases d <;> rfl
@[simp] theorem Chip.out_bump (c : Chip) (d : DieId) (f : Fld) : (c.bump d f).out = c.out := by cases d <;> rfl
@[simp] theorem Chip.out_puts (c : Chip) (d : DieId) (l : List (Fld × Nat)) : (c.puts d l).out = c.out := by
  rw [c.puts_shape]; simp
@[simp] theorem Chip.free_put (c : Chip) (d : DieId) (f : Fld) (v : Nat) : (c.put d f v).free = c.free := by cases d <;> rfl
@[simp] theorem Chip.free_bump (c : Chip) (d : DieId) (f : Fld) : (c.bump d f).free = c.free := by cases d <;> rfl
@[simp] theorem Chip.free_puts (c : Chip) (d : DieId) (l : List (Fld × Nat)) : (c.puts d l).free = c.free := by
  rw [c.puts_shape]; simp

end Sys2Proof.Machine
end

