-- ==== Sys2Proof/Laws/Events.lean ====
section
/-! SUPPORT. An occurrence of a source: all it can change is the interrupt controller of its die, that die's message
queue, and the count of lost messages; the source's event count goes up by 1 and stops at 255. -/

namespace Sys2Proof.Machine

theorem Chip.queueMsg_shape (c : Chip) (d : DieId) (k m n : Nat) : ∃ p r t,
    c.queueMsg d k m n = c.onDie d fun x => { x with port := p, regs := r, setNow := t } := by
  unfold Chip.queueMsg
  split
  · exact ⟨{ (c.die d).port with queue := (c.die d).port.queue ++ [⟨k, m, n, c.time⟩] }, (c.die d).regs, (c.die d).setNow,
      by cases d <;> rfl⟩
  · exact ⟨{ (c.die d).port with lostFlag := true }, ((c.die d).bump F.CTRL_MSG_STATUS_lost).regs,
      ((c.die d).bump F.CTRL_MSG_STATUS_lost).setNow, by cases d <;> rfl⟩

theorem Chip.occur_shape (c : Chip) (d : DieId) (n : Nat) : ∃ v, c.occur d n = c.onDie d fun x => { x with evt := v } := by
  unfold Chip.occur Chip.onEvt
  exact ⟨{ (c.die d).evt with
    counts := smSet 0 n (satAdd 255 ((c.die d).evtCount n) 1) (c.die d).evt.counts
    fresh := smInsert n (satAdd 255 (smGet 0 n (c.die d).evt.fresh) 1) (c.die d).evt.fresh
    rose := if (c.die d).evtCount n = 0 then smInsert n c.now (c.die d).evt.rose else (c.die d).evt.rose },
    by cases d <;> rfl⟩

/-- All that `raise` can change: the interrupt controller, the port and the registers of one die. -/
theorem Chip.raise_shape (c : Chip) (d : DieId) (n : Nat) : ∃ v p r t,
    c.raise d n = c.onDie d fun x => { x with evt := v, port := p, regs := r, setNow := t } := by
  unfold Chip.raise
  split
  · exact ⟨(c.die d).evt, (c.die d).port, (c.die d).regs, (c.die d).setNow, by cases d <;> rfl⟩
  · obtain ⟨v, hv⟩ := c.occur_shape d n
    simp only [hv]
    split
    · obtain ⟨p, r, t, h⟩ := ((c.onDie d fun x => { x with evt := v }).onEvt d fun v =>
        { v with sw := smErase n v.sw, hard := smInsert n 1 v.hard }).queueMsg_shape d 2 n 1
      rw [h]
      exact ⟨{ v with sw := smErase n v.sw, hard := smInsert n 1 v.hard }, p, r, t, by cases d <;> rfl⟩
    · exact ⟨{ v with sw := smErase n v.sw, hard := smInsert n 1 v.hard }, (c.die d).port, (c.die d).regs, (c.die d).setNow,
        by cases d <;> rfl⟩

theorem Chip.die_raise_other (c : Chip) (d d' : DieId) (n : Nat) (h : d' ≠ d) : (c.raise d n).die d' = c.die d' := by
  obtain ⟨v, p, r, t, h1⟩ := c.raise_shape d n
  rw [h1, Chip.die_onDie_other _ _ _ _ h]

@[simp] theorem Chip.variant_raise (c : Chip) (d : DieId) (n : Nat) : (c.raise d n).variant = c.variant := by
  obtain ⟨v, p, r, t, h⟩ := c.raise_shape d n; simp [h]
@[simp] theorem Chip.now_raise (c : Chip) (d : DieId) (n : Nat) : (c.raise d n).now = c.now := by
  obtain ⟨v, p, r, t, h⟩ := c.raise_shape d n; simp [h]
@[simp] theorem Chip.time_raise (c : Chip) (d : DieId) (n : Nat) : (c.raise d n).time = c.time := by
  obtain ⟨v, p, r, t, h⟩ := c.raise_shape d n; simp [h]
@[simp] theorem Chip.inc_raise (c : Chip) (d : DieId) (n : Nat) : (c.raise d n).inc = c.inc := by
  obtain ⟨v, p, r, t, h⟩ := c.raise_shape d n; simp [h]
@[simp] theorem Chip.evune_raise (c : Chip) (d : DieId) (n : Nat) : (c.raise d n).evune = c.evune := by
  obtain ⟨v, p, r, t, h⟩ := c.raise_shape d n; simp [h]
@[simp] theorem Chip.ptp_raise (c : Chip) (d : DieId) (n : Nat) : (c.raise d n).ptp = c.ptp := by
  obtain ⟨v, p, r, t, h⟩ := c.raise_shape d n; simp [h]
@[simp] theorem Chip.chans_raise (c : Chip) (d : DieId) (n : Nat) : (c.raise d n).chans = c.chans := by
  obtain ⟨v, p, r, t, h⟩ := c.raise_shape d n; simp [h]
@[simp] theorem Chip.sched_raise (c : Chip) (d : DieId) (n : Nat) : (c.raise d n).sched = c.sched := by
  obtain ⟨v, p, r, t, h⟩ := c.raise_shape d n; simp [h]
@[simp] theorem Chip.defl_raise (c : Chip) (d : DieId) (n : Nat) : (c.raise d n).defl = c.defl := by
  obtain ⟨v, p, r, t, h⟩ := c.raise_shape d n; simp [h]
@[simp] theorem Chip.axis0_raise (c : Chip) (d : DieId) (n : Nat) : (c.raise d n).axis0 = c.axis0 := by
  obtain ⟨v, p, r, t, h⟩ := c.raise_shape d n; simp [h]
@[simp] theorem Chip.axis1_raise (c : Chip) (d : DieId) (n : Nat) : (c.raise d n).axis1 = c.axis1 := by
  obtain ⟨v, p, r, t, h⟩ := c.raise_shape d n; simp [h]
@[simp] theorem Chip.cfg_raise (c : Chip) (d : DieId) (n : Nat) : (c.raise d n).cfg = c.cfg := by
  obtain ⟨v, p, r, t, h⟩ := c.raise_shape d n; simp [h]
@[simp] theorem Chip.nv_raise (c : Chip) (d : DieId) (n : Nat) : (c.raise d n).nv = c.nv := by
  obtain ⟨v, p, r, t, h⟩ := c.raise_shape d n; simp [h]
@[simp] theorem Chip.ownId_raise (c : Chip) (d : DieId) (n : Nat) : (c.raise d n).ownId = c.ownId := by
  obtain ⟨v, p, r, t, h⟩ := c.raise_shape d n; simp [h]
@[simp] theorem Chip.memberGates_raise (c : Chip) (d : DieId) (n : Nat) : (c.raise d n).memberGates = c.memberGates := by
  obtain ⟨v, p, r, t, h⟩ := c.raise_shape d n; simp [h]
@[simp] theorem Chip.herd_raise (c : Chip) (d : DieId) (n : Nat) : (c.raise d n).herd = c.herd := by
  obtain ⟨v, p, r, t, h⟩ := c.raise_shape d n; simp [h]
@[simp] theorem Chip.cal_raise (c : Chip) (d : DieId) (n : Nat) : (c.raise d n).cal = c.cal := by
  obtain ⟨v, p, r, t, h⟩ := c.raise_shape d n; simp [h]
@[simp] theorem Chip.pwr_raise (c : Chip) (d : DieId) (n : Nat) : (c.raise d n).pwr = c.pwr := by
  obtain ⟨v, p, r, t, h⟩ := c.raise_shape d n; simp [h]
@[simp] theorem Chip.start_raise (c : Chip) (d : DieId) (n : Nat) : (c.raise d n).start = c.start := by
  obtain ⟨v, p, r, t, h⟩ := c.raise_shape d n; simp [h]
@[simp] theorem Chip.out_raise (c : Chip) (d : DieId) (n : Nat) : (c.raise d n).out = c.out := by
  obtain ⟨v, p, r, t, h⟩ := c.raise_shape d n; simp [h]
@[simp] theorem Chip.free_raise (c : Chip) (d : DieId) (n : Nat) : (c.raise d n).free = c.free := by
  obtain ⟨v, p, r, t, h⟩ := c.raise_shape d n; simp [h]
@[simp] theorem Chip.die_tables_raise (c : Chip) (d d' : DieId) (n : Nat) : ((c.raise d n).die d').tables = (c.die d').tables := by
  obtain ⟨v, p, r, t, h⟩ := c.raise_shape d n; rw [h]; cases d <;> cases d' <;> rfl
@[simp] theorem Chip.die_caps_raise (c : Chip) (d d' : DieId) (n : Nat) : ((c.raise d n).die d').caps = (c.die d').caps := by
  obtain ⟨v, p, r, t, h⟩ := c.raise_shape d n; rw [h]; cases d <;> cases d' <;> rfl
@[simp] theorem Chip.die_evl_raise (c : Chip) (d d' : DieId) (n : Nat) : ((c.raise d n).die d').evl = (c.die d').evl := by
  obtain ⟨v, p, r, t, h⟩ := c.raise_shape d n; rw [h]; cases d <;> cases d' <;> rfl
@[simp] theorem Chip.die_mc0_raise (c : Chip) (d d' : DieId) (n : Nat) : ((c.raise d n).die d').mc0 = (c.die d').mc0 := by
  obtain ⟨v, p, r, t, h⟩ := c.raise_shape d n; rw [h]; cases d <;> cases d' <;> rfl
@[simp] theorem Chip.die_mc1_raise (c : Chip) (d d' : DieId) (n : Nat) : ((c.raise d n).die d').mc1 = (c.die d').mc1 := by
  obtain ⟨v, p, r, t, h⟩ := c.raise_shape d n; rw [h]; cases d <;> cases d' <;> rfl
@[simp] theorem Chip.die_gr_raise (c : Chip) (d d' : DieId) (n : Nat) : ((c.raise d n).die d').gr = (c.die d').gr := by
  obtain ⟨v, p, r, t, h⟩ := c.raise_shape d n; rw [h]; cases d <;> cases d' <;> rfl
@[simp] theorem Chip.die_grist_raise (c : Chip) (d d' : DieId) (n : Nat) : ((c.raise d n).die d').grist = (c.die d').grist := by
  obtain ⟨v, p, r, t, h⟩ := c.raise_shape d n; rw [h]; cases d <;> cases d' <;> rfl
@[simp] theorem Chip.die_mash_raise (c : Chip) (d d' : DieId) (n : Nat) : ((c.raise d n).die d').mash = (c.die d').mash := by
  obtain ⟨v, p, r, t, h⟩ := c.raise_shape d n; rw [h]; cases d <;> cases d' <;> rfl
@[simp] theorem Chip.die_kiln_raise (c : Chip) (d d' : DieId) (n : Nat) : ((c.raise d n).die d').kiln = (c.die d').kiln := by
  obtain ⟨v, p, r, t, h⟩ := c.raise_shape d n; rw [h]; cases d <;> cases d' <;> rfl
@[simp] theorem Chip.die_view_raise (c : Chip) (d d' : DieId) (n : Nat) : ((c.raise d n).die d').view = (c.die d').view := by
  obtain ⟨v, p, r, t, h⟩ := c.raise_shape d n; rw [h]; cases d <;> cases d' <;> rfl
@[simp] theorem Chip.die_pastViews_raise (c : Chip) (d d' : DieId) (n : Nat) : ((c.raise d n).die d').pastViews = (c.die d').pastViews := by
  obtain ⟨v, p, r, t, h⟩ := c.raise_shape d n; rw [h]; cases d <;> cases d' <;> rfl
@[simp] theorem Chip.die_mapCheck_raise (c : Chip) (d d' : DieId) (n : Nat) : ((c.raise d n).die d').mapCheck = (c.die d').mapCheck := by
  obtain ⟨v, p, r, t, h⟩ := c.raise_shape d n; rw [h]; cases d <;> cases d' <;> rfl
@[simp] theorem Chip.die_cask_raise (c : Chip) (d d' : DieId) (n : Nat) : ((c.raise d n).die d').cask = (c.die d').cask := by
  obtain ⟨v, p, r, t, h⟩ := c.raise_shape d n; rw [h]; cases d <;> cases d' <;> rfl
@[simp] theorem Chip.die_blnk_raise (c : Chip) (d d' : DieId) (n : Nat) : ((c.raise d n).die d').blnk = (c.die d').blnk := by
  obtain ⟨v, p, r, t, h⟩ := c.raise_shape d n; rw [h]; cases d <;> cases d' <;> rfl
@[simp] theorem Chip.die_badTables_raise (c : Chip) (d d' : DieId) (n : Nat) : ((c.raise d n).die d').badTables = (c.die d').badTables := by
  obtain ⟨v, p, r, t, h⟩ := c.raise_shape d n; rw [h]; cases d <;> cases d' <;> rfl
@[simp] theorem Chip.die_badLogged_raise (c : Chip) (d d' : DieId) (n : Nat) : ((c.raise d n).die d').badLogged = (c.die d').badLogged := by
  obtain ⟨v, p, r, t, h⟩ := c.raise_shape d n; rw [h]; cases d <;> cases d' <;> rfl
@[simp] theorem Chip.die_dram_raise (c : Chip) (d d' : DieId) (n : Nat) : ((c.raise d n).die d').dram = (c.die d').dram := by
  obtain ⟨v, p, r, t, h⟩ := c.raise_shape d n; rw [h]; cases d <;> cases d' <;> rfl
@[simp] theorem Chip.die_ilk_raise (c : Chip) (d d' : DieId) (n : Nat) : ((c.raise d n).die d').ilk = (c.die d').ilk := by
  obtain ⟨v, p, r, t, h⟩ := c.raise_shape d n; rw [h]; cases d <;> cases d' <;> rfl
@[simp] theorem Chip.die_jlog_raise (c : Chip) (d d' : DieId) (n : Nat) : ((c.raise d n).die d').jlog = (c.die d').jlog := by
  obtain ⟨v, p, r, t, h⟩ := c.raise_shape d n; rw [h]; cases d <;> cases d' <;> rfl
@[simp] theorem Chip.die_chk_raise (c : Chip) (d d' : DieId) (n : Nat) : ((c.raise d n).die d').chk = (c.die d').chk := by
  obtain ⟨v, p, r, t, h⟩ := c.raise_shape d n; rw [h]; cases d <;> cases d' <;> rfl
@[simp] theorem Chip.die_pendingCopy_raise (c : Chip) (d d' : DieId) (n : Nat) : ((c.raise d n).die d').pendingCopy = (c.die d').pendingCopy := by
  obtain ⟨v, p, r, t, h⟩ := c.raise_shape d n; rw [h]; cases d <;> cases d' <;> rfl
@[simp] theorem Chip.die_laneCal_raise (c : Chip) (d d' : DieId) (n : Nat) : ((c.raise d n).die d').laneCal = (c.die d').laneCal := by
  obtain ⟨v, p, r, t, h⟩ := c.raise_shape d n; rw [h]; cases d <;> cases d' <;> rfl
@[simp] theorem Chip.die_cellPend_raise (c : Chip) (d d' : DieId) (n : Nat) : ((c.raise d n).die d').cellPend = (c.die d').cellPend := by
  obtain ⟨v, p, r, t, h⟩ := c.raise_shape d n; rw [h]; cases d <;> cases d' <;> rfl
@[simp] theorem Chip.die_cellFault_raise (c : Chip) (d d' : DieId) (n : Nat) : ((c.raise d n).die d').cellFault = (c.die d').cellFault := by
  obtain ⟨v, p, r, t, h⟩ := c.raise_shape d n; rw [h]; cases d <;> cases d' <;> rfl
@[simp] theorem Chip.die_fieldPend_raise (c : Chip) (d d' : DieId) (n : Nat) : ((c.raise d n).die d').fieldPend = (c.die d').fieldPend := by
  obtain ⟨v, p, r, t, h⟩ := c.raise_shape d n; rw [h]; cases d <;> cases d' <;> rfl
@[simp] theorem Chip.die_fieldFault_raise (c : Chip) (d d' : DieId) (n : Nat) : ((c.raise d n).die d').fieldFault = (c.die d').fieldFault := by
  obtain ⟨v, p, r, t, h⟩ := c.raise_shape d n; rw [h]; cases d <;> cases d' <;> rfl
@[simp] theorem Chip.die_topPend_raise (c : Chip) (d d' : DieId) (n : Nat) : ((c.raise d n).die d').topPend = (c.die d').topPend := by
  obtain ⟨v, p, r, t, h⟩ := c.raise_shape d n; rw [h]; cases d <;> cases d' <;> rfl
@[simp] theorem Chip.die_topFault_raise (c : Chip) (d d' : DieId) (n : Nat) : ((c.raise d n).die d').topFault = (c.die d').topFault := by
  obtain ⟨v, p, r, t, h⟩ := c.raise_shape d n; rw [h]; cases d <;> cases d' <;> rfl
@[simp] theorem Chip.die_unitsNow_raise (c : Chip) (d d' : DieId) (n : Nat) : ((c.raise d n).die d').unitsNow = (c.die d').unitsNow := by
  obtain ⟨v, p, r, t, h⟩ := c.raise_shape d n; rw [h]; cases d <;> cases d' <;> rfl
@[simp] theorem Chip.die_clockFault_raise (c : Chip) (d d' : DieId) (n : Nat) : ((c.raise d n).die d').clockFault = (c.die d').clockFault := by
  obtain ⟨v, p, r, t, h⟩ := c.raise_shape d n; rw [h]; cases d <;> cases d' <;> rfl
@[simp] theorem Chip.die_hold_raise (c : Chip) (d d' : DieId) (n : Nat) : ((c.raise d n).die d').hold = (c.die d').hold := by
  obtain ⟨v, p, r, t, h⟩ := c.raise_shape d n; rw [h]; cases d <;> cases d' <;> rfl

/-- The event count after an occurrence (R320). -/
theorem Chip.evtCount_raise (c : Chip) (d : DieId) (n : Nat) (hd : c.hasDie d = true) (hn : sourceUsed n = true) :
    ((c.raise d n).die d).evtCount n = satAdd 255 ((c.die d).evtCount n) 1 := by
  unfold Chip.raise
  simp only [hd, hn, Bool.not_true, Bool.or_self, Bool.false_eq_true, if_false]
  split
  · unfold Chip.queueMsg
    split <;> simp [Chip.bump, Die.bump, Die.bumpBy, Die.noteNow, Die.put, Die.setReg, Die.evtCount, Chip.occur]
  · simp [Die.evtCount, Chip.occur]

/-- The event counts of the other sources stay (R320). -/
theorem Chip.evtCount_raise_other (c : Chip) (d : DieId) (n m : Nat) (h : m ≠ n) :
    ((c.raise d n).die d).evtCount m = (c.die d).evtCount m := by
  unfold Chip.raise
  split
  · rfl
  · simp only
    split
    · unfold Chip.queueMsg
      split <;> simp [Chip.bump, Die.bump, Die.bumpBy, Die.noteNow, Die.put, Die.setReg, Die.evtCount, Chip.occur,
        smGet_smSet_other _ _ _ _ _ _ h]
    · simp [Die.evtCount, Chip.occur, smGet_smSet_other _ _ _ _ _ _ h]

/-- The stored registers stay but for the count of lost messages. -/
theorem Chip.reg_raise (c : Chip) (d d' : DieId) (n o : Nat) (h : o ≠ F.CTRL_MSG_STATUS_lost.off) :
    ((c.raise d n).die d').reg o = (c.die d').reg o := by
  unfold Chip.raise
  split
  · rfl
  · simp only
    split
    · unfold Chip.queueMsg
      split <;> cases d <;> cases d' <;>
        simp [Chip.bump, Die.bump, Die.bumpBy, Die.noteNow, Die.put, Die.setReg, Chip.occur, Chip.onEvt, Chip.onDie, Die.reg,
          smGet_smSet_other _ _ _ _ _ _ h]
    · cases d <;> cases d' <;> simp [Chip.occur, Chip.onEvt, Chip.onDie, Die.reg]

end Sys2Proof.Machine
end

