-- ==== Sys2Proof/Laws/Memory.lean ====
section
/-! SUPPORT. The DRAM of each die: a read after a write, and that every operation on the stored words keeps their canonical
form. -/

namespace Sys2Proof.Machine

theorem Memory.wf_nil : Memory.wf [] = true := rfl

theorem Memory.wf_smSet (k : Nat) (w : DWord) (m : List (Nat × DWord)) (h : Memory.wf m = true) :
    Memory.wf (smSet poisonDWord k w m) = true := smWf_smSet (fun _ => poisonDWord) k w m h

@[simp] theorem State.onChip_dram (s : State) (d : DieId) (f : Chip → Chip) : (s.onChip f).dram d = s.dram d := by
  cases d <;> rfl

@[simp] theorem State.onDramWords_same (s : State) (d : DieId) (f : List (Nat × DWord) → List (Nat × DWord)) :
    (s.onDramWords d f).dram d = f (s.dram d) := by cases d <;> rfl

theorem State.onDramWords_other (s : State) (d d' : DieId) (f : List (Nat × DWord) → List (Nat × DWord)) (h : d' ≠ d) :
    (s.onDramWords d f).dram d' = s.dram d' := by cases d <;> cases d' <;> first | rfl | exact absurd rfl h

@[simp] theorem State.onDramWords_chip (s : State) (d : DieId) (f : List (Nat × DWord) → List (Nat × DWord)) :
    (s.onDramWords d f).chip = s.chip := by cases d <;> rfl

theorem State.dramWf_iff (s : State) : s.dramWf = true ↔ ∀ d, Memory.wf (s.dram d) = true := by
  simp only [State.dramWf, Bool.and_eq_true]
  constructor
  · intro h d; cases d
    · exact h.1
    · exact h.2
  · intro h; exact ⟨h .w, h .e⟩

theorem State.dramWf_onChip (s : State) (f : Chip → Chip) (h : s.dramWf = true) : (s.onChip f).dramWf = true := h

theorem State.dramWf_onDramWords (s : State) (d : DieId) (f : List (Nat × DWord) → List (Nat × DWord))
    (hf : ∀ m, Memory.wf m = true → Memory.wf (f m) = true) (h : s.dramWf = true) : (s.onDramWords d f).dramWf = true := by
  rw [State.dramWf_iff] at *
  intro d'
  by_cases hd : d' = d
  · subst hd; rw [State.onDramWords_same]; exact hf _ (h _)
  · rw [State.onDramWords_other s d d' f hd]; exact h d'

/-- The word read where a word was stored is that word. -/
theorem State.dramWord_storeWord (s : State) (d : DieId) (a : Nat) (w : DWord) : (s.storeWord d a w).dramWord d a = w := by
  simp [State.dramWord, State.storeWord]

/-- A store leaves every word that lies elsewhere. -/
theorem State.dramWord_storeWord_other (s : State) (d d' : DieId) (a b : Nat) (w : DWord)
    (h : d' ≠ d ∨ (s.chip.die d).dram.physical b / 8 ≠ (s.chip.die d).dram.physical a / 8) :
    (s.storeWord d a w).dramWord d' b = s.dramWord d' b := by
  simp only [State.dramWord, State.storeWord, State.onDramWords_chip]
  by_cases hd : d' = d
  · subst hd
    rw [State.onDramWords_same]
    exact smGet_smSet_other _ _ _ _ _ _ (h.resolve_left (fun n => n rfl))
  · rw [State.onDramWords_other s d d' _ hd]

theorem State.dramWf_storeWord (s : State) (d : DieId) (a : Nat) (w : DWord) (h : s.dramWf = true) :
    (s.storeWord d a w).dramWf = true :=
  s.dramWf_onDramWords d _ (fun m hm => Memory.wf_smSet _ w m hm) h

theorem State.dramWf_writeWord (s : State) (d : DieId) (a : Nat) (w : DWord) (h : s.dramWf = true) :
    (s.writeWord d a w).dramWf = true := by
  simp only [State.writeWord]
  split
  · exact State.dramWf_onChip _ _ (State.dramWf_storeWord _ d a _ (State.dramWf_onChip _ _ h))
  · exact State.dramWf_storeWord _ d a w (State.dramWf_onChip _ _ h)

theorem State.dramWf_foldl {α : Type} (f : State → α → State) (hf : ∀ s x, s.dramWf = true → (f s x).dramWf = true)
    (l : List α) (s : State) (h : s.dramWf = true) : (l.foldl f s).dramWf = true := by
  induction l generalizing s with
  | nil => exact h
  | cons x l ih => exact ih _ (hf s x h)

theorem State.dramWf_fillArea (s : State) (d : DieId) (f : Fill) (h : s.dramWf = true) : (s.fillArea d f).dramWf = true :=
  State.dramWf_foldl _ (fun s _ h => s.dramWf_writeWord d _ _ h) _ _ (State.dramWf_onChip _ _ h)

theorem State.dramWf_bootFill (s : State) (d : DieId) (h : s.dramWf = true) : (s.bootFill d).dramWf = true :=
  State.dramWf_onChip _ _ (s.dramWf_onDramWords d _ (fun _ _ => rfl) h)

theorem Memory.wf_copyWords (m : List (Nat × DWord)) (page spare : Nat) (h : Memory.wf m = true) :
    Memory.wf (copyWords m page spare) = true := by
  have fold : ∀ (l n : List (Nat × DWord)), Memory.wf n = true → Memory.wf (l.foldl
      (fun l p => smSet poisonDWord (512 * spare + p.1 % 512) p.2.repaired l) n) = true := by
    intro l
    induction l with
    | nil => exact fun _ hn => hn
    | cons p l ih => exact fun n hn => ih _ (Memory.wf_smSet _ _ n hn)
  exact fold _ _ (smWf_filter _ _ m h)

theorem State.dramWf_finishCopy (s : State) (d : DieId) (k : PageCopy) (h : s.dramWf = true) :
    (s.finishCopy d k).dramWf = true :=
  State.dramWf_onChip _ _ (State.dramWf_onChip _ _ (s.dramWf_onDramWords d _ (fun m hm => Memory.wf_copyWords m _ _ hm) h))

theorem State.dramWf_readWord (s : State) (d : DieId) (client addr : Nat) (flips : List Nat) (early : Bool)
    (report : DramVerdict → Bool) (h : s.dramWf = true) : (s.readWord d client addr flips early report).2.2.dramWf = true := by
  simp only [State.readWord]
  repeat' split
  all_goals
    repeat' first
      | exact h
      | apply State.dramWf_storeWord

theorem State.dramWf_clientRead (s : State) (d : DieId) (q : DramReq) (h : s.dramWf = true) : (s.clientRead d q).dramWf = true := by
  have h1 := State.dramWf_readWord _ d q.client q.addr q.flips q.early (fun _ => true)
    (State.dramWf_onChip s (·.serve d q.client ((s.chip.die d).dram.physical q.addr)) h)
  simp only [State.clientRead]
  split <;> exact h1

theorem State.dramWf_serveReads (n : Nat) (s : State) (d : DieId) (h : s.dramWf = true) : (s.serveReads d n).dramWf = true := by
  induction n generalizing s with
  | zero => exact h
  | succ n ih =>
    simp only [State.serveReads]
    split
    · exact h
    · exact ih _ (State.dramWf_clientRead _ d _ (State.dramWf_onChip _ _ h))

theorem State.dramWf_runReads (s : State) (d : DieId) (h : s.dramWf = true) : (s.runReads d).dramWf = true := by
  simp only [State.runReads]
  split
  · exact h
  · exact State.dramWf_onChip _ _ (State.dramWf_serveReads _ s d h)

/-- A tick of the machine keeps the canonical form. -/
theorem State.dramWf_runTick (s : State) (h : s.dramWf = true) : ((s.runReads .w).runReads .e).dramWf = true :=
  State.dramWf_runReads _ .e (State.dramWf_runReads s .w h)

theorem State.dramWf_finishTrain (s : State) (d : DieId) (t : TrainOp) (misread : List (Nat × Nat)) (h : s.dramWf = true) :
    (s.finishTrain d t misread).dramWf = true := by
  simp only [State.finishTrain]
  refine State.dramWf_onChip _ _ ?_
  split
  · exact State.dramWf_foldl _ (fun s _ h => s.dramWf_writeWord d _ _ h) _ _ h
  · exact h

theorem State.dramWf_writeCapture (s : State) (h : s.dramWf = true) : s.writeCapture.dramWf = true := by
  simp only [State.writeCapture]
  repeat' split
  · exact h
  · exact State.dramWf_onChip _ _ h
  · exact h
  · exact State.dramWf_onChip _ _ (State.dramWf_foldl _ (fun s _ h => s.dramWf_writeWord .w _ _ h) _ _ (State.dramWf_onChip _ _ h))

theorem State.dramWf_scrubLine (s : State) (d : DieId) (line : Nat) (flips : List (Nat × Nat)) (h : s.dramWf = true) :
    (s.scrubLine d line flips).dramWf = true := by
  have fold : ∀ (l : List Nat) (r : Bool × State), r.2.dramWf = true → (l.foldl (fun (r : Bool × State) i =>
      let q := r.2.readWord d 6 (64 * line + 8 * i) ((flips.filter (·.1 == i)).map (·.2)) false (·.read == .ue)
      (r.1 || q.1.read == .poison, q.2.2)) r).2.dramWf = true := by
    intro l
    induction l with
    | nil => exact fun _ h => h
    | cons i l ih =>
      intro r h
      refine ih _ ?_
      exact State.dramWf_readWord r.2 d 6 (64 * line + 8 * i) _ false (·.read == .ue) h
  exact State.dramWf_onChip _ _ (fold _ _ (State.dramWf_onChip _ _ h))

end Sys2Proof.Machine
end

