-- ==== Sys2Proof/Tests/Slice0.lean ====
section
/-! SUPPORT. The model's own tests: ill-formed commands, figures that the spec gives, and for the clauses of the statements
a state that meets their hypotheses, with what its step leaves (the expected values are those of the spec's rules). -/

namespace Sys2Proof.Tests

set_option Elab.async false

open Sys2Proof Sys2Proof.Machine

/-! ### States -/

/-- A booted K262 that stands alone, 5 ms after its reset, with Evune up and the DRAM of both dies in service. -/
def live : Chip :=
  (({ Chip.reset .k262 with
    now := 5000000, cfg := { Cfg.reset with stage := .ready, maint := .locked }, evune := ⟨.up, 0xFF, 0xFF, 20, 0⟩ }.onDram .w
      fun x => { x with active := true, trained := 15 }).onDram .e fun x => { x with active := true, trained := 15 }).markStart

/-- A chip one tick later. -/
def aged (c : Chip) : Chip := { c with now := c.now + 1 }.markStart

/-- A chip as a state with nothing in its queue and its DRAM. -/
def on (c : Chip) : State := { State.reset with chip := c }

/-- The state that a command leaves. -/
def after (i : Instr) (s : State) : State :=
  match exec i s with
  | .next t => t
  | .fault _ => s
  | .refused _ => s

/-- The chip that a command leaves. -/
def run (i : Instr) (c : Chip) : Chip := (after i (on c)).chip

/-- How often an event occurred on a die. -/
def hits (c : Chip) (d : DieId) (n : Nat) : Nat := (c.die d).evtCount n

/-! ### Ill-formed commands: one for each check of WellFormed -/

theorem test_wf_master : Instr.wf (.registerWrite (.mc 4) .w 0 0) = false := by decide
theorem test_wf_offset : Instr.wf (.registerWrite .port .w 2 0) = false := by decide
theorem test_wf_offset_range : Instr.wf (.rcRead .port .w (2 ^ 24)) = false := by decide
theorem test_wf_lane : Instr.wf (.evuneLaneFail true 8) = false := by decide
theorem test_wf_mask : Instr.wf (.evuneLinkReturn 256 0 0) = false := by decide
theorem test_wf_stripe : Instr.wf (.tunRowRelease .w (2 ^ 24) 0) = false := by decide
theorem test_wf_row : Instr.wf (.rowDeadline .w (2 ^ 32)) = false := by decide
theorem test_wf_log_index : Instr.wf (.spanEntryCaptureRead .port .w 1024) = false := by decide
theorem test_wf_job_index : Instr.wf (.jobLogCaptureRead .port .w 256) = false := by decide
theorem test_wf_word : Instr.wf (.gristBlockArrival .w [[(0, true, 2 ^ 64)]]) = false := by decide
theorem test_wf_bytes : Instr.wf (.caskChunkCommit .w [256] .clean []) = false := by decide
theorem test_wf_entry : Instr.wf (.caskFreeEntry .port .w 64) = false := by decide
theorem test_wf_effort : Instr.wf (.caskEnable .port .w 8) = false := by decide
theorem test_wf_flip : Instr.wf (.caskChunkRead .w 0 0 .clean [(0, 256)]) = false := by decide
theorem test_wf_chunk : Instr.wf (.caskChunkRead .w 0 (2 ^ 22) .clean []) = false := by decide
theorem test_wf_tile : Instr.wf (.tasterCompareComplete .w 0 512 0 false) = false := by decide
theorem test_wf_engine : Instr.wf (.kilnRowRasterize .w 0 0 ⟨[], .clean, 0, .clean, [], .clean, 0, [(0, 32)]⟩) = false := by decide
theorem test_wf_shift : Instr.wf (.shiftTableWrite .port .w 256 0) = false := by decide
theorem test_wf_channel : Instr.wf (.positionLockAcquire 3) = false := by decide
theorem test_wf_compare : Instr.wf (.compareFire 8) = false := by decide
theorem test_wf_axis : Instr.wf (.axisMove .port 2) = false := by decide
theorem test_wf_blanker_lane : Instr.wf (.echoReceive .w 68 []) = false := by decide
theorem test_wf_grist_lane : Instr.wf (.rxBlockLockGain .w true 16 0 []) = false := by decide
theorem test_wf_line_block : Instr.wf (.descramblerLockGain .w false 0 0 [⟨4, 0⟩]) = false := by decide
theorem test_wf_align : Instr.wf (.alignRound .w [⟨16, 0, 0, 0, 0⟩]) = false := by decide
theorem test_wf_errors : Instr.wf (.positionWord 0 [10] false []) = false := by decide
theorem test_wf_eye : Instr.wf (.trainReportTimeout .w 0 256 0 0) = false := by decide
theorem test_wf_logical_lane : Instr.wf (.handback .port .w 64) = false := by decide
theorem test_wf_spare_group : Instr.wf (.handoverWakeEnd .w 4) = false := by decide
theorem test_wf_mac : Instr.wf (.controlRead .w (2 ^ 48) none []) = false := by decide
theorem test_wf_tag : Instr.wf (.controlWrite .w 0 (some 65536) []) = false := by decide
theorem test_wf_seq : Instr.wf (.msgAck .w 65536) = false := by decide
theorem test_wf_client : Instr.wf (.dramRead .w 7 none 0 [] false) = false := by decide
theorem test_wf_address : Instr.wf (.dramRead .w 0 none (2 ^ 35) [] false) = false := by decide
theorem test_wf_bank : Instr.wf (.refreshDue .w 0 16 false) = false := by decide
theorem test_wf_region : Instr.wf (.sramScrubRead .w 1 0 false [] false) = false := by decide
theorem test_wf_sram_word : Instr.wf (.sramReadError .w (.trim 131072) false) = false := by decide
theorem test_wf_input : Instr.wf (.interlockInputDrop .w 8 0) = false := by decide
theorem test_wf_member : Instr.wf (.gateCloseReport .w (some 8)) = false := by decide
theorem test_wf_group : Instr.wf (.evtSet .port .w 8 0) = false := by decide
theorem test_wf_id : Instr.wf (.evtEoi .port .w 0 1024) = false := by decide
theorem test_wf_entry_address : Instr.wf (.swapPrepareComplete .w [0x960000]) = false := by decide
theorem test_wf_check_unit : Instr.wf (.chkData .port .w 4 0) = false := by decide
theorem test_wf_algorithm : Instr.wf (.chkStart .port .w 0 4) = false := by decide
theorem test_wf_hops : Instr.wf (.syncMessageReceive true 0 [] 0 0 8 (.meas []) 0 0 0) = false := by decide
theorem test_wf_sample : Instr.wf (.calAdcSample 32768) = false := by decide
theorem test_wf_sensor : Instr.wf (.sensorRead (.junction .w 32) 0) = false := by decide
theorem test_wf_flipped_bit : Instr.wf (.scrubRead .w [(8, 0)]) = false := by decide
theorem test_wf_cause : Instr.wf (.supplyFault 0 0 0) = false := by decide
theorem test_wf_vin : Instr.wf (.supplyWarning 65536 0) = false := by decide
theorem test_wf_rail : Instr.wf (.railMarginLow 1001 0) = false := by decide
theorem test_wf_good : Instr.wf (.slotArm (.mc 3) 0xFFFFFF) = true := by decide

/-! ### The machine as a whole -/

/-- The front command runs with the rest of the queue waiting. -/
theorem test_front_command : step { on live with pending := [.syncLoss, .holdoverEnd] } =
    exec .syncLoss { on live with pending := [.holdoverEnd] } := by rfl

/-- A module held in reset, and a command that it does not obey. -/
theorem test_held : State.reset.chip.cfg.stage = .held ∧ run .bootDeadline (.reset .k262) = .reset .k262 := by
  decide +kernel

/-- A module in recovery does not let a block other than SYS and CFG be reached. -/
theorem test_recovery : let c := { live with cfg := { live.cfg with stage := .recovery } }
    run (.registerWrite .port .w 0x20000 1) c = c ∧ run (.forceClose .port .w false) c = c := by decide +kernel

/-- The reset state's DRAM is canonical, and one core tick of a held module only counts it. -/
theorem test_reset_tick : State.reset.dramWf = true ∧ State.reset.tick.chip.now = 1 := by decide +kernel

/-! ### Events -/

theorem test_occurrence : hits (live.raise .w 6) .w 6 = 1 ∧ hits (live.raise .w 6) .e 6 = 0 := by decide +kernel
theorem test_occurrence_both : hits (live.raiseBoth 6) .w 6 = 1 ∧ hits (live.raiseBoth 6) .e 6 = 1 := by decide +kernel
theorem test_occurrence_absent : let c := { live with variant := .k131 }
    c.raise .e 6 = c ∧ sourceUsed 8 = false ∧ c.raise .w 8 = c := by decide +kernel
theorem test_evt_set : let c := run (.evtSet .port .e 0 0x40) live
    hits c .e 6 = 1 ∧ smGet 0 6 c.e.evt.sw = 1 ∧ hits c .w 6 = 0 := by decide +kernel
theorem test_evt_set_last : hits (run (.evtSet .port .w 7 0x01000000) live) .w 248 = 1 := by decide +kernel
theorem test_evt_clr : hits (run (.evtClr .port .w 0 0x40) (aged (live.raise .w 6))) .w 6 = 0 := by decide +kernel
/-- An occurrence of the tick of the clear stays (R19). -/
theorem test_evt_clr_same_tick : hits (run (.evtClr .port .w 0 0x40) ((aged (live.raise .w 6)).raise .w 6)) .w 6 = 1 := by
  decide +kernel
theorem test_evt_mode : (run (.evtModeWrite .port .w 1 1) live).w.evt.core1.scan = true ∧
    (run (.evtModeWrite .port .w 1 1) (live.onEvt .w (·.onCore 1 fun e => { e with stack := [⟨6, 0⟩] }))).w.evt.core1.scan =
      false := by decide +kernel
theorem test_evt_target : (run (.evtTargetWrite .port .w 0 0x40) live).w.evtCfg 0 = 0x40 := by decide +kernel

/-- Source 6 of die W, raised and enabled, with an EVT_CFG word, one tick later. -/
def sixFor (cfg : Word) : Chip :=
  let c := (live.raise .w 6).onDie .w fun x => (x.setReg 0x110140 0x40).setReg 0x110418 cfg
  aged c

/-- Core 0 of die W with an interrupt active. -/
def active (id group : Nat) (c : Chip) : Chip := c.onEvt .w (·.onCore 0 fun e => { e with stack := [⟨id, group⟩] })

theorem test_evt_ack : let c := run (.evtAck .port .w 0) (sixFor 0x04)
    c.out = [.readData .port 0x406] ∧ hits c .w 6 = 0 ∧
      c.w.evt.core0.stack = [⟨6, 1⟩] := by decide +kernel
theorem test_evt_ack_idle : (run (.evtAck .port .w 0) live).out = [.readData .port 0x3FF] := by decide +kernel
theorem test_evt_ack_remote : let r : Cand := ⟨256 + 6, 4, 2, false⟩
    let c := run (.evtAck .port .w 0) (aged (live.onEvt .w (·.onCore 0 fun e => { e with remote := some r })))
    c.w.evt.taken = [(6, 2)] ∧ c.w.evt.core0.remote = none ∧ c.w.evt.core0.stack = [⟨262, 1⟩] := by decide +kernel
theorem test_evt_scan : (run (.evtScan .port .w 0) (sixFor 0x04)).out = [.readData .port 0x406] ∧
    (run (.evtScan .port .w 1) (sixFor 0x04)).out = [.readData .port 0x3FF] := by decide +kernel
theorem test_evt_eoi : (run (.evtEoi .port .w 0 6) (active 6 4 live).markStart).w.evt.core0.stack = [] := by decide +kernel
theorem test_evt_eoi_out_of_order : let c := run (.evtEoi .port .w 0 7) (active 6 4 live).markStart
    c.w.evt.core0.stack = [⟨6, 4⟩] ∧ c.fld .w F.EVT_FAULT_id_written = 7 ∧ c.fld .w F.EVT_FAULT_top_id = 6 ∧
      c.fld .w F.EVT_FAULT_1_count = 1 ∧ hits c .w 248 = 1 := by decide +kernel
theorem test_evt_eoi_empty : let c := run (.evtEoi .port .e 1 0x3FF) live
    c.fld .e F.EVT_FAULT_core = 1 ∧ c.fld .e F.EVT_FAULT_top_id = 0x3FF ∧ hits c .e 248 = 1 := by decide +kernel
/-- An acknowledgement of the tick has put 7 above 6, which is popped (R336). -/
theorem test_evt_eoi_below : let c := (active 6 4 live).markStart.onEvt .w (·.onCore 0 fun e => { e with stack := [⟨7, 0⟩, ⟨6, 4⟩] })
    (run (.evtEoi .port .w 0 6) c).w.evt.core0.stack = [⟨7, 0⟩] := by decide +kernel
/-- A sleep is judged at the end of its tick: an occurrence after the request abandons it (R335). -/
theorem test_core_sleep : ((run (.coreSleep .w 0) live).judgeSleep .w 0).w.evt.core0.sleep = .asleep ∧
    (((run (.coreSleep .w 0) (live.onDie .w fun x => (x.setReg 0x110140 0x40).setReg 0x110418 0x84)).raise .w 6).judgeSleep .w
      0).w.evt.core0.sleep = .woken := by decide +kernel
theorem test_core_wake : let c := ((sixFor 0x84).onEvt .w (·.onCore 0 fun e => { e with sleep := .asleep })).markStart
    c.wakes .w 0 false = true ∧ (run (.coreWake .w 0) c).w.evt.core0.sleep = .awake := by decide +kernel
theorem test_remote_candidate : (run (.remoteCandidate .e 0) (sixFor 0x24)).e.evt.core0.remote = some ⟨6, 4, 1, false⟩ := by
  decide +kernel
theorem test_taken_message : let c := (aged ((live.raise .w 6).raise .w 6)).onEvt .e fun x => { x with taken := [(6, 1)] }
    hits (run (.takenMessage .w) c) .w 6 = 1 ∧ (run (.takenMessage .w) c).e.evt.taken = [] := by decide +kernel
theorem test_host_delivery : let c := (live.onDie .w (·.setReg 0x110140 0x40)).raise .w 6
    let d := run (.hostQueueDelivery .w) (aged c)
    hits d .w 6 = 0 ∧ d.w.port.queue = [⟨2, 6, 1, 0⟩] := by decide +kernel
theorem test_fallback : let c := (sixFor 0x04).onDie .w fun x => { x with mc0 := { x.mc0 with state := .stopped } }
    let c := { c with now := c.now + 1000000000 }.markStart
    c.redirected .w 6 = true ∧ hits (run (.fallbackTimeout .w 6) c) .w 249 = 1 ∧
      (run (.fallbackTimeout .w 6) c).fld .w F.EVT_HOST_STATUS_last_fallback = 6 := by decide +kernel

/-- Source 6 has run out of time, source 7 is the host's and more urgent, and one place is left in the queue. -/
theorem test_fallback_urgent : let c := (sixFor 0x04).onDie .w fun x =>
      { (x.setReg 0x110140 0xC0).setReg 0x11041C 0x40 with
        mc0 := { x.mc0 with state := .stopped }, port := { x.port with queue := List.replicate 63 ⟨1, 9, 1, 0⟩ } }
    let c := { c.raise .w 7 with now := c.now + 1000000000 }.markStart
    let d := run (.fallbackTimeout .w 6) c
    c.hostTakes .w 6 = true ∧ c.atStart.redirected .w 6 = true ∧ (c.bestSource .w (c.hostTakes .w)).map (·.id) = some 7 ∧
      hits d .w 6 = 1 ∧ hits d .w 7 = 0 ∧ d.w.port.queue.length = 64 := by decide +kernel

/-! ### Evune and the clocks -/

theorem test_evune_first_lane : let c := run (.evuneLaneFail true 7) live
    c.evune.maskWE = 0x7F ∧ c.evune.link = .up ∧ hits c .w 4 = 1 ∧ hits c .e 4 = 1 := by decide +kernel
theorem test_evune_second_lane : let c := run (.evuneLaneFail true 0) (run (.evuneLaneFail true 7) live)
    c.evune.link = .down ∧ c.e.hold = 0x11 ∧ hits c .w 5 = 1 ∧ c.fld .e F.SYS_EVUNE_STATUS_link_lost = 1 := by decide +kernel
theorem test_evune_timeout : (run .evuneTrainingTimeout live).evune.link = .down ∧
    (run .evuneTrainingTimeout { live with evune := ⟨.training, 0, 0, 0, 0⟩ }).evune.link = .down := by decide +kernel
theorem test_evune_retrain : let c := { live with evune := ⟨.down, 0xFF, 0xFF, 0, 4000000⟩ }
    (run .evuneRetrain c).evune.link = .training ∧ run .evuneRetrain { c with now := 4999999 } = { c with now := 4999999 } := by
  decide +kernel
theorem test_evune_return : (run (.evuneLinkReturn 0x7F 0xFE 20) { live with evune := ⟨.training, 0, 0, 0, 0⟩ }).evune =
    ⟨.up, 0x7F, 0xFE, 20, 5000000⟩ := by decide +kernel
theorem test_clock_fault_e : let c := run (.clockFault .e) live
    c.e.clockFault = true ∧ c.e.hold = 0x18 ∧ hits c .e 6 = 1 ∧ c.w = live.w := by decide +kernel
theorem test_clock_fault_w : let c := run (.clockFault .w) { live with chans.px.state := .valid, sched.mode := .exposing };
    c.chans.px.state = .noLock ∧ c.sched.ending = some 0x18 ∧ hits c .w 6 = 1 := by decide +kernel
theorem test_clock_fault_end : (run (.clockFaultEnd .w) (live.onDie .w fun x => { x with clockFault := true })).w.clockFault =
    false := by decide +kernel

/-- In reset only the reference's absence is noted (R344). -/
theorem test_clock_held : let c := run (.clockFault .w) (.reset .k262)
    c.pwr.noClockW = true ∧ c.w.clockFault = false ∧ (run (.clockFaultEnd .w) c).pwr.noClockW = false := by decide +kernel

/-! ### Interlocks -/

/-- A chip whose gates are open, its inputs good and enabled. -/
def open' (mask : Nat) : Chip :=
  (live.onDie .w fun x => { (x.put F.ILK_MASK_bits mask) with ilk := { x.ilk with gateOpen := true, good := 0xFF, forced := false } }).onDie
    .e fun x => { x with ilk := { x.ilk with gateOpen := true, good := 0xFF, forced := false } }

theorem test_input_drop : let c := run (.interlockInputDrop .w 7 20) (open' 0x80)
    c.w.ilk.gateOpen = false ∧ c.w.ilk.good = 0x7F ∧ c.fld .w F.ILK_FIRST_source = 7 ∧ c.fld .w (dropCount 7) = 1 ∧
      hits c .w 192 = 1 ∧ c.e.ilk.gateOpen = true := by decide +kernel
theorem test_input_drop_masked : let c := run (.interlockInputDrop .w 0 60) (open' 0x80)
    c.w.ilk.gateOpen = true ∧ c.w.ilk.good = 0xFE := by decide +kernel
theorem test_input_restore : (run (.interlockInputRestore .w 0 10000000) (run (.interlockInputDrop .w 0 60) (open' 0x80))).w.ilk.good = 0xFF := by
  decide +kernel
/-- A level of 19 ns is filtered out by drop_ns, which resets to 20. -/
theorem test_input_glitch : (run (.interlockInputDrop .w 7 19) (open' 0x80)).w.ilk.good = 0xFF := by decide +kernel
theorem test_gate_report : let c := (open' 0).onDie .w fun x => { x with ilk := { x.ilk with report := true } }
    let d := run (.gateCloseReport .e none) c
    d.e.ilk.gateOpen = false ∧ d.fld .e F.ILK_FIRST_source = 8 ∧ d.w.ilk.report = false := by decide +kernel
theorem test_gate_member : let c := { open' 0 with herd.role := .buck, ownId := 0 }
    let d := run (.gateCloseReport .w (some 7)) c
    d.w.ilk.gateOpen = false ∧ d.fld .w F.ILK_FIRST_source = 9 ∧ d.fld .w F.ILK_FIRST_module_id = 7 := by decide +kernel
theorem test_force_close : let c := run (.forceClose .port .e true) (open' 0)
    c.e.ilk.gateOpen = false ∧ c.e.ilk.forced = true ∧ c.fld .e F.ILK_FIRST_source = 10 ∧ c.w.ilk.gateOpen = true := by
  decide +kernel
theorem test_reopen : let c := run (.reopen .port .w) live
    c.w.ilk.request = some true ∧ c.e.ilk.request = some true ∧ c.w.ilk.forced = false := by decide +kernel
theorem test_mask_write : let c := { open' 0 with w.ilk.good := 0xFE }
    (run (.ilkMaskWrite (.mc 0) .w 1) c).w.ilk.gateOpen = false ∧ (run (.ilkMaskWrite (.mc 0) .w 2) c).w.ilk.gateOpen = true ∧
      run (.ilkMaskWrite .port .w 1) c = c := by decide +kernel

/-! ### Registers and logs -/

theorem test_register_write : let c := (live.onDie .w fun x => x.setReg 0x050000 0)
    (run (.registerWrite .port .w 0x140010 0xFFFFFFFF) c).w.reg 0x140010 ≠ c.w.reg 0x140010 ∧
      run (.registerWrite .port .w 0x140012 1) c = c ∧ run (.registerWrite .port .w 0x0F0004 1) c = c := by decide +kernel
/-- CAL_CHAIN_STATUS and TASTE_SAMPLE_COUNT: a two-word value and a read-to-clear count of the Taster. -/
theorem test_rc_read : let c := live.put .w F.TASTE_SAMPLE_COUNT_count 5
    let d := run (.rcRead .port .w F.TASTE_SAMPLE_COUNT_count.off) c
    d.out = [.readData .port 5] ∧ d.fld .w F.TASTE_SAMPLE_COUNT_count = 0 := by decide +kernel
/-- The conditions of the statement on registers: of a plain register, and of one with shadow copies. -/
theorem test_register_conditions : let c := live
    c.home .w 0x140010 = some .w ∧ c.writeIgnored .w 0x140010 = false ∧ c.denied .port .w 0x140010 5 = false ∧
      actsOnWrite 0x140010 = false ∧ (findReg 0x140010).map (·.mask (· == .rws)) = some 0 ∧
      c.home .e 0x040000 = some .e ∧ c.writeIgnored .e 0x040000 = false ∧ actsOnWrite 0x040000 = false ∧
      ((findReg 0x040000).map (·.mask (· == .rws))).getD 0 ≠ 0 := by decide +kernel
theorem test_unit_write : let c := live.onDie .w fun x => { x with cellPend := 1 <<< 2047, cellFault := 1 <<< 2047 ||| 1 }
    let d := run (.registerWrite .port .w (0x4000 + 4 * 2047) 0xC0000001) c
    d.w.reg (0x4000 + 4 * 2047) = 1 ∧ d.w.cellPend = 0 ∧ d.w.cellFault = 1 := by decide +kernel
theorem test_write_denied : live.denied .port .w 0x100008 1 = true ∧ run (.registerWrite .port .w 0x100008 1) live = live ∧
    findReg 0x7FFFFC = none ∧ run (.registerWrite .port .w 0x7FFFFC 1) live = live := by decide +kernel
theorem test_view : let c := live.put .w F.MAP_TABLE_VIEW_active 1
    run (.shadowCopyWrite .port .w 0x800000 5) c = c := by decide +kernel
theorem test_wide_read : let c := run (.wideLowWordRead .port .w 0x020028) ((live.put .w F.GRIST_LAST_NACK_reason 9).onDie .w (·.setReg 0x02002C 7))
    c.out = [.readData .port 9] ∧ smGet 0 0x02002C c.w.caps = 7 := by decide +kernel
theorem test_shadow_write : let c := run (.shadowCopyWrite .port .w 0x910000 0xFFFF) { live with cfg.swap := some ⟨none, 0, false, false, false, [], none, [], false⟩ };
    c.tbl .w 0x910000 = 0xFFF ∧ c.tblAct .w 0x910000 = live.tblAct .w 0x910000 ∧
      c.cfg.swap.map (·.ending) = some (some 3) := by decide +kernel
theorem test_shift_table : (run (.shiftTableWrite .port .w 255 255) live).tbl .w 0x9203FC = 255 ∧
    (run (.shiftTableWrite .port .w 3 4) live).tbl .w 0x92000C = 3 ∧ hits (run (.shiftTableWrite .port .w 3 4) live) .w 66 = 1 := by
  decide +kernel

/-- A span of rows of one slot. -/
def span (v w : Nat) : Span :=
  { job := 1, stripe := 2, vFirst := v, vLast := w, cause := 0x10, set := .all, die := .w, moduleId := 0, setIndex := 0,
    setSpan := 0, uFirst := 0, uLast := 0, slot := 9, slotLast := 9, passMask := 1 }

/-- A log with a span waiting. -/
def waiting (s : Span) (x : Evl) : Chip := live.onEvl .w fun _ => { x with queue := [s] }

theorem test_span_new : let c := run (.logEntryWrite .w) (waiting (span 0 7) .reset)
    c.w.evl.count = 1 ∧ c.w.evl.entry? 0 = some ⟨span 0 7, true⟩ ∧ hits c .w 0 = 1 := by decide +kernel
theorem test_span_extends : let c := run (.logEntryWrite .w) (waiting (span 0 7) .reset)
    let d := run (.logEntryWrite .w) (c.onEvl .w fun x => { x with queue := [span 8 9] })
    d.w.evl.count = 1 ∧ (d.w.evl.entry? 0).map (fun e => (e.span.vFirst, e.span.vLast)) = some (0, 9) := by decide +kernel
theorem test_span_full : let c := run (.logEntryWrite .w) (waiting (span 0 7) { Evl.reset with count := 1024 })
    c.w.evl.count = 1024 ∧ c.fld .w F.EVL_OVF_COUNT_lost_spans = 1 ∧ c.fld .w F.EVL_OVF_LAST_V_v = 7 ∧
      c.fld .w F.EVL_OVF_LAST_JOB_job_id = 1 := by decide +kernel
theorem test_evl_rd_idx : let c := live.onEvl .w fun x => { x with rd := 1020, count := 10 }
    (run (.evlRdIdxWrite .port .w 5) c).w.evl.count = 1 ∧ (run (.evlRdIdxWrite .port .w 6) c).w.evl.rd = 6 ∧
      hits (run (.evlRdIdxWrite .port .w 7) c) .w 2 = 1 := by decide +kernel
theorem test_evl_full_lap : (run (.evlRdIdxWrite .port .w 0x10005) (live.onEvl .w fun x => { x with rd := 5, count := 1024 })).w.evl.count = 0 ∧
    hits (run (.evlRdIdxWrite .port .w 0x10000) live) .w 2 = 1 := by decide +kernel
theorem test_jlog_rd_idx : let c := live.onJlog .w fun x => { x with rd := 250, count := 10 }
    (run (.jlogRdIdxWrite .port .w 4) c).w.jlog.count = 0 ∧ hits (run (.jlogRdIdxWrite .port .w 5) c) .w 2 = 1 ∧
      (run (.jlogRdIdxWrite .port .w 0x1FA) (live.onJlog .w fun x => { x with rd := 250, count := 256 })).w.jlog.count = 0 := by
  decide +kernel
theorem test_clear_overflow : let c := (live.put .e F.EVL_OVF_COUNT_lost_spans 3).onEvl .e fun x => { x with overflowed := true }
    let d := run (.evlClearOverflow .port .e true) c
    d.fld .e F.EVL_OVF_COUNT_lost_spans = 0 ∧ d.e.evl.overflowed = false ∧ d.fld .e F.EVL_CTRL_halt_on_overflow = 1 := by
  decide +kernel
theorem test_captures : (run (.spanEntryCaptureRead .port .w 1023) live).w.evl.capture.map (·.idx) = some 1023 ∧
    (run (.jobLogCaptureRead .port .w 255) live).w.jlog.capture.map (·.words.length) = some 32 ∧
    (run (.errorLogCaptureRead .port .e 15) live).e.dram.logCapture.map (·.idx) = some 15 ∧
    (run (.caskDirectoryCaptureRead .port .w 63) live).w.cask.capture.map (·.idx) = some 63 := by decide +kernel

/-- A span entry that cannot be read (R300). -/
theorem test_span_bad : let c := live.onEvl .w fun x => { x with bad := [3] }
    c.w.evl.bad.contains 3 = true ∧ (c.readSpanWord .w 3 0).1 = 0xA5A5A5A5 := by decide +kernel

/-! ### DRAM -/

/-- Both dies' DRAM is in service. -/
def dram : Chip := live

/-- Die W's word 0 holds a word. -/
def withWord (w : DWord) : State := { on dram with dramW := [(0, w)] }

theorem test_read_clean : let t := after (.dramRead .w 5 none 0 [] false) (withWord ⟨7, 0⟩)
    (DWord.judge ⟨7, 0⟩) = .clean ∧ smGet 0 5 t.chip.w.dram.used = 1 ∧ t.dramW = [(0, ⟨7, 0⟩)] := by decide +kernel
theorem test_read_poison : let t := after (.dramRead .w 5 none 0x7FFFFFFF8 [] false) (on dram)
    t.chip.fld .w F.ECC_POISON_COUNT_count = 1 ∧ t.chip.fld .w F.ECC_UE_LAST_client = 5 ∧ hits t.chip .w 161 = 1 := by decide +kernel
/-- A client whose budget is 0 waits with its read. -/
theorem test_read_waits : let c := dram.onDram .w fun x => { x with budgets := [] }
    let t := after (.dramRead .w 5 none 12 [] false) (on c)
    c.stalls .w 5 = true ∧ t.chip.w.dram.queue = [⟨5, none, 8, [], false, 0⟩] ∧ nbit t.chip.w.dram.stalled 5 = true := by
  decide +kernel
/-- Words with one wrong bit and with two, whatever the columns. -/
theorem test_judge_fixed : (DWord.judge ⟨7, dramColumn 0⟩) = .fixed 0 := by
  have h := dramColumn_odd 0 (by decide)
  unfold DWord.judge
  rw [if_neg h.1, if_neg (by simp [h.2.1]), List.find?_eq_none.2 (by decide +kernel)]
  simp only
  rw [List.find?_eq_none.2 (by
    have : ∀ i ∈ List.range 64, 7 ^^^ poisonData ≠ 2 ^ i := by decide +kernel
    intro i hi; simp [this i hi])]
  rw [show List.range 72 = 0 :: (List.range 72).tail by decide, List.find?_cons_of_pos (by simp)]
theorem test_judge_uncorrectable : (DWord.judge ⟨7, 3⟩) = .uncorrectable := by
  unfold DWord.judge
  rw [if_neg (by decide), if_neg (by decide), List.find?_eq_none.2 (by decide +kernel)]
  simp only
  rw [List.find?_eq_none.2 (by
    have : ∀ i ∈ List.range 64, 7 ^^^ poisonData ≠ 2 ^ i := by decide +kernel
    intro i hi; simp [this i hi])]
  simp only
  rw [List.find?_eq_none.2 (by
    intro i hi
    have := (dramColumn_odd i (by simpa using hi)).2.2.2
    simp only [decide_eq_true_eq]
    intro h
    rw [← h] at this
    revert this
    decide)]
theorem test_unwritten : (State.reset.dramWord .w 0x7FFFFFFF8).judge = .poison ∧
    (State.reset.dramWord .e 0).readData = 0xA5A5A5A5A5A5A5A5 := by decide +kernel
/-- R277 and R279: address 0x2_4013_5A48 lies in channel 1, bank 11, column 9, row 0x1_2009. -/
theorem test_address : channelOf 0x240135A48 = 1 ∧ bankOf 0x240135A48 = 11 ∧ rowOf 0x240135A48 = 0x12009 := by decide
theorem test_budget_period : let c := run (.budgetPeriodStart .w) (dram.onDram .w fun x => { x with used := [(5, 12)] })
    c.w.dram.periods = 1 ∧ c.w.dram.used = [] ∧ c.fld .w (F.DRAM_CLIENT_used_last.at 5) = 12 := by decide +kernel
theorem test_retire : (run (.retireCommand .port .w 0x80000000) dram).w.dram.copies.map (·.page) = [0] := by decide +kernel
theorem test_retire_reserved : hits (run (.retireCommand .port .w 0x807FFFFF) dram) .w 164 = 1 := by decide +kernel
theorem test_retire_complete : let c := run (.retireCommand .port .w 0x80000000) dram
    let t := after (.pageRetireComplete .w) (on c)
    t.chip.w.dram.copies = [] ∧ smGet 9 0 t.chip.w.dram.retired = 0 ∧ hits t.chip .w 162 = 1 := by decide +kernel
theorem test_train_start : (run (.dramTrainStart .port .w 0x83) dram).w.dram.train.map (·.channel) = some 3 ∧
    (run (.dramTrainStart .port .w 0x80) (dram.onDram .w fun x => { x with train := some ⟨1, 0, 0, 0, 1, 0⟩ })).w.dram.train =
      some ⟨1, 0, 0, 0, 1, 0⟩ := by decide +kernel
theorem test_train_complete : let c := live.onDram .w fun x => { x with trained := 0, train := some ⟨3, 0, 0, 0, 1, 0⟩ }
    (run (.dramTrainComplete .w []) c).w.dram.trained = 8 := by decide +kernel
theorem test_delay : (run (.dramDelayWrite .port .w 3 71 0xFFFFFFFF) live).w.reg (0x0E0200 + 4 * 287) = 0x3F7F7F := by decide +kernel
theorem test_fill_start : let c := (dram.put .w F.DRAM_FILL_BASE_base_64k 524159).put .w F.DRAM_FILL_SIZE_size_64k 1
    (run (.dramFillStart .port .w 5) c).w.dram.fills = [⟨poisonDWord, 524159, 1⟩] ∧
      hits (run (.dramFillStart .port .w 5) (c.put .w F.DRAM_FILL_SIZE_size_64k 2)) .w 167 = 1 := by decide +kernel
theorem test_fill_complete : let c := dram.onDram .w fun x => { x with fills := [⟨poisonDWord, 1, 0⟩] }
    let t := after (.dramFillComplete .w) { on c with dramW := [(0, ⟨7, 0⟩)] }
    t.chip.w.dram.fills = [] ∧ t.dramW = [(0, ⟨7, 0⟩)] := by decide +kernel
theorem test_boot_fill : let c := { live with cfg.stage := .dram, e.dram.active := false }.onDram .w fun x => { x with active := false }
    let t := after (.dramFillComplete .w) { on c with dramW := [(0, ⟨7, 0⟩)] }
    t.dramW = [] ∧ t.chip.w.dram.active = true ∧ t.chip.cfg.stage = .dram := by decide +kernel
theorem test_rate_update : let c := run (.refreshRateUpdate .w 85 86 105 106) { dram with now := 16000000 };
    [0, 1, 2, 3].map (fun n => smGet 0 n c.w.dram.mult) = [0, 1, 1, 2] := by decide +kernel
theorem test_refresh_due : let c := dram.onDram .w fun x => { x with openRows := [(63, 5)], postponed := [(63, 7)] }
    let d := run (.refreshDue .w 3 15 true) c
    smGet 0 63 d.w.dram.postponed = 8 ∧ smGet 0 63 d.w.dram.openRows = 5 ∧
      smGet 0 63 (run (.refreshDue .w 3 15 true) d).w.dram.openRows = 0 := by decide +kernel
theorem test_self_refresh : let c := dram.put .w F.DRAM_CTRL_sr_en 1
    nbit (run (.selfRefreshEntry .w 3) c).w.dram.asleep 3 = true := by decide +kernel
theorem test_scrub : let s : State := { on (dram.put .w F.ECC_CTRL_scrub_en 1) with dramW := [(0, ⟨0, 0⟩)] }
    let t := after (.scrubRead .w []) s
    t.chip.w.dram.scrubLine = 1 ∧ hits t.chip .w 161 = 0 := by decide +kernel
theorem test_sram : let c := live.put .w F.ECC_CTRL_sram_scrub_en 1
    let p := c.onDram .w fun x => { x with sram := [(16 * 7 + 2, ⟨true, []⟩)] }
    run (.sramScrubRead .w 10 0 false [] false) c = c ∧ hits (run (.sramScrubRead .w 2 7 false [] false) p) .w 161 = 1 ∧
      run (.sramScrubRead .w 2 7 false [] false) live = live ∧
      hits (run (.sramScrubRead .w 2 7 true [] false) p) .w 161 = 0 ∧ (run (.sramScrubRead .w 2 7 true [] false) p).w.dram.sram = [] ∧
      hits (run (.sramReadError .w (.tun 0 0) true) live) .w 161 = 1 := by decide +kernel

/-- A fill is refused while another covers its area, and while the boot fill runs (R291). -/
def filling (base : Nat) : Chip :=
  ((dram.put .w F.DRAM_FILL_BASE_base_64k 7).put .w F.DRAM_FILL_SIZE_size_64k 2).onDram .w fun x => { x with fills := [⟨poisonDWord, base, 1⟩] }
theorem test_fill_refused : hits (run (.dramFillStart .port .w 5) (filling 8)) .w 167 = 1 := by decide +kernel
theorem test_fill_beside : (run (.dramFillStart .port .w 5) (filling 9)).w.dram.fills.length = 2 := by decide +kernel
theorem test_fill_in_boot : let c := ({ filling 9 with cfg := { Cfg.reset with stage := .dram } }.onDram .w fun x => { x with active := false })
    hits (run (.dramFillStart .port .w 5) c) .w 167 = 1 := by decide +kernel
/-- The boot fill of die W is that of the last die. -/
theorem test_boot_fill_last : let c := { live with cfg.stage := .dram }.onDram .w fun x => { x with active := false }
    c.bootFilling .w = true ∧ c.e.dram.active = true := by decide +kernel

/-! ### Grist reception and the decoders -/

/-- A receiver in block lock and descrambler lock. -/
def locked : Phy := { Phy.fresh with blockLock := true, descLock := true, passed := true }

/-- Grist reception is enabled with 16 MiB, and aligned on its one lane. -/
def grist : Chip :=
  (((live.put .w F.GRIST_CTRL_enable 1).put .w F.GRIST_RX_SIZE_size_64k 256).onDie .w fun x =>
    { x with gr := { x.gr with aligned := true, creditFirst := false, mask := 1, lanes := [(0, locked)] } }).markStart

/-- A block header of nine words, with its CRC, as five data words. -/
def header (ws : List Nat) : List Nat :=
  let b := (ws.map (leBytes 4)).flatten ++ [0, 0]
  let b := b ++ leBytes 2 (crc16 b)
  (List.range 5).map fun i => ofLe ((b.drop (8 * i)).take 8)

/-- Data words between a START and an END with `n` bytes in the last. -/
def delimited (data : List Nat) (n : Nat) : List (List (Nat × Bool × Nat)) :=
  ((true, 1) :: data.map (fun w => (false, w)) ++ [(true, 2 + 256 * n)]).map fun w => [(0, w)]

theorem test_job_open : let c := run (.gristBlockArrival .w (delimited (header [0x101, 7, 0, 0, 0, 0, 0, 0, 0]) 8)) grist
    c.w.grist.jobs.map (·.id) = [7] ∧ c.w.gr.rx = none ∧ hits c .w 32 = 0 := by decide +kernel
theorem test_bad_version : let c := run (.gristBlockArrival .w (delimited (header [0x201, 7, 0, 0, 0, 0, 0, 0, 0]) 8)) grist
    c.w.grist.jobs = [] ∧ c.fld .w F.GRIST_LAST_NACK_reason = 3 ∧ hits c .w 32 = 1 := by decide +kernel
theorem test_bad_header : let c := run (.gristBlockArrival .w (delimited [1] 1)) grist
    c.fld .w F.GRIST_LAST_NACK_reason = 1 ∧ c.fld .w F.GRIST_NACK_COUNT_nacks = 1 := by decide +kernel

/-- A JOB_OPEN that carries more than it says (0x0D), and one for which no descriptor is left (0x0E). -/
theorem test_bad_length : let c := run (.gristBlockArrival .w (delimited (header [0x101, 7, 0, 0, 0, 0, 0, 0, 0] ++ [0]) 8)) grist
    c.w.grist.jobs = [] ∧ c.fld .w F.GRIST_LAST_NACK_reason = 0x0D ∧ c.w.gr.rx = none := by decide +kernel
theorem test_descriptor_room : grist.w.grist.used + granulesOf 0 ≤ 16 * grist.fld .w F.GRIST_RX_SIZE_size_64k ∧
    grist.w.grist.descs < 256 := by decide +kernel

/-- The spec's static section (chapter 2): "ABABABAB" in six bytes. -/
theorem test_mash : (mashDecode [0x05, 0xA6, 0x66, 0x60, 0x08, 0x00] 8).toOption =
      some [0x41, 0x42, 0x41, 0x42, 0x41, 0x42, 0x41, 0x42] ∧
    mashDecode [0x05, 0xA6, 0x66, 0x60, 0x08, 0x00] 7 matches .error ⟨0x9, _⟩ := by decide +kernel

/-- A block of one row, with the spec's section as its payload. -/
def block (crc : Nat) (state : BlockState) : Block :=
  ⟨1, 0, 0, false, 6, 8, crc, [0x05, 0xA6, 0x66, 0x60, 0x08, 0x00], state, true, 0, none⟩

/-- A stripe of two rows that holds blocks. -/
def stripe (bs : List Block) : Stripe :=
  ⟨1, 2, 0, 1, bs, some 2, 1, none, [], false, [], [], [], false, false, false, none, none, none, []⟩

/-- A chip that holds one stripe on die W. -/
def holds (t : Stripe) (c : Chip) : Chip := (c.onGrist .w fun g => { g with stripes := [t] }).markStart

/-- Die W's transfers of lines are through. -/
def through (c : Chip) : Chip := c.onDram .w fun x => { x with owed := [], fetchLeft := 0 }

/-- The states of the blocks held on die W. -/
def states (c : Chip) : List BlockState := (c.stripes .w).flatMap fun t => t.blocks.map (·.state)

/-- "ABABABAB" and its CRC-32C. -/
def ababCrc : Nat := crc32c [0x41, 0x42, 0x41, 0x42, 0x41, 0x42, 0x41, 0x42]

theorem test_verify_start : let c := run (.verifyDecodeStart .w) (holds (stripe [block 0 .waiting]) grist)
    c.w.mash.verify = some (1, 2, 1) ∧ states c = [.verifying] := by decide +kernel
theorem test_verify_end : let c := run (.verifyDecodeStart .w) (holds (stripe [block ababCrc .waiting]) grist)
    states (run (.verifyDecodeEnd .w .clean) (through c)) = [.verified] := by decide +kernel
theorem test_verify_crc : let c := run (.verifyDecodeStart .w) (holds (stripe [block 0 .waiting]) grist)
    let d := run (.verifyDecodeEnd .w .clean) (through c)
    states d = [.nacked 1] ∧ hits d .w 32 = 1 ∧ d.fld .w F.GRIST_LAST_NACK_reason = 0x0F := by decide +kernel
theorem test_feed : let c := run (.feedDecodeStart .w) (holds (stripe [block ababCrc .verified]) grist)
    let d := run (.feedDecodeEnd .w .clean false) (through (c.onMash .w fun m => { m with feedPos := 2 }))
    c.w.mash.feed = some (1, 2, 1) ∧ states d = [.fed] ∧ d.w.mash.feed = none ∧
      states (run (.feedDecodeEnd .w .clean false) c) = [.feeding] := by decide +kernel
theorem test_feed_fault : let c := run (.feedDecodeStart .w) (holds (stripe [block ababCrc .verified]) grist)
    let d := run (.feedDecodeEnd .w .clean true) c
    ((d.stripe? .w 2).map (·.settled 0)) = some true ∧ hits d .w 36 = 1 := by decide +kernel
theorem test_treated_as_fed : let t := { stripe [block ababCrc .verified] with marks := [⟨0, 1, 0x02, true⟩] }
    states (run (.blockTreatedAsFed .w) (holds t grist)) = [.fed] := by decide +kernel

theorem test_grist_enable : let c := run (.gristEnable .port .w) (live.put .w F.GRIST_RX_SIZE_size_64k 256)
    c.flag .w F.GRIST_CTRL_enable = true ∧ c.w.grist.granted = 4096 ∧ c.w.grist.descGranted = 256 := by decide +kernel
theorem test_grist_enable_refused : let c := live.put .w F.GRIST_RX_SIZE_size_64k 255
    run (.gristEnable .port .w) c = c.raise .w 34 ∧ hits (c.raise .w 34) .w 34 = 1 := by decide +kernel
theorem test_grist_disable : let c := run (.gristDisable .port .w) (holds (stripe [block 0 .verified]) grist)
    c.flag .w F.GRIST_CTRL_enable = false ∧ states c = [] := by decide +kernel
theorem test_grist_flush : let c := run (.gristFlush .port .w) (holds (stripe [block 0 .waiting]) grist)
    states c = [] ∧ c.w.grist.granted = 4096 ∧ c.w.grist.descGranted = 256 := by decide +kernel
theorem test_credit : let c := run (.creditPeriodic .w) grist
    c.out = [.grist .w 0 (sealMessage [0x10001, 0, 0, 0, 0]) ((c.w.gr.phy 0).linePos c.now)] ∧ c.w.grist.creditAt = 5000000 := by decide +kernel
theorem test_credit_return : let t := { stripe [block 0 .fed] with marks := [⟨0, 1, 0x02, true⟩] }
    let c := run (.figuresCreditReturn .w 2 1) (holds t grist)
    c.w.grist.granted = 1 ∧ c.w.grist.descGranted = 1 ∧ (c.stripes .w).map (·.blocks.map (·.held)) = [[false]] := by decide +kernel

/-- A view of stripe 2 whose row 0 has its deadline in slot 5. -/
def view : View :=
  { stripe := 2, job := 1, vFirst := 0, rows := 2, s0 := 5, slots := 304, passLog2 := 2, sxLog2 := 2, syLog2 := 2, window := 0,
    tol := 0, compEn := false, lead := 0, bank := 0, tables := [], units := [], herdEnable := true, failedLanes := [],
    exposing := true, closed := 0, openBeams := 0, disabledAt := [], failedAt := [] }

/-- Die W exposes under a view, with the slot fired in this tick. -/
def exposing (v : View) (slot : Nat) (c : Chip) : Chip :=
  { c.onDie .w fun x => { x with view := some v } with sched.mode := .exposing, sched.slot := slot, sched.slotAt := c.now }

theorem test_deadline : let c := exposing view 5 (holds (stripe [block 0 .waiting]) grist)
    let d := run (.rowDeadline .w 0) c
    (5 + view.deadline 0) % m48 = 5 ∧ (d.stripe? .w 2).map (·.causeOf 0) = some (some 2) ∧ hits d .w 33 = 1 := by decide +kernel

/-! ### The Kiln, the Taster and the seam -/

/-- A row with gray levels, checked and not released. -/
def gray (g : List Nat) : Row := ⟨some g, [], true, false, false, none, false, [], some (List.replicate 8 0, List.replicate 8 0)⟩

/-- A binding with reset values. -/
def binding : Binding := ⟨false, 32, 2, [], [], 0⟩

theorem test_row_release :
    ((run (.tunRowRelease .w 2 0) (holds { stripe [block 0 .fed] with rows := [(0, gray [])] } grist)).stripe? .w 2).map (fun t => (t.row 0).released) = some true := by
  decide +kernel
theorem test_bind : let c := run (.kilnStripeBind .w 2) (holds (stripe [block 0 .fed]) grist)
    (c.stripe? .w 2).map (·.binding.isSome) = some true ∧ c.w.kiln.begun = 0 := by decide +kernel
/-- Nothing disturbs the Kiln's work on a row. -/
def undisturbed : RowRun := ⟨[], .clean, 0, .clean, [], .clean, 0, []⟩

theorem test_rasterize : let t := { stripe [block 0 .fed] with binding := some binding }
    let c := run (.kilnRowRasterize .w 2 0 undisturbed) (holds t grist)
    (c.stripe? .w 2).map (fun t => (t.row 0).gray) = some (some []) ∧ c.w.kiln.begun = 1 := by decide +kernel

/-- The worked example of chapter 3: pixel (1, 1), whose coverage of 192 keeps 176. -/
def workedFigs : List Fig :=
  [⟨3, .rect 20 8 56 40, 1, 1, 1, 1, false, 0, 3⟩, ⟨3, .trapH 48 64 16 64 32 64, 1, 1, 1, 1, false, 2, 4⟩]
def workedBinding : Binding :=
  { binding with words := [(0x04810C, 7)], tables := [(0x920300, 176)] }
theorem test_worked_pixel : rowDoses workedBinding workedFigs 16 1 1 1 = [2640] ∧ grayOf 2640 = 10 := by decide +kernel

/-- A FIGURES block of one stored section that holds a rectangle record, and the chip that feeds it. -/
def rectBytes : List Nat := ([0x01, 0, 0, 16, 16] : List Nat).flatMap (leBytes 4)
def fed (orig : List Nat) : Chip :=
  let b : Block := { block (crc32c orig) .feeding with
    payload := [4, orig.length - 1, 0] ++ orig, origLen := orig.length, compLen := orig.length + 3 }
  (holds { stripe [b] with binding := some binding } grist).onMash .w fun m => { m with feed := some (1, 2, 1) }

theorem test_record : let c := run (.figureRecord .w .clean) (fed rectBytes)
    c.w.mash.feedPos = 5 ∧ (c.stripe? .w 2).map (·.figs.map (·.shape)) = some [.rect 0 0 16 16] := by decide +kernel
theorem test_record_invalid : let c := run (.figureRecord .w .clean) (fed (leBytes 4 5))
    c.w.mash.feedPos = 1 ∧ (c.stripe? .w 2).map (·.discarding) = some true ∧
      c.fld .w F.KILN_FIG_ERR_COUNT_fig_errors = 1 := by decide +kernel
theorem test_taster : let r := { gray [] with tasting := [3] }
    let t := { stripe [block 0 .fed] with rows := [(0, r), (1, r)], tiles := [(3, 0, 31)] }
    let c := run (.tasterCompareComplete .w 2 3 0 true) (holds t grist)
    c.fld .w F.TASTE_SAMPLE_COUNT_count = 1 ∧ c.fld .w F.TASTE_MISMATCH_COUNT_count = 1 ∧
      (c.stripe? .w 2).map (fun t => (t.settled 0, t.settled 1)) = some (true, true) := by decide +kernel
theorem test_engines : let c := run (.kilnEngineEnWrite .port .w 0xFFFF) live
    c.fld .w F.KILN_ENGINE_EN_engine_en = 0xFFFF ∧ hits c .w 69 = 1 ∧ live.engines .w = 32 := by decide +kernel
/-- A disabled engine with two mismatches is retired by the next write, and its history goes when it is enabled again (R122). -/
theorem test_engine_retired : let c := live.onDie .w fun x => { x with kiln := { x.kiln with hist := [(4, [true, true])] } }
    let d := run (.kilnEngineEnWrite .port .w 0xFFFFFFFF) c
    c.w.kiln.retiring = [4] ∧ d.w.kiln.retired = [4] ∧ d.fld .w F.KILN_ENGINE_EN_engine_en = 0xFFFFFFEF ∧
      (run (.kilnEngineEnWrite .port .w 0xFFFFFFFF) d).w.kiln.hist = [] := by decide +kernel
theorem test_map_check : let c := live.onDie .w fun x => { x with mapCheck := ⟨true, false, 0, 0⟩ }
    let e := c.put .w F.MAP_GEOM_sx_log2 5
    c.mapFailure .w = none ∧ (run (.mapCheckComplete .w) c).w.mapCheck.passed = true ∧ e.mapFailure .w = some (1, 0) ∧
      hits (run (.mapCheckComplete .w) e) .w 74 = 1 := by
  decide +kernel
theorem test_open_report : let c := (holds (stripe []) live).onDie .e fun x => { x with kiln := { x.kiln with openOut := [(1, 2)] } }
    ((run (.stripeOpenReport .w) c).stripe? .w 2).map (·.otherHolds) = some true ∧
      (run (.stripeOpenReport .w) (c.onGrist .w fun g => { g with stripes := [] })).w.kiln.heard = [(1, 2)] := by decide +kernel
theorem test_margin_send : let t := { stripe [block 0 .fed] with otherHolds := true, rows := [(0, gray [])] }
    (run (.marginMessageSend .w 2 0) (holds t live)).w.kiln.marginOut = [⟨1, 2, 0, some [0, 0, 0, 0, 0, 0, 0, 0]⟩] := by
  decide +kernel
theorem test_margin_receive : let r := { gray [] with seamOk := false }
    let c := (holds { stripe [block 0 .fed] with rows := [(0, r)] } live).onDie .e fun x =>
      { x with kiln := { x.kiln with marginOut := [⟨1, 2, 0, some [1, 0, 0, 0, 0, 0, 0, 0]⟩] } }
    let d := run (.marginMessageReceive .w) c
    d.fld .w F.TASTE_SEAM_MISMATCH_COUNT_count = 1 ∧ d.w.kiln.mismatchOut = [(1, 2, 0)] ∧ d.e.kiln.marginOut = [] ∧
      (d.stripe? .w 2).map (·.settled 0) = some true := by decide +kernel
theorem test_mismatch_receive : let c := (holds (stripe []) live).onDie .e fun x =>
      { x with kiln := { x.kiln with mismatchOut := [(1, 2, 0)] } }
    ((run (.seamMismatchReceive .w) c).stripe? .w 2).map (·.causeOf 0) = some (some 7) := by decide +kernel

/-! ### The Cask -/

/-- A directory entry of two rows in a state. -/
def entry (state : EntryState) (chunks : List Chunk) (staged : List (Option (List Nat))) : CaskEntry :=
  { CaskEntry.none with state := state, rows := 2, job := 1, stripe := 2, chunks := chunks, staged := staged, taken := 2 }

/-- Die W's Cask is enabled and holds an entry 0. -/
def cask (e : CaskEntry) : Chip :=
  (((live.put .w F.CASK_CTRL_enable 1).put .w F.CASK_SIZE_size_64k 4).onCask .w fun x =>
    { x with entries := [(0, e)], freeGranules := 60, storing := if e.state = .storing then [0] else [] }).markStart

/-- A stored MASH section of `n` zero bytes. -/
def zeros (n : Nat) : List Nat := [4, (n - 1) % 256, (n - 1) / 256] ++ List.replicate n 0

/-- A stripe that plays entry 0. -/
def player (bound : Bool) : Stripe := { stripe [] with play := some ⟨0, bound, false, []⟩ }

/-- The head of R151 of a chunk of two rows, the first a hole. -/
theorem test_head : let h := chunkHead 0 2 1 135 0
    h.take 12 = [0, 0, 0, 0x10, 1, 0, 0x87, 0, 0, 0, 0, 0] ∧ headCrcOk h = true ∧ headRows h = 2 ∧ headData h = 1 := by
  decide +kernel
theorem test_commit : let c := run (.caskChunkCommit .w (zeros 132) .clean []) (cask (entry .storing [] [none, some []]))
    (c.w.cask.entry 0).state = .ready ∧ (c.w.cask.entry 0).chunks.map (fun x => (headRows x.head, headHoles x.head)) = [(2, 1)] := by
  decide +kernel
/-- With no budget the record is written later: the chunk waits. -/
theorem test_commit_waits : let c := (cask (entry .storing [] [none, some []])).onDram .w fun x => { x with budgets := [] }
    let d := run (.caskChunkCommit .w (zeros 132) .clean []) c
    c.chunkReady .w = some 0 ∧ d.w.cask.writing.map (fun x => (x.entry, x.reading)) = some (0, false) ∧ d.w.dram.waiting 5 ≠ 0 := by
  decide +kernel
/-- A bit of the record that reads back wrong: the store fails with reason 0x6. -/
theorem test_commit_flip : let c := run (.caskChunkCommit .w (zeros 132) .clean [(20, 1)]) (cask (entry .storing [] [none, some []]))
    c.w.cask.entry 0 = CaskEntry.none ∧ c.fld .w F.CASK_LAST_FAIL_reason = 6 ∧
      c.fld .w F.CASK_VERIFY_MISMATCH_COUNT_count = 1 := by decide +kernel
theorem test_play_bind : let c := run (.caskPlayBind .w 2 .clean) (holds (player false) (cask (entry .ready [] [])))
    (c.stripe? .w 2).map (fun t => (t.play.map (·.bound), t.binding.isSome)) = some (some true, true) ∧
      (c.w.cask.entry 0).plays = 1 := by decide +kernel
theorem test_play_refused : let c := run (.caskPlayBind .w 2 .clean) (holds (player false) (cask (entry .free [] [])))
    (c.stripe? .w 2).map (·.settled 1) = some true ∧ c.fld .w F.CASK_PLAY_ERR_COUNT_count = 1 ∧ hits c .w 77 = 1 := by
  decide +kernel
/-- A record of two rows, the first a hole. -/
def record : Chunk := ⟨chunkHead 0 2 1 135 (crc32c (List.replicate 132 0)), zeros 132⟩

theorem test_chunk_read : let e := entry .ready [record] []
    let c := run (.caskChunkRead .w 2 0 .clean []) (holds (player true) (cask e))
    (c.stripe? .w 2).map (fun t => (t.causeOf 0, (t.row 1).gray)) = some (some 0x14, some []) := by decide +kernel
theorem test_chunk_lost : let c := run (.caskChunkRead .w 2 0 .ue []) (holds (player true) (cask (entry .ready [record] [])))
    hits c .w 78 = 1 ∧ (c.stripe? .w 2).map (·.causeOf 1) = some (some 6) := by decide +kernel
theorem test_free_entry : ((run (.caskFreeEntry .port .w 0) (cask (entry .ready [] []))).w.cask.entry 0).state = .ending ∧
    ((run (.caskFreeEntry .port .w 0) (cask (entry .storing [] []))).caskEnd .w).fld .w F.CASK_LAST_FAIL_reason = 8 ∧
    run (.caskFreeEntry .port .w 63) (cask (entry .ready [] [])) = cask (entry .ready [] []) := by decide +kernel
theorem test_free_all : ((run (.caskFreeAll .port .w) (cask (entry .ready [] []))).w.cask.entry 0).state = .ending := by
  decide +kernel
theorem test_cask_enable : let c := run (.caskEnable .port .w 7) ((live.put .w F.CASK_SIZE_size_64k 4).put .w F.CASK_BASE_base_64k 65536)
    c.flag .w F.CASK_CTRL_enable = true ∧ c.fld .w F.CASK_CTRL_effort = 7 ∧ c.w.cask.freeGranules = 64 ∧
      hits (run (.caskEnable .port .w 0) live) .w 79 = 1 := by decide +kernel
theorem test_cask_disable : let c := run (.caskDisable .port .w 1) (cask (entry .storing [] []))
    c.flag .w F.CASK_CTRL_enable = false ∧ (c.w.cask.entry 0).state = .free := by decide +kernel
/-- A freed entry ends in the clock after the command (R162); an enable of an enabled Cask sets the effort alone. -/
theorem test_entry_ends : let c := run (.caskFreeEntry .port .w 0) (cask (entry .ready [] []))
    ((c.caskTick .w).w.cask.entry 0).state = .ending ∧ ({ c with now := c.now + 1 }.caskTick .w).w.cask.entry 0 = CaskEntry.none ∧
      run (.caskEnable .port .w 3) c = c.put .w F.CASK_CTRL_effort 3 := by decide +kernel
theorem test_entry_freed : let c := run (.caskEntryFreed .w 0) (cask { entry .freeing [] [] with granules := 4 })
    c.w.cask.entry 0 = CaskEntry.none ∧ c.w.cask.freeGranules = 64 := by decide +kernel

/-! ### Position channels -/

/-- A position word of 9 bytes: position, flags and sequence number, and its CRC. -/
def posWord (p flags : Nat) : List Nat := let b := leBytes 6 p ++ [flags]; b ++ leBytes 2 (crc16 b)

/-- PX is valid and in lock at a position, with the last word just stamped. -/
def valid (p : Nat) : Chip :=
  live.onChan 0 fun x => { x with
    state := .valid, lock := true, prevSeq := some 1, pos := p, stamp := live.tick48, cur := ⟨p, live.tick48, 0, 0⟩, old := ⟨p, live.tick48, 0, 0⟩ }

theorem test_word : let c := run (.positionWord 0 [] false (posWord 1000 0x24)) (valid 900)
    c.chans.px.state = .valid ∧ c.chans.px.pos = 1000 ∧ c.chans.px.seq = 2 ∧ c.chans.px.prevSeq = some 2 := by decide +kernel
theorem test_word_coding : let c := run (.positionWord 0 [4] false []) (valid 0)
    c.fld .w (F.SLOT_POS_ERR_coding.at 0) = 1 ∧ hits c .w 110 = 1 := by decide +kernel
theorem test_word_crc : (run (.positionWord 0 [] false [0, 0, 0, 0, 0, 0, 4, 0, 0]) (valid 0)).fld .w (F.SLOT_POS_ERR_crc.at 0) = 1 := by
  decide +kernel
theorem test_word_fault : let c := run (.positionWord 0 [] false (posWord 0 0x25)) { valid 0 with sched.mode := .exposing }
    c.chans.px.state = .invalid ∧ c.fld .w F.SLOT_POS_FAULT_COUNT_count = 1 ∧ c.sched.ending = some 0x0F := by decide +kernel
theorem test_lock : (run (.positionLockAcquire 2) live).chans.pyaw.lock = true ∧
    (run (.positionLockLoss 0 [.error, .error, .error, .error]) (valid 0)).chans.px.state = .noLock ∧ hits (run (.positionLockLoss 0 [.error, .error, .error, .error]) (valid 0)) .w 110 = 1 := by
  decide +kernel
theorem test_coast : (run (.coastExpiry 0) { valid 0 with now := 6000000, time := live.time + 1000000 * 2 ^ 32 }).chans.px.state = .lost ∧
    (run (.coastExpiry 0) (valid 0)).chans.px.state = .valid := by decide +kernel
theorem test_still : let c := (valid 5).onChan 0 fun x => { x with
      track := { x.track with speed := .moving true, rest := [(5, 1000000), (5, 0)] } }
    (run (.stillTimeout 0) (c.put .w F.SLOT_SPEED_CFG_still_timeout_us 1000)).chans.px.track.speed = .still := by decide +kernel
theorem test_channel_enable : let c := live.onChan 2 fun x => { x with state := .off }
    (run (.channelEnable .port 2) c).chans.pyaw.state = .noLock := by decide +kernel
theorem test_channel_disable : let c := run (.channelDisable .port 0) { valid 0 with sched.mode := .exposing }
    c.chans.px.state = .off ∧ bit (c.w.reg 0x08001C) 0 = false ∧ c.sched.ending = some 0x0F := by decide +kernel
theorem test_rearm : let c := (run (.channelEnable .port 0) live).onChan 0 fun x => { x with state := .invalid }
    (run (.channelRearm .port 0) c).chans.px.rearmed = true ∧ (run (.channelRearm .port 0) c).chans.px.state = .invalid := by
  decide +kernel

/-! ### The slot scheduler -/

theorem test_slot_fire : let c := { live with sched := { Sched.reset with mode := .exposing, n := 304, phi := 2 ^ 32, slot := 9, decided := 9 } }
    let d := (run .slotFire c).fireDue
    (run .slotFire c).sched.due = some .slot ∧ d.sched.hwm = 1 ∧ d.sched.slot = 10 ∧ d.sched.slotAt = c.now := by decide +kernel
theorem test_slot_wraps : let c := { live with sched := { Sched.reset with mode := .exposing, n := 304, phi := 2 ^ 32, decided := 2 ^ 48 - 1 } }
    (run .slotFire c).fireDue.sched.slot = 0 := by decide +kernel
/-- A reversal of the tick withdraws the slot, and a clock fault the end, that were due in it (R190). -/
theorem test_due_withdrawn : let c := { live with sched := { Sched.reset with mode := .exposing, n := 304, due := some .slot, ending := some 0x0E } }
    let d := { live with sched := { Sched.reset with mode := .exposing, n := 1, due := some .finish, ending := some 0x18 } }
    c.fireDue.sched.hwm = 0 ∧ c.fireDue.sched.due = none ∧ d.fireDue.sched.mode = .exposing ∧ d.fireDue.sched.due = none := by
  decide +kernel
theorem test_idle_slot : let c := live.put .w F.SLOT_IDLE_idle_khz 100
    (run .idleSlotFire c).sched.slot = 1 ∧ c.idlePeriod = some 10000 := by decide +kernel
theorem test_overspeed_end : (run .overspeedEnd { live with sched.slow := true }).sched.slow = false ∧
    (run .overspeedEnd { live with sched.slow := true, sched.slowAt := 4983617 }).sched.slow = true := by decide +kernel

/-- Compare 7 on PX, armed behind a position that the channel has passed. -/
def compare (kind : Nat) : Chip :=
  ((((valid 10).put .w (F.SLOT_CMP_2_armed.at 7) 1).put .w (F.SLOT_CMP_2_kind.at 7) kind).put .w (F.SLOT_CMP_pos_low.at 7) 5).onCmp 7
    fun x => { x with behind := true }

theorem test_compare : let c := run (.compareFire 7) (compare 1)
    c.flag .w (F.SLOT_CMP_2_armed.at 7) = false ∧ c.flag .w (F.SLOT_CMP_2_fired.at 7) = true ∧ hits c .w 103 = 1 ∧
      c.sched.turnOpen = true ∧ (run (.compareFire 7) (compare 3)).sched.calOpen = true := by decide +kernel

/-- A K131 with a stripe, with PX and its scan channel PY valid. -/
def single : Chip := holds (stripe []) ({ valid 10 with variant := .k131, chans.py := (valid 10).chans.px }.put .w F.SLOT_ARM_POS_start_low 5)

theorem test_arm : let c := run (.slotArm .port 2) single
    c.sched.mode = .armed ∧ c.sched.stripe = 2 ∧ c.sched.start = 5 ∧
      (run (.slotDisarm .port 2) c).sched.mode = .idle := by decide +kernel
theorem test_arm_refused : run (.slotArm .port 3) single = (single.put .w F.SLOT_ARM_CTRL_stripe_id 3).raise .w 106 := by
  decide +kernel

/-- The armed stripe's start compare has been passed. -/
def startDue : Chip :=
  { single with sched := { Sched.reset with mode := .armed, stripe := 2, start := 5, behind := true, slot := 41, decided := 41 } }

theorem test_start : let c := (run .stripeStart startDue).fireDue
    startDue.startFires = some none ∧ c.sched.mode = .exposing ∧ c.sched.s0 = 42 ∧ c.sched.slot = 42 := by decide +kernel
theorem test_not_begun : let c := run .stripeNotBegun { startDue with sched.doomed := some 0x10 }
    c.sched.mode = .idle ∧ c.sched.slot = 41 ∧ c.fld .w F.SLOT_LATE_COUNT_count = 1 := by decide +kernel
theorem test_stripe_end : let c := (run .stripeEnd { startDue with
      sched := { Sched.reset with mode := .exposing, stripe := 2, n := 1, phi := 2 ^ 32 } }).fireDue
    c.sched.mode = .idle ∧ (c.stripe? .w 2).map (·.ended) = some true ∧ hits c .w 105 = 1 := by decide +kernel

/-! ### Deflection and the auxiliary axes -/

/-- R200: the set-point word of code −9,920 with track 1 and seq 2, and its CRC. -/
theorem test_sample_word : sampleWord (-9920) true false 2 = 0x559FD940 := by decide +kernel
theorem test_sample : let c := run .deflectionSample (live.put .w F.DEFL_CTRL_en 1)
    c.out.length = 2 ∧ c.defl.seq = 1 ∧ c.defl.samples = 250000 ∧
      (run .deflectionSample live).out = [] ∧ (run .deflectionSample live).defl.samples = 250000 := by decide +kernel
theorem test_defl_check : let c := { live with defl := { Defl.reset with check := ⟨true, true, 0, 0⟩ } }
    (run .deflectionCheckComplete c).defl.check.busy = false := by decide +kernel
theorem test_defl_enable : let c := run (.deflEnable .port 1) live
    c.flag .w F.DEFL_CTRL_en = true ∧ c.defl.seq = 0 ∧ c.defl.check.busy = true := by decide +kernel

/-- Axis 1 as given. -/
def axis (a : Axis) : Chip := { live with axis1 := a }

theorem test_step : let c := run (.axisStepTick 1) (axis { Axis.reset with x := 2 ^ 32 - 1, v := 1, dir := true, dirPin := true })
    c.axis1.out = 1 ∧ c.axis1.x = 2 ^ 32 ∧ c.out.length = 1 := by decide +kernel
theorem test_step_turns : let c := run (.axisStepTick 1) (axis { Axis.reset with x := 2 ^ 32 - 1, v := 1 })
    c.axis1.out = 0 ∧ c.axis1.dir = true ∧ c.out = [.dir 1 true] := by decide +kernel
theorem test_profile : let c := run (.axisProfileTick 0) live
    c.axis0 = { Axis.reset with profiles := 1 } ∧ c.out.length = 1 := by decide +kernel
theorem test_axis_still : (run (.axisStillTimeout 0) (live.put .w F.AXIS_CURRENT_still_ms 5)).axis0.atHold = true := by
  decide +kernel
theorem test_estimate : let c := run (.encoderSpeedEstimate 1) (axis { Axis.reset with enc := 7 })
    c.axis1.estimates = 1 ∧ c.axis1.encWords.head?.map (·.1) = some 7 := by decide +kernel
theorem test_move : (run (.axisMove .port 1) (live.put .w (F.AXIS_TARGET_microsteps.at 1) 9)).axis1.motion = .move := by
  decide +kernel
theorem test_move_refused : let c := run (.axisMove .port 1) (live.put .w (F.AXIS_FAULT_limit_hit.at 1) 1)
    c.axis1.motion = .rest ∧ c.axFlag 1 F.AXIS_FAULT_refused = true ∧ hits c .w 116 = 1 := by decide +kernel
theorem test_move_limit : let c := ((axis { Axis.reset with limFwd := { LimitIn.reset with active := true } }).put .w
      (F.AXIS_TARGET_microsteps.at 1) 9)
    (run (.axisMove .port 1) c).axFlag 1 F.AXIS_FAULT_limit_hit = true := by decide +kernel
theorem test_stop : (run (.axisStop .port 1) (axis { Axis.reset with motion := .move, v := 5 })).axis1.motion = .stopping ∧
    run (.axisStop .port 1) live = live := by decide +kernel
theorem test_home : let c := run (.axisHome .port 1) (axis { Axis.reset with homed := true })
    c.axis1.homed = false ∧ c.axis1.motion matches .search _ _ := by decide +kernel
theorem test_fault_stop : (run (.axisFaultStop .port 1) (axis { Axis.reset with motion := .move, v := 5 })).axis1.v = 0 := by
  decide +kernel
theorem test_limit : let c := run (.limitFilterChange 1 true) (axis { Axis.reset with
      motion := .move, v := 5, limFwd := { LimitIn.reset with raw := !live.axFlag 1 F.AXIS_CTRL_lim_pol } })
    c.axis1.limFwd.active = true ∧ c.axis1.motion = .faulted ∧ hits c .w 116 = 1 := by decide +kernel
theorem test_limit_edge : (run (.limitRawEdge 0 false) live).axis0.limRev.raw = true := by decide +kernel
theorem test_encoder : (run (.encoderTransition 0 true false 10 10) live).axis0.encA = true ∧
    (run (.encoderTransition 0 true true 10 10) live).axis0.enc = 0 ∧ hits (run (.encoderTransition 0 true true 10 10) live) .w 115 = 1 := by decide +kernel
theorem test_index : let c := run (.encoderIndexEdge 1) (axis { Axis.reset with motion := .search true false, x := 5 * 2 ^ 32 + 1 })
    c.axis1.motion = .latched ∧ c.axis1.homeTarget = 5 * 2 ^ 32 := by decide +kernel

/-! ### The blanker lanes -/

/-- Die W's lanes are enabled. -/
def lanes : Chip := run (.blnkEnable .port .w 1) live

theorem test_blnk_enable : lanes.w.blnk.bank0.loaded = true ∧ lanes.w.blnk.bank0.tag = 1 ∧ lanes.w.blnk.bank1.tag = 2 ∧
    lanes.w.blnk.nextTag = 3 := by decide +kernel
theorem test_blnk_disable : (run (.blnkDisable .port .w 7) lanes).w.reg 0x0B0000 = 6 := by decide +kernel
theorem test_segment : let c := run (.paramSegmentSend .w) (lanes.put .w F.SLOT_IDLE_idle_khz 0)
    c.w.blnk.bank0.nextSeg = 1 ∧ c.out.length = 64 := by decide +kernel
theorem test_bank_load : let c := ((lanes.onBlnk .w fun x => { x with bank0 := { x.bank0 with nextSeg := 8 }, bank1 := { x.bank1 with nextSeg := 8, lost := true } }))
    (c.loadDue .w).map (·.1) = some 1 ∧ (run (.bankLoadStart .w) c).w.blnk.bank1.tag = 3 := by decide +kernel

/-- R226 and chapter 8's example: the headers of a DATA frame and a GO of stripe slot 56 on logical lane 25 of die E. -/
theorem test_frame_header : frameHeader 0x20000038 3 1 25 false 0 true 0 0 = [0x38, 0x00, 0x00, 0x20, 0x03, 0x91, 0x11, 0x00] := by
  decide +kernel

/-- An echo group whose slot 63 logical lane 0 was to send GO in, on its home lane. -/
def group (launched : Nat) : EchoGroup :=
  { base := 0, slots := [⟨63, some 0, [0], [(0, 0, false)], 0, true, 3, 0⟩], echoes := [], launched := some launched }

/-- A message of 24 bytes with its CRC and closing zeros. -/
def closed (b : List Nat) : List Nat := b ++ leBytes 4 (crc32 b) ++ [0, 0, 0, 0]

/-- An echo of group 0 from lane 0 that reports an epoch, and slot 63 good. -/
def echo (epoch : Nat) : List Nat := closed (leBytes 8 (2 ^ 43 + 2 ^ 32 * epoch) ++ leBytes 8 (2 ^ 63) ++ List.replicate 8 0)

/-- Die W's receivers of lanes 0 and 3 are in lock. -/
def inLock : Chip := live.onBlnk .w fun x => { x with phys := [(0, locked), (3, locked)] }

theorem test_echo : let c := inLock.onBlnk .w fun x => { x with groups := [group 4999000] }
    (run (.echoReceive .w 0 (echo 3)) c).w.blnk.groups.map (·.echoes.length) = [1] ∧
      (run (.echoReceive .w 0 (echo 4)) c).fld .w F.BLNK_EPOCH_ERR_COUNT_count = 1 := by decide +kernel
/-- An echo on a lane without lock is not used (R224). -/
theorem test_echo_bad : run (.echoReceive .w 67 (List.replicate 32 1)) live = live := by decide +kernel
theorem test_echo_deadline : let c := live.onBlnk .w fun x => { x with groups := [group 0] }
    let d := run (.echoDeadline .w) c
    d.w.blnk.groups = [] ∧ hits d .w 128 = 1 ∧ d.fld .w F.BLNK_ECHO_MISS_COUNT_count = 1 := by decide +kernel
theorem test_handover : let c := run (.handoverToSpare .port .w 63) live
    c.w.blnk.hos.map (fun h => (h.lam, h.toLane)) = [(63, 67)] ∧ hits (run (.handoverToSpare .port .w 62) c) .w 130 = 1 := by
  decide +kernel
theorem test_handback : let c := live.onBlnk .w fun x => x.setPlace 0 ⟨16, .spareTemp, 0⟩
    (run (.handback .port .w 0) c).w.blnk.hos.map (fun h => (h.lam, h.toLane)) = [(0, 0)] ∧
      hits (run (.handback .port .w 0) live) .w 130 = 1 := by decide +kernel
theorem test_wake_end : let c := run (.handoverToSpare .port .w 0) live
    (run (.handoverWakeEnd .w 0) { c with now := 5002000 }).w.blnk.hos.map (·.phase) = [.mirror] ∧
      (run (.handoverWakeEnd .w 0) { c with now := 5001999 }).w.blnk.hos.map (·.phase) = [.wake] := by decide +kernel
theorem test_abandon : let c := live.onBlnk .w fun x => { x with hos := [⟨0, 0, 16, .switch, 0, 0, 4, false, none, false, false⟩] }
    let d := run (.handoverAbandon .w 0) c
    d.w.blnk.hos.map (fun h => (h.back, h.ready)) = [(true, true)] ∧ hits d .w 129 = 1 := by decide +kernel
theorem test_retry : let c := live.onBlnk .w (·.onPhy 67 fun p => { p with failed := true })
    let d := run (.laneTrainCommand .port .w 67) c
    d.w.blnk.training.map (fun t => (t.lane, t.preset, t.retry)) = [(67, 0, true)] ∧ d.w.blnk.training.map (·.at_) = [5002000] ∧
      run (.laneTrainCommand .port .w 67) d = d := by decide +kernel

/-- Lane 3 trains, at a preset. -/
def training (preset : Nat) : Chip :=
  inLock.onBlnk .w fun x => { x with training := [⟨3, preset, 0, true, 0, false, none, none, .home, false, 0, 0, false⟩] }
theorem test_report : let b := closed (leBytes 8 (9 * 2 ^ 40 + 2 ^ 56 * 2) ++ List.replicate 16 0)
    let c := { training 2 with now := 1000 }
    (run (.trainReportReceive .w 3 b 0 0 0) c).w.blnk.training.map (·.preset) = [3] := by decide +kernel
theorem test_report_timeout : let c := { training 7 with now := 1000000000 }
    let d := run (.trainReportTimeout .w 3 0 0 0) c
    d.w.blnk.training = [] ∧ hits d .w 131 = 1 ∧ d.w.blnk.lastTrain.1 = 3 := by decide +kernel

/-! ### Receivers and the Grist lanes -/

/-- 64 valid headers give block lock, 63 do not, and an invalid one slips the boundary (R224). -/
theorem test_block_lock :
    ((run (.rxBlockLockGain .w true 15 0 (List.replicate 64 ⟨1, 0⟩)) live).phy .w true 15).blockLock = true ∧
    ((run (.rxBlockLockGain .w true 15 0 (⟨3, 0⟩ :: List.replicate 63 ⟨2, 0⟩)) live).phy .w true 15).blockLock = false := by
  decide +kernel
/-- Idle blocks scrambled from any register: the first loads the descrambler, and eight more lock it (R223, R224). -/
theorem test_descrambler_lock : let c := run (.rxBlockLockGain .w true 15 0 (List.replicate 64 ⟨1, 0⟩)) live
    let l := scrambleBlocks (List.replicate 9 idleBlock) 0x123456789ABCDE
    ((run (.descramblerLockGain .w true 15 0 l) c).phy .w true 15).descLock = true ∧
    ((run (.descramblerLockGain .w true 15 0 l.tail) c).phy .w true 15).descLock = false := by decide +kernel

/-- Grist lane 15 of die W is in its set, locked. -/
def oneLane : Chip := live.onGr .w fun g => { (g.onPhy 15 fun _ => { locked with desc := some 1 }) with mask := 0x8000 }
theorem test_lock_loss : (run (.rxBlockLockLoss .w true 15 0 (List.replicate 16 ⟨0, 0⟩)) oneLane).w.gr.setDue = true ∧
    let c := run (.descramblerLockLoss .w true 15 0 (List.replicate 4 ⟨1, 0⟩)) oneLane
    (c.phy .w true 15).blockLock = true ∧ (c.phy .w true 15).descLock = false ∧ c.w.gr.setDue = true := by decide +kernel
theorem test_window : let c := oneLane.put .w F.PHY_DFE_CFG_trans_min 4
    let p := (run (.transitionWindowEnd .w true 15 4 0 []) (run (.transitionWindowEnd .w true 15 3 0 []) c)).phy .w true 15
    ((run (.transitionWindowEnd .w true 15 3 0 []) c).phy .w true 15).frozen = true ∧ p.frozen = false ∧ p.blockLock = false ∧
      p.settled = 5000076 := by decide +kernel
theorem test_align : oneLane.w.gr.roundGood 5000000 [] = false ∧
    ((run (.alignRound .w [⟨15, 15, 0, 0, 0⟩]) oneLane).judgeAlign .w).w.gr.aligned = true ∧
    (((run (.alignRound .w [⟨15, 15, 0, 0, 0⟩]) oneLane).onGr .w fun g => { g with setDue := true }).judgeAlign .w).w.gr.aligned =
      false := by decide +kernel
theorem test_deskew : let c := oneLane.onGr .w fun g => { g with aligned := true }
    (run (.deskewTimeout .w) c).w.gr.setId = 1 ∧ ((run (.alignRound .w []) c).judgeAlign .w).w.gr.reason = 3 ∧
      run (.deskewTimeout .w) { c with now := 4805 } = { c with now := 4805 } := by decide +kernel
theorem test_set_change : let c := run (.laneSetChange .w) ((oneLane.put .w F.PHY_GR_CTRL_lane_en 0).onGr .w fun g => { g with setDue := true })
    c.w.gr.mask = 0 ∧ c.w.gr.reason = 2 ∧ hits c .w 35 = 1 := by decide +kernel
theorem test_resync : (run (.gristResync .port .w 0xFFFF) oneLane).w.gr.reason = 4 ∧
    (run (.gristLaneEnWrite .port .w 1) live).w.gr.setId = 1 ∧
    (run (.gristLaneEnWrite .port .w 1) live).fld .w F.PHY_GR_CTRL_lane_en = 1 := by decide +kernel
theorem test_lane_message : let c := (oneLane.onGr .w fun g => { g with reason := 2, creditFirst := false })
    (run (.laneMessageResend .w) c).out.length = 1 ∧ (run (.laneMessageResend .w) c).w.gr.laneMsgAt = 5000000 := by decide +kernel
theorem test_return_sleep : let c := oneLane.onGr .w fun g => g.onPhy 15 fun p => { p with frozen := true }
    c.messageDue .w = false ∧ (run (.returnLaneSleep .w) c).w.gr.returnAwake = false := by decide +kernel
theorem test_return_wake : let c := run (.returnLaneWake .w) (oneLane.onGr .w fun g => { g with returnAwake := false })
    c.w.gr.returnAwake = true ∧ c.w.gr.wokeAt = 5000000 ∧ c.w.gr.creditFirst = true := by decide +kernel
theorem test_grist_train : let c := run (.gristLaneTrainCommand .port .w 15) oneLane
    c.w.gr.training.map (·.lane) = [15] ∧ c.w.gr.mask = 0x7FFF ∧ c.w.gr.trainOut = [(15, 0, 5002000)] := by decide +kernel
theorem test_grist_train_step : let c := oneLane.onGr .w fun g => { g with training := [⟨3, 7, 0, none, false⟩] }
    let d := run (.gristTrainStepEnd .w 3 0 0 0) { c with now := 1000000000 }
    d.w.gr.training = [] ∧ d.w.gr.reason = 5 := by decide +kernel

/-! ### Checks of the spec's codes -/

/-- "123456789": R61, R62 and R225 give the CRCs. -/
def digits : List Nat := [0x31, 0x32, 0x33, 0x34, 0x35, 0x36, 0x37, 0x38, 0x39]
/-- The primes up to a bound. -/
def primesTo (n : Nat) : List Nat :=
  (List.range (n + 1)).filter fun p => 2 ≤ p && (List.range p).all fun q => q < 2 || p % q ≠ 0

/-- `k` is the first 32 bits of the fraction of the e-th root of `p`. -/
def isRootFraction (e p k : Nat) : Bool :=
  (List.range 20).any fun n => (n * 2 ^ 32 + k) ^ e ≤ p * 2 ^ (32 * e) && p * 2 ^ (32 * e) < (n * 2 ^ 32 + k + 1) ^ e

/-- SHA-256's constants come from the cube roots of the first 64 primes, its start from the square roots of the first 8. -/
theorem test_sha_constants : ((primesTo 311).zip shaK).all (fun x => isRootFraction 3 x.1 x.2) = true ∧
    (primesTo 311).length = 64 ∧ shaK.length = 64 := by decide +kernel
theorem test_sha_start : ((primesTo 19).zip shaInit).all (fun x => isRootFraction 2 x.1 x.2) = true ∧
    (primesTo 19).length = 8 ∧ shaInit.length = 8 := by decide +kernel
/-- The examples of FIPS 180-4: the empty message, and "abc". -/
theorem test_sha256 : sha256 [] =
      [0xE3, 0xB0, 0xC4, 0x42, 0x98, 0xFC, 0x1C, 0x14, 0x9A, 0xFB, 0xF4, 0xC8, 0x99, 0x6F, 0xB9, 0x24,
       0x27, 0xAE, 0x41, 0xE4, 0x64, 0x9B, 0x93, 0x4C, 0xA4, 0x95, 0x99, 0x1B, 0x78, 0x52, 0xB8, 0x55] ∧
    sha256 [0x61, 0x62, 0x63] =
      [0xBA, 0x78, 0x16, 0xBF, 0x8F, 0x01, 0xCF, 0xEA, 0x41, 0x41, 0x40, 0xDE, 0x5D, 0xAE, 0x22, 0x23,
       0xB0, 0x03, 0x61, 0xA3, 0x96, 0x17, 0x7A, 0x9C, 0xB4, 0x10, 0xFF, 0x61, 0xF2, 0x00, 0x15, 0xAD] := by decide +kernel
theorem test_crc16 : crc16 digits = 0x29B1 := by decide +kernel
theorem test_crc32c : crc32c digits = 0xE3069283 := by decide +kernel
theorem test_crc32 : crc32 digits = 0xCBF43926 := by decide +kernel

/-! ### Control ports, messages and time -/

/-- Die W's port has its link. -/
def linked : Chip := live.onPort .w fun x => { x with link := true }

/-- The request of chapter 9's example: SLOT_ARM_CTRL of the standalone module. -/
def armRequest : List Nat := [1, 2, 7, 1, 1, 0, 0, 1, 0xC8, 0, 8, 0, 0, 0, 0, 0, 0x51, 0, 0, 0x40]

theorem test_arm_request : let c := run (.controlWrite .w 0x02005E100001 none armRequest) linked
    c.out = [.frame .w none 0x02005E100001 [1, 0x82, 7, 1, 1, 0, 0, 1, 0xC8, 0, 8, 0, 0, 0, 0, 0]] ∧
      c.fld .w F.SLOT_ARM_CTRL_stripe_id = 0x51 ∧
      (run (.controlWrite .w 0x02005E100001 none armRequest) c).out = c.out ++ c.out ∧
      hits (run (.controlWrite .w 0x02005E100001 none armRequest) c) .w 106 = 1 := by decide +kernel
theorem test_read_request : let c := run (.controlRead .w 9 none [1, 1, 5, 0, 1, 0, 0, 0, 0, 0, 0, 0, 0, 0, 0, 0]) linked
    c.out.length = 1 ∧ (c.w.port.lastOf 9).map (·.seq) = some 5 := by decide +kernel
theorem test_malformed : let c := run (.controlRead .w 9 none [1, 1, 5, 0, 0, 0, 0, 0, 0, 0, 0, 0, 0, 0, 0, 0]) linked
    c.out = [.frame .w none 9 [1, 0x81, 5, 0, 0, 0, 1, 0, 0, 0, 0, 0, 0, 0, 0, 0]] ∧ c.fld .w F.CTRL_REQ_ERR_COUNT_count = 1 := by
  decide +kernel
theorem test_other_module : (run (.controlRead .w 9 none [1, 1, 5, 0, 1, 0, 0, 0, 0, 0, 0, 0x10, 0, 0, 0, 0]) linked).fld .w
    F.CTRL_RX_DISCARD_COUNT_count = 1 := by decide +kernel
theorem test_no_such_die : let c := run (.controlRead .w 9 none [1, 1, 5, 0, 1, 0, 0, 0, 0, 0, 0, 8, 0, 0, 0, 0]) { linked with variant := .k131 };
    c.out = [.frame .w none 9 [1, 0x81, 5, 0, 1, 0, 2, 0, 0, 0, 0, 8, 0, 0, 0, 0]] := by decide +kernel

/-- A request forwarded to die E. -/
def forwarded : Chip := run (.controlRead .w 9 none [1, 1, 5, 0, 1, 0, 0, 0, 0, 0, 0, 8, 0, 0, 0, 0]) linked

theorem test_forward : forwarded.w.port.fwd.length = 1 ∧ (run (.forwardedRequest .w true) forwarded).w.port.fwd = [] ∧
    (run (.forwardedRequest .w false) forwarded).w.port.fwd.map (·.lost) = [true] := by decide +kernel
theorem test_forward_timeout : let c := run (.forwardTimeout .w) { forwarded with now := 5100000 }
    c.w.port.fwd = [] ∧ c.out.length = 1 ∧ c.fld .w F.CTRL_REQ_ERR_COUNT_count = 1 := by decide +kernel
theorem test_discard : (run (.frameDiscard .w 0 0x0800 true) linked).fld .w F.CTRL_RX_DISCARD_COUNT_count = 1 ∧
    run (.frameDiscard .w 5 0x88F7 true) linked = linked := by decide +kernel

/-- A message waits for the host. -/
def queued : Chip := (linked.put .w F.CTRL_HOST_MAC_mac_low 9).queueMsg .w 1 6 1

theorem test_msg_send : let c := run (.msgSend .w) queued
    c.w.port.outstanding.map (·.seq) = some 1 ∧ c.w.port.queue = [] ∧ c.out.length = 1 := by decide +kernel
theorem test_msg_retry : let c := (run (.msgRetry .w) { run (.msgSend .w) queued with now := 6000000000 }).retryEnd .w
    c.w.port.outstanding.map (·.sentAt) = some 6000000000 ∧ c.out.length = 2 := by decide +kernel
theorem test_msg_ack : let c := run (.msgSend .w) queued
    (run (.msgAck .w 1) c).w.port.outstanding = none ∧ run (.msgAck .w 2) c = c := by decide +kernel
theorem test_schedule_window : let c := linked.onPort .w fun x => { x with held := [⟨none, 9, [1]⟩] }
    let d := (run (.scheduleWindowOpen .w) c).openWindow .w
    (run (.scheduleWindowOpen .w) c).w.port.openDue = true ∧ d.out = [.frame .w none 9 [1]] ∧ d.w.port.held = [] := by
  decide +kernel
theorem test_time_step : (run (.timeStep .port 0xFFFFFFFF) { live with time := 2 ^ 65 }).time = 2 ^ 64 := by decide +kernel
theorem test_time_inc : (run (.timeIncWrite .port 2) live).inc = 2 * 2 ^ 32 := by decide +kernel
/-- The clock follows master 1, heard in this tick. -/
def following : Chip := { linked with ptp.masters := [⟨⟨0, 1, 128, 6, 0x20, 0, 128, 7, 0, 0⟩, [5000000]⟩], ptp.parent := some 1 }

theorem test_announce : let a : Announce := ⟨0, 1, 128, 6, 0x20, 0, 128, 7, 0, 0⟩
    let c := run (.ptpMessage .w (.announce { a with source := 2, steps := 1 })) following
    let d := run (.ptpMessage .w (.announce { a with source := 2, steps := 1 })) c
    let e := run (.ptpMessage .w (.announce { a with source := 3, priority1 := 127, grandmaster := 8 })) following
    d.ptp.masters.length = 2 ∧ d.ptp.parent = some 1 ∧
      (run (.ptpMessage .w (.announce { a with source := 3, priority1 := 127, grandmaster := 8 })) e).ptp.parent = some 3 := by decide +kernel
theorem test_delay_req : (run (.ptpMessage .w .delayReq) linked).ptp.reqTx.isSome = true ∧
    run (.ptpMessage .w (.sync 255 1 0 none 0)) linked = linked := by decide +kernel
theorem test_delay_resp : let c := { following with ptp.reqTx := some 100, ptp.t2mt1 := some 40, ptp.reqSeq := 5 };
    (run (.ptpMessage .w (.delayResp 0 1 5 160)) c).ptp.mpd16 = some 800 ∧ (run (.ptpMessage .w (.delayResp 0 1 4 160)) c).ptp.mpd16 = none := by decide +kernel
theorem test_sync_loss : let c := { live with ptp.state := .locked, ptp.lastSync := 0, ptp.syncInterval := 1000000 };
    (run .syncLoss c).ptp.state = .holdSync := by decide +kernel
theorem test_holdover_end : let c := { live with ptp.state := .holdStep, now := 2 ^ 60 };
    (run .holdoverEnd c).ptp.state = .locking := by decide +kernel
theorem test_port_link : (run (.controlPortLinkLoss .w) { linked with ptp.state := .locked }).ptp.state = .holdSync ∧
    (run (.controlPortLinkUp .w) live).w.port.link = true := by decide +kernel

/-! ### Start-up and resets -/

theorem test_power_on : let c := run .powerOn (.reset .k131)
    c.variant = .k131 ∧ c.pwr.good = false ∧ (run (.resetRelease 3) c).cfg.stage = .held ∧
      (run .supplyGood c).pwr.good = true := by decide +kernel
theorem test_release : let c := run (.resetRelease 11) (.reset .k262)
    c.cfg.stage = .image ∧ c.now = 0 ∧ c.nv.bootCount = 1 ∧ c.herd.addr = 3 ∧
      run (.resetRelease 0) { Chip.reset .k262 with pwr.noClockE := true } = { Chip.reset .k262 with pwr.noClockE := true } ∧
      (run (.resetRelease 0) { Chip.reset .k262 with nv.bootCount := 2 ^ 32 - 1 }).nv.bootCount = 2 ^ 32 - 1 := by decide +kernel
theorem test_recovery_boot : let c := run .imageVerifyComplete { Chip.reset .k262 with cfg.stage := .image };
    c.cfg.stage = .recovery ∧ c.cfg.imageA.why = 1 := by decide +kernel

/-- An image of one section, core 0's firmware of 48 zero bytes (R338, R339). -/
def imageOf (seq : Nat) : List (Nat × Nat) :=
  let fw := List.replicate 48 0
  let body := leBytes 2 1 ++ [0, 0] ++ leBytes 4 16 ++ leBytes 4 48 ++ leBytes 4 (crc32c fw) ++ fw
  let head := leBytes 4 0x454C4C4D ++ leBytes 2 1 ++ leBytes 2 1 ++ leBytes 4 seq ++ leBytes 4 64 ++ List.replicate 64 0 ++
    sha256 body ++ List.replicate 12 0
  let bytes := head ++ leBytes 4 (crc32c head) ++ body
  bytes.zipIdx.map fun p => (p.2, p.1)

theorem test_image : let c := run .imageVerifyComplete { Chip.reset .k262 with cfg.stage := .image, nv.flash1 := imageOf 7 };
    c.cfg.stage = .dram ∧ c.cfg.imageB = true ∧ c.cfg.imageBInfo = ⟨7, true, 0⟩ := by decide +kernel
theorem test_boot_ok : let c := run (.bootOk (.mc 0)) { live with cfg.stage := .lanes, cfg.maint := .boot };
    c.cfg.stage = .ready ∧ c.cfg.maint = .locked ∧ hits c .w 200 = 1 := by decide +kernel
theorem test_reset : let c := run (.resetCommand .port) { live with sched.slot := 7, cfg.failCount := 3 };
    c.cfg.stage = .held ∧ c.sched.slot = 0 ∧ c.cfg.failCount = 3 ∧ c.fld .w F.PWR_LAST_RESET_why = 7 ∧
      (run .moduleReset live).cfg.stage = .held := by decide +kernel
theorem test_boot_deadline : let c := run .bootDeadline { live with cfg.stage := .lanes, now := 3500000000 };
    c.cfg.missed = 1 ∧ c.cfg.forceImage = some true ∧ (run .bootDeadline { live with cfg.stage := .lanes }).cfg.missed = 0 := by
  decide +kernel

/-! ### Configuration and access control -/

/-- A swap is armed. -/
def armed : Chip := run (.swapArm .port false) live

theorem test_swap_arm : armed.cfg.swap = some ⟨none, 5000000, false, false, false, [], none, [], false⟩ ∧
    (run (.swapArm .port true) armed).fld .e F.CFG_SWAP_STATUS_reasons = 64 ∧ hits (run (.swapArm .port true) armed) .e 203 = 1 := by
  decide +kernel
theorem test_swap_disarm : (run (.swapDisarm .port false) armed).cfg.swap.map (·.ending) = some (some 4) ∧
    run (.swapDisarm .port false) live = live := by decide +kernel
theorem test_swap_prepare : let c := run (.swapPrepareComplete .w []) armed
    c.w.pendingCopy.isSome = true ∧ c.cfg.swap.map (·.readyW) = some true ∧ c.e = armed.e := by decide +kernel
theorem test_swap_refused : let c := { armed with now := 6000000 };
    c.cfg.swap.map c.swapDue = some true ∧ (run .swapPoint c).cfg.swap.map (·.due) = some true ∧
      (run .swapPoint c).judgeDueSwap.cfg.swap = none ∧
      (run .swapPoint c).judgeDueSwap.fld .w F.CFG_SWAP_STATUS_outcome = 2 ∧
      (run .swapPoint { c with pwr.fault := some (0, 1) }).cfg.swap.map (·.due) = some false := by decide +kernel
/-- Both dies have reported ready, with a shadow register that differs from its active copy. -/
def prepared : Chip :=
  run (.swapPrepareComplete .e []) (run (.swapPrepareComplete .w []) { armed with w := armed.w.setReg 0x040000 1, now := 6000000 })
theorem test_swap_done : prepared.cfg.swap.map (fun w => (prepared.swapDue w, prepared.swapReasons w)) = some (true, []) ∧
    prepared.w.activate.act F.KILN_CTRL_dens_en = 1 ∧ prepared.w.act F.KILN_CTRL_dens_en = 0 := by decide +kernel

/-- A swap that is due while a stripe is exposed waits on (R346). -/
theorem test_swap_not_due : let c := (run .swapPoint { armed with sched.mode := .exposing }).judgeDueSwap
    c.cfg.swap = armed.cfg.swap := by decide +kernel

theorem test_chk_acquire : let c := run (.chkAcquire (.mc 1) .w 3 0) live
    (c.w.chkUnit 3).owner = 2 ∧ hits (run (.chkAcquire .port .w 3 0) c) .w 219 = 1 := by decide +kernel
/-- The unit checks "123456789" by CRC-32C, four bytes twice and one. -/
theorem test_chk_data : let c := run (.chkStart .port .w 0 2) (run (.chkAcquire .port .w 0 0) live)
    let d := run (.chkDataB .port .w 0 0x39) (run (.chkData .port .w 0 0x38373635) (run (.chkData .port .w 0 0x34333231) c))
    (c.w.chkUnit 0).algo = 2 ∧ (d.w.chkUnit 0).reg = (digits.foldl (fun u b => u.take [b]) (c.w.chkUnit 0)).reg := by
  decide +kernel
theorem test_chk_range : let c := run (.chkRangeGo .port .w 0 0x80000004) (run (.chkAcquire .port .w 0 0) live)
    (c.w.chkUnit 0).busy = true ∧ ((run (.chkRangeComplete .w 0 .clean 0) c).w.chkUnit 0).busy = false ∧
      hits (run (.chkRangeComplete .w 0 .clean 0) c) .w 218 = 1 := by decide +kernel
/-- A range whose lines have not all been let through goes on. -/
theorem test_chk_waits : let c := (run (.chkAcquire .port .w 0 0) live).onDram .w fun x => { x with budgets := [] }
    let d := run (.chkRangeGo .port .w 0 0x80000004) c
    d.w.dram.waiting 2 ≠ 0 ∧ run (.chkRangeComplete .w 0 .clean 0) d = d ∧ d.w.dram.rangeFree 0 4 = true ∧ d.w.dram.isOpen 0 = false ∧
      (State.reset.dramWord .w 0).judge.bit? = none := by decide +kernel
theorem test_chk_release : ((run (.chkRelease .port .w 0 0) (run (.chkAcquire .port .w 0 0) live)).w.chkUnit 0).owner = 0 := by
  decide +kernel

theorem test_challenge : (run (.maintChallenge .port) live).cfg.challengeFresh = true ∧
    run (.maintChallenge .port) { live with cfg.failCount := 8 } = { live with cfg.failCount := 8 } := by decide +kernel
theorem test_verify_stale : run (.maintVerify .port) live = live.raise .w 209 := by decide +kernel
theorem test_verify_fails : let c := run (.maintVerify .port) { live with cfg.challengeFresh := true, cfg.challenge := [1], cfg.failCount := 7 };
    let d := run .maintVerifyComplete (c.onCfg fun x => { x with verify := x.verify.map fun v => { v with duration := 0 } })
    c.cfg.verify.isSome = true ∧ d.cfg.failCount = 8 ∧ d.cfg.maint = .lockout ∧ hits d .w 207 = 1 := by decide +kernel
theorem test_maint_close : let c := { live with cfg.maint := .opened };
    (run (.maintClose .port) c).cfg.maint = .locked ∧ hits (run .maintExpiry c) .w 206 = 1 ∧
      run .maintExpiry { c with cfg.openUntil := 5000001 } = { c with cfg.openUntil := 5000001 } := by decide +kernel

theorem test_kick : let c := run (.watchdogKick (.mc 1) .w 1 (0x00100005)) live
    c.w.mc1.kickAt = 5000000 ∧ c.fld .w (F.CFG_MC_CTRL_wd_ms.at 1) = 16 := by decide +kernel
theorem test_restart : let c := run (.coreRestart (.mc 0) .e 1 0) live
    c.e.mc1.state = .reloading ∧ c.e.mc1.cause = 3 := by decide +kernel
theorem test_watchdog : let c := run (.watchdogExpiry .w 0) (live.put .w (F.CFG_MC_CTRL_wd_ms.at 0) 5)
    c.w.mc0.cause = 2 ∧ hits c .w 214 = 1 := by decide +kernel
theorem test_reload : let c := run (.coreRestart (.mc 0) .w 0 0) { live with nv.flash0 := imageOf 7 };
    (run (.coreReloadComplete .w 0) c).w.mc0.state = .running ∧ hits (run (.coreReloadComplete .w 0) c) .w 215 = 1 := by
  decide +kernel
theorem test_measurement : let c := run .measurementRecomputeComplete { live with cfg.measBusy := true, cfg.stage := .recovery };
    c.cfg.measBusy = false ∧ c.cfg.meas.length = 32 ∧ hits c .w 212 = 1 ∧ hits c .e 212 = 0 := by decide +kernel

theorem test_flash_read : (run (.flashRead (.mc 1) false) (live.put .w F.CFG_FLASH_ADDR_addr 5)).cfg.flashOp.map
    (fun o => (o.op, o.device, o.addr)) = some (1, 0, 5) := by decide +kernel
theorem test_flash : let c := run (.flashProgram (.mc 0) true) (live.put .w F.CFG_FLASH_ADDR_addr 65537)
    let e := run (.flashErase (.mc 0) true) (live.put .w F.CFG_FLASH_ADDR_addr 65537)
    c.cfg.flashOp.map (fun o => (o.op, o.device, o.addr)) = some (2, 1, 65536) ∧ live.mayClosed (.mc 0) = true ∧
      e.cfg.flashOp.map (fun o => (o.op, o.device, o.addr)) = some (3, 1, 65536) ∧
      smGet 255 65536 (run (.flashOperationDone false) c).nv.flash1 = 0 ∧
      hits (run (.flashErase (.mc 0) false) live) .w 217 = 1 := by decide +kernel

/-- The running image's device and the counter sector are not written; without access, and while an operation runs, nothing is. -/
theorem test_flash_refused : let c := live.put .w F.CFG_FLASH_ADDR_addr 0x3FF0000
    let busy := run (.flashRead (.mc 1) false) live
    live.runningDevice = some 0 ∧ hits (run (.flashProgram (.mc 0) false) live) .w 217 = 1 ∧
      hits (run (.flashErase (.mc 0) true) c) .w 217 = 1 ∧ live.mayClosed .port = false ∧
      run (.flashErase .port true) live = live ∧ run (.flashErase (.mc 0) true) busy = busy := by decide +kernel

/-! ### Herds -/

/-- Settings of a herd of modules 0, 1 and 2, all of which may be buck. -/
def herdSettings : HerdSettings := ⟨7, 7, true, 300, 1000, 0, 0x1234⟩

/-- Module 1 in a role, which knows module 0 as given; module 0 is the buck of a member. -/
def member (role : HerdRole) (p : Peer) : Chip :=
  { live with herd := { live.herd with role := role, addr := 1, buckId := 0, settings := some herdSettings, peers := [p] } }

/-- Module 0, admitted and heard at a tick. -/
def heard (t : Nat) : Peer := { Peer.fresh 0 with admitted := true, heardAt := t }

/-- A SLOT message: slot 9 fires in the idle mode. -/
def nine : SlotMsg := ⟨9, true, 0, false, none, none, [], none, none, false, false⟩

theorem test_hello : let c := run .helloSend (member .joining (heard 0))
    c.out = [.sync false 1 0 0 (.hello 0x0262 1 1 0x1234), .sync true 1 0 0 (.hello 0x0262 1 1 0x1234)] ∧
      c.herd.hellos = 500 ∧ run .helloSend live = live := by decide +kernel
theorem test_status : (run .statusSend (member .member (heard 0))).out.length = 2 ∧
    (run .statusSend (member .joining (heard 0))).out = [] := by decide +kernel
theorem test_time : (run .timeSend (member .buck (heard 0))).out =
    [.sync false 1 0 0 (.time live.time 0 5000000), .sync true 1 0 0 (.time live.time 0 5000000)] := by decide +kernel
/-- Both sync links of the module are in lock. -/
def synced (c : Chip) : Chip := { c with herd := { c.herd with rxA := locked, rxB := locked, linkA := true, linkB := true } }

theorem test_sync_decision : let m := synced (member .member (heard 0))
    let c := run (.syncMessageReceive false 0 [] 0 4 5 (.slot nine) 5000300 100 200) m
    c.herd.decisions = [⟨5000300, some nine, none⟩] ∧ c.out = [.sync true 0 4 6 (.slot nine)] ∧
      (run (.syncMessageReceive true 0 [] 0 4 6 (.slot nine) 0 0 0) c).herd.decisions = c.herd.decisions ∧
      (run (.syncMessageReceive true 0 [] 0 4 6 (.slot nine) 0 0 0) c).out = c.out := by decide +kernel
theorem test_sync_standalone : run (.syncMessageReceive false 0 [] 0 4 0 (.slot nine) 0 0 0) live = live := by decide +kernel
/-- Without both locks a block is discarded and counted, and the message is not used (R365). -/
theorem test_sync_unlocked : let m := member .member (heard 0)
    let c := run (.syncMessageReceive true 0 [⟨1, 0⟩] 0 4 0 (.slot nine) 5000300 100 200) m
    c.herd.decisions = [] ∧ c.herd.linkB = false ∧ c.fld .w F.HERD_LINK_ERR_b = 1 ∧ c.fld .w F.HERD_LINK_ERR_a = 0 := by decide +kernel
theorem test_own_address : let m := synced (member .joining (heard 0))
    let c := run (.syncMessageReceive false 0 [] 1 0 0 (.hello 0x0262 1 1 0x1234) 0 0 0) m
    c.herd.role = .refused ∧ hits c .w 231 = 1 ∧
      (run (.syncMessageReceive false 0 [] 1 0 0 (.hello 0x0262 1 1 0x1234) 0 0 0) { m with herd.helloSeq := some 0 }).herd.role =
        .joining := by decide +kernel
theorem test_election : let c := member .joining (heard 0)
    (run .herdElection { c with now := 2000000000, herd.peers := [] }).herd.role = .buck ∧
      (run .herdElection { c with now := 2000000000 }).herd.buckId = 0 ∧
      (run .herdElection { c with now := 2000000000 }).herd.role = .joining := by decide +kernel
theorem test_decision_act : let c := { member .member (heard 0) with herd.decisions := [⟨5000000, some nine, none⟩] };
    (run .herdDecisionAct c).sched.slot = 9 ∧ (run .herdDecisionAct c).herd.decisions = [] ∧
      run .herdDecisionAct { c with now := 4999999 } = { c with now := 4999999 } := by decide +kernel
theorem test_digest : let c := { member .buck (heard 0) with herd.measDirty := true };
    (run .herdDigestComplete c).herd.measDirty = false ∧ (run .herdDigestComplete c).herd.meas ≠ c.herd.meas := by decide +kernel
theorem test_member_loss : let c := run (.memberLoss 0) (member .buck (heard 4998000))
    c.herd.peer? 0 = some { heard 4998000 with admitted := false, gone := true, goneAt := 5000000 } ∧ c.fld .w F.HERD_LOST_COUNT_count = 1 ∧
      hits c .w 225 = 1 ∧ run (.memberLoss 0) (member .buck (heard 4998001)) = member .buck (heard 4998001) := by decide +kernel
theorem test_sync_link_loss : let c := { member .member (heard 0) with herd.linkB := true };
    (run (.syncLinkLoss true) c).herd.linkB = false ∧ hits (run (.syncLinkLoss true) c) .w 228 = 1 ∧
      run (.syncLinkLoss false) c = c := by decide +kernel
theorem test_buck_loss : let c := (member .member (heard 4998000)).onDie .e fun x => { x with ilk.gateOpen := true }
    let d := run .buckLoss c
    d.herd.role = .lost ∧ d.herd.lostAt = 5000000 ∧ d.e.ilk.gateOpen = false ∧ d.fld .e F.ILK_FIRST_source = 9 ∧
      d.fld .e F.ILK_FIRST_module_id = 0 ∧ hits d .w 230 = 1 ∧
      run .buckLoss (member .member (heard 4998001)) = member .member (heard 4998001) := by decide +kernel
theorem test_failover : let c := { member .lost (heard 4000000) with herd.lostAt := 4900000 };
    (run .failoverElection c).herd.role = .buck ∧ (run .failoverElection c).herd.buckId = 1 ∧
      hits (run .failoverElection c) .w 227 = 1 ∧ (run .failoverElection { c with now := 4999999 }).herd.role = .lost := by
  decide +kernel

/-- An election after a loss is held once (R383). -/
theorem test_failover_once : let c := { member .lost (heard 4000000) with herd.lostAt := 4900000, herd.elected := true };
    run .failoverElection c = c := by decide +kernel

/-! ### Calibration -/

/-- R396: the figures of the spec's example. -/
theorem test_figures : figuresOf 16 56 200 3 4600000 205 247970 882889 =
    some ⟨4999992, some 4199, some 189, some 2119⟩ := by decide +kernel

/-- Calibration is enabled, in a calibration window, with the engine as given. -/
def bench (x : Cal) : Chip :=
  { live.puts .w [(F.CAL_CTRL_en, 1), (F.CAL_BURST_code_hi, 56), (F.CAL_BURST_code_lo, 16)] with
    cal := x, sched := { Sched.reset with calOpen := true } }

/-- A step for the beams at positions 0 and 3. -/
def step' (left : List Nat) : CalStep := ⟨.w, 0, 0, left, 5, 7⟩

/-- A measurement of 1,024 samples has been taken. -/
def taken (p : CalPhase) (sum : Int) : Cal := { Cal.reset with phase := p, range := 0, sum := sum, count := 1024, chainSeq := 8 }

theorem test_chain_request : let c := run (.chainCheckRequest .port 7) live
    c.cal.chainWanted = true ∧ c.fld .w F.CAL_CTRL_en = 1 ∧ c.fld .w F.CAL_CTRL_capture_en = 1 := by decide +kernel
theorem test_step_go : let c := (bench Cal.reset).put .w F.CAL_STEP_MASK_mask_low 9
    (run (.calStepGo .port 1) c).cal.step.map (·.left) = some [0, 3] ∧ (run (.calStepGo .port 1) c).cal.phase = .waiting ∧
      (run (.calAbort .port 1) (run (.calStepGo .port 1) c)).cal.step = none ∧
      hits (run (.calStepGo .port 1) (bench Cal.reset)) .w 232 = 1 := by decide +kernel
theorem test_step_busy : let c := bench { Cal.reset with step := some (step' [0]), phase := .waiting }
    (run (.calStepGo .port 1) c).cal = c.cal ∧ (run (.calAbort .port 1) c).cal.step = none ∧
      (run (.calAbort .port 1) (bench Cal.reset)).cal = Cal.reset := by decide +kernel
theorem test_chain_start : (run .chainCheckStart (bench { Cal.reset with chainWanted := true })).cal.phase = .chainZero ∧
    run .chainCheckStart (bench Cal.reset) = bench Cal.reset := by decide +kernel
theorem test_zero : (run .calZeroComplete (bench (taken .zero 8))).cal.z = 2 ∧
    (run .calZeroComplete (bench (taken .zero 8))).cal.phase = .gap ∧
    (run .calZeroComplete (bench { taken .zero 8 with clipped := true })).cal.phase = .zero ∧
    (run .calZeroComplete (bench (taken .chainZero (-8)))).cal.z = -2 ∧
    (run .calZeroComplete (bench (taken .chainZero (-8)))).cal.phase = .chainRef ∧
    (run .calZeroComplete (bench { taken .chainZero 0 with clipped := true })).cal.count = 0 := by decide +kernel
/-- 1,024 samples of 16,384 LSB in range 0 are a current of 50,000 fA, measured against a reference as given. -/
def reference (ref : Nat) : Chip :=
  ((bench (taken .chainRef (1024 * 16384))).put .w F.CAL_LIMITS_chain_tol_ppm 1000).onDie .w (·.putAct F.CAL_REF_FA_ref_fa ref)
theorem test_chain : let c := run .chainCheckComplete (reference 50025)
    c.cal.kChain = 65569 ∧ c.cal.chainSeq = 9 ∧ c.cal.passAt = some 5000000 ∧ hits c .w 234 = 1 ∧ hits c .w 235 = 0 := by
  decide +kernel
theorem test_chain_fails : let c := run .chainCheckComplete (reference 50075)
    c.cal.kChain = 65536 ∧ c.cal.chainSeq = 8 ∧ c.cal.pass = false ∧ hits c .w 234 = 1 ∧ hits c .w 235 = 1 := by decide +kernel
theorem test_adc : let c := bench { Cal.reset with phase := .span, slotAt := 4995000 }
    (run (.calAdcSample (-32768)) c).cal.sum = -32768 ∧ (run (.calAdcSample (-32768)) c).cal.clipped = true ∧
      (run (.calAdcSample 5) (bench { Cal.reset with phase := .span, slotAt := 4994999 })).cal.sum = 0 ∧
      (run (.calAdcSample 5) (bench Cal.reset)).cal.sum = 0 ∧ (run (.calAdcSample 5) (bench Cal.reset)).cal.samples = 5000 ∧
      run (.calAdcSample 6) (run (.calAdcSample 5) c) = run (.calAdcSample 5) c ∧
      run (.calAdcSample 5) { c with now := 999 } = { c with now := 999 } := by decide +kernel
/-- A burst in its gap. -/
def gap : Cal := { Cal.reset with step := some (step' [0, 3]), phase := .gap, phaseAt := 4980000, burst := .beam 0 false }
theorem test_burst_start : let c := run .calBurstStart (bench gap)
    c.cal.phase = .slots ∧ c.cal.fired = 1 ∧ c.cal.n = 1024 ∧ c.sched.slot = 1 ∧ c.cal.slotAt = 5000000 ∧
      (run .calBurstStart (bench { gap with phaseAt := 4980001 })).cal.phase = .gap := by decide +kernel
theorem test_burst_slot : let c := bench { gap with phase := .slots, n := 64, fired := 63, slotAt := 0 }
    (run .calBurstSlot c).cal.phase = .span ∧ (run .calBurstSlot c).cal.fired = 64 ∧ (run .calBurstSlot c).sched.slot = 1 := by
  decide +kernel
/-- A burst's span, 5 µs after its last slot. -/
def spanOf (k : BurstKind) : Cal :=
  { gap with phase := .span, range := 0, burst := k, slotAt := 4995000, n := 64, count := 64, sum := 2 ^ 25, kChain := 65536 }
theorem test_burst_discard : let c := run .calBurstComplete (bench { spanOf .background with clipped := true, echoHit := true })
    c.cal.phase = .waiting ∧ c.cal.lastDiscard = 1 ∧ c.fld .w F.CAL_DISCARD_COUNT_count = 1 ∧ hits c .w 233 = 1 := by decide +kernel
theorem test_burst_kinds : let q := (run .calBurstComplete (bench (spanOf .background))).cal
    let l := (run .calBurstComplete (bench (spanOf (.beam 0 false)))).cal
    let h := (run .calBurstComplete (bench (spanOf (.beam 0 true)))).cal
    let z := run .calBurstComplete (bench { spanOf (.beam 3 true) with step := some (step' [3]) })
    (q.step.map (·.qBg), q.burst, q.phase) = (some 1600000, .beam 0 false, .gap) ∧
      (l.step.map (·.qLo), l.burst) = (some 1599995, .beam 0 true) ∧
      (h.step.map (·.left), h.burst) = (some [3], .beam 3 false) ∧
      z.cal.step = none ∧ z.cal.phase = .idle ∧ hits z .w 232 = 1 := by decide +kernel

/-- Die W recalibrates its lanes each hour, and the lane `n` is next. -/
def turn (due : Bool) (n : Nat) : Chip :=
  { live with now := 3600000000000 }.onDie .w fun x => { x.setReg F.CAL_LANE_CTRL_en.off 3 with
    laneCal := { x.laneCal with due := due, next := n, endedAt := 0 } }
theorem test_recal_turn : (run (.laneRecalTurn .w) (turn false 0)).w.laneCal.due = true ∧
    run (.laneRecalTurn .w) { turn false 0 with now := 3599999999999 } = { turn false 0 with now := 3599999999999 } := by
  decide +kernel

theorem test_recal_start : let c := run (.laneRecalStart .w) (turn true 70)
    c.w.laneCal.busy = true ∧ c.w.gr.training.map (·.lane) = [2] ∧
      (run (.laneRecalStart .w) { turn true 70 with sched.mode := .exposing }).w.laneCal.due = true := by decide +kernel
theorem test_recal_failed : let c := (turn true 66).onBlnk .w fun x => x.onPhy 66 fun y => { y with failed := true }
    (run (.laneRecalStart .w) c).w.laneCal.outcome = 2 ∧ (run (.laneRecalStart .w) c).w.laneCal.next = 67 := by decide +kernel
theorem test_recal_handover : let c := turn true 3
    (run (.laneRecalStart .w) c).w.blnk.hos.map (fun h => (h.lam, h.toLane)) = [(3, 16)] := by decide +kernel

/-- A lane that has yielded waits for a turnaround window, and a failed Grist lane is skipped (R399, R400). -/
theorem test_recal_yielded : let c := { turn true 3 with w.laneCal.yielded := true };
    run (.laneRecalStart .w) c = c ∧ (run (.laneRecalStart .w) { c with sched.turnAt := some c.now }).w.laneCal.busy = true := by
  decide +kernel
theorem test_recal_failed_grist : let c := (turn true 83).onGr .w fun x => x.onPhy 15 fun y => { y with failed := true }
    (run (.laneRecalStart .w) c).w.laneCal.outcome = 2 ∧ (run (.laneRecalStart .w) c).w.laneCal.next = 0 := by decide +kernel

/-! ### Supply and temperature -/

theorem test_sensors : (run (.sensorRead .iin 70000) live).fld .w F.PWR_VIN_iin_ma = 65535 ∧
    (run (.sensorRead .vin 480) { live with pwr.vinWarn := true }).pwr.vinWarn = false ∧
    (run (.sensorRead .vin 359) { live with pwr.vinWarn := true }).pwr.vinWarn = true ∧
    (run (.sensorRead .power 40) live).fld .w F.PWR_POWER_peak_dw = 40 := by decide +kernel
theorem test_power_limit : let c := live.put .w F.PWR_THERM_CFG_warn_power_w 50
    hits (run (.powerAboveLimit 501) c) .w 245 = 1 ∧ hits (run (.powerAboveLimit 500) c) .w 245 = 0 ∧
      hits (run (.sensorRead .power 502) (run (.powerAboveLimit 501) c)) .w 245 = 1 := by decide +kernel
theorem test_warnings : let c := run (.supplyWarning 751 10000) live
    c.pwr.vinWarn = true ∧ hits c .w 240 = 1 ∧ hits (run (.supplyWarning 359 10000) c) .w 240 = 1 ∧
      run (.supplyWarning 359 9999) c = c ∧ hits (run (.railMarginLow 31 10000) live) .w 246 = 1 ∧
      (run (.railMarginLow 30 10000) { live with pwr.railLow := true }).pwr.railLow = false := by decide +kernel
theorem test_supply_fault : let c := run (.supplyFault 4 51 2000) ({ live with sched.slot := 2 ^ 32 + 6 }.onDie .w fun x => { x with ilk.gateOpen := true })
    c.pwr.fault = some (5000000, 4) ∧ c.fld .w F.PWR_LAST_RESET_why = 4 ∧ c.fld .w F.PWR_LAST_RESET_1_slot_low = 6 ∧
      c.fld .w F.PWR_FAULT_COUNT_supply = 1 ∧ hits c .w 241 = 1 ∧ c.w.ilk.gateOpen = false ∧ c.pwr.good = false ∧ run (.supplyFault 1 335 10000) live = live := by decide +kernel
/-- A second cause within the 50 µs is counted and puts off no reset; the same one is not counted again. -/
theorem test_second_fault : let c := run (.supplyFault 4 51 2000) live
    let d := run (.supplyFault 1 334 10000) { c with now := c.now + 9 }
    d.pwr.fault = some (5000000, 4) ∧ d.fld .w F.PWR_FAULT_COUNT_supply = 2 ∧ d.fld .w F.PWR_LAST_RESET_why = 4 ∧
      hits d .w 241 = 2 ∧ run (.supplyFault 1 334 10000) d = d := by decide +kernel
theorem test_trip : let c := run (.sensorRead (.junction .e 31) 320) live
    let b := run (.sensorRead .base 270) live
    c.pwr.fault = some (5000000, 5) ∧ hits c .w 243 = 1 ∧ c.fld .w F.PWR_FAULT_COUNT_thermal = 1 ∧
      b.pwr.hot = true ∧ hits b .w 243 = 1 ∧ (run (.sensorRead (.junction .e 31) 319) live).pwr.fault = none := by decide +kernel
theorem test_sensor_fault : let c := run (.sensorFault (.junction .e 0) 100000) live
    c.pwr.fault = some (5000000, 6) ∧ hits c .e 247 = 1 ∧ hits c .w 243 = 1 := by decide +kernel
theorem test_fault_reset : let c := { (live.put .w F.PWR_FAULT_COUNT_supply 3).put .w F.PWR_LAST_RESET_vin_min_dv 301 with pwr.fault := some (4950000, 2) };
    (run .supplyFaultReset c).cfg.stage = .held ∧ (run .supplyFaultReset c).fld .w F.PWR_LAST_RESET_vin_min_dv = 301 ∧
      (run .supplyFaultReset c).fld .w F.PWR_FAULT_COUNT_supply = 3 ∧
      run .supplyFaultReset { c with now := 4999999 } = { c with now := 4999999 } := by decide +kernel

end Sys2Proof.Tests
end

section
/-! The control ports: how a request is taken, and how a reply leaves a port no frame waits at. -/

namespace Sys2Proof.Machine

/-! ### Registers beside a count or a port -/

theorem Die.fld_bumpBy_other (x : Die) (f g : Fld) (n : Nat) (h : g.off ≠ f.off) : (x.bumpBy f n).fld g = x.fld g :=
  x.fld_put_other f g _ h

theorem Chip.fld_bump_other (c : Chip) (d : DieId) (f g : Fld) (h : g.off ≠ f.off) :
    (c.bump d f).fld d g = c.fld d g := by
  simp [Chip.fld, Die.fld_bumpBy_other _ _ _ _ h]

@[simp] theorem Chip.fld_onPort (c : Chip) (d p : DieId) (f : Port → Port) (g : Fld) :
    (c.onPort p f).fld d g = c.fld d g := by
  cases d <;> cases p <;> rfl

@[simp] theorem Chip.flag_onPort (c : Chip) (d p : DieId) (f : Port → Port) (g : Fld) :
    (c.onPort p f).flag d g = c.flag d g := by
  simp [Chip.flag]

theorem Chip.flag_bump_other (c : Chip) (d : DieId) (f g : Fld) (h : g.off ≠ f.off) :
    (c.bump d f).flag d g = c.flag d g := by
  simp [Chip.flag, Chip.fld_bump_other _ _ _ _ h]

/-! ### A frame leaves at once (R274) -/

/-- A change of a port that leaves its present value as it is changes nothing. -/
theorem Chip.onPort_eq_self (c : Chip) (p : DieId) (f : Port → Port) (h : f (c.die p).port = (c.die p).port) :
    c.onPort p f = c := by
  cases p <;> simp_all [Chip.onPort, Chip.onDie]

@[simp] theorem Chip.held_sendFrame (c : Chip) (p : DieId) (f : PortFrame) :
    ((c.sendFrame p f).die p).port.held = (c.die p).port.held := by
  simp [Chip.sendFrame]

theorem Chip.flushHeld_nil (c : Chip) (p : DieId) (hheld : (c.die p).port.held = []) : c.flushHeld p [] = c :=
  c.onPort_eq_self p _ (by rw [← hheld])

theorem Chip.flushHeld_cons (c : Chip) (p : DieId) (f : PortFrame) (l : List PortFrame)
    (hfits : c.mayLaunch p ((c.die p).port.lineFree - c.now) f = true) :
    c.flushHeld p (f :: l) = (c.sendFrame p f).flushHeld p l := by
  simp [Chip.flushHeld, hfits]

theorem Chip.mayLaunch_open (c : Chip) (p : DieId) (wait : Nat) (f : PortFrame)
    (hopen : c.flag p F.CTRL_MSG_CFG_sched_en = false) : c.mayLaunch p wait f = true := by
  simp [Chip.mayLaunch, hopen]

/-- With no frame waiting and no schedule in force, a frame is sent and none waits behind it. -/
theorem Chip.launch_open (c : Chip) (p : DieId) (f : PortFrame) (hheld : (c.die p).port.held = [])
    (hopen : c.flag p F.CTRL_MSG_CFG_sched_en = false) : c.launch p f = c.sendFrame p f := by
  have hqueue : c.launch p f = c.flushHeld p [f] := by simp [Chip.launch, hheld]
  rw [hqueue, c.flushHeld_cons p f [] (c.mayLaunch_open p _ f hopen), Chip.flushHeld_nil]
  rw [Chip.held_sendFrame, hheld]

/-- An error reply at such a port is counted and sent (R266, R274). -/
theorem Chip.sendReply_error_open (c : Chip) (p : DieId) (src : Nat) (tag : Option Nat) (x : Pdu) (status : Nat)
    (data : List Nat) (hstatus : status ≠ 0) (hheld : (c.die p).port.held = [])
    (hopen : c.flag p F.CTRL_MSG_CFG_sched_en = false) :
    let f : PortFrame := ⟨tag, src, c.replyPdu x status data⟩
    c.sendReply p src tag x status data =
      ((c.onPort p (·.remember ⟨src, x.seq, some f⟩)).bump p F.CTRL_REQ_ERR_COUNT_count).sendFrame p f := by
  have hcfg : F.CTRL_MSG_CFG_sched_en.off ≠ F.CTRL_REQ_ERR_COUNT_count.off := by decide
  rw [Chip.sendReply, Chip.postReply, if_neg hstatus, Chip.launch_open]
  · simp [Port.remember, hheld]
  · rw [Chip.flag_bump_other _ _ _ _ hcfg, Chip.flag_onPort, hopen]

/-! ### A request is taken (R265 to R268) -/

/-- A READ or a WRITE that arrives at a port which carries frames is handed to the port's request logic. -/
theorem completes_controlRequest (s : State) (p : DieId) (src : Nat) (tag : Option Nat) (b : List Nat) (hruns : s.runs)
    (hup : s.chip.portUp p = true) (hop : leAt b 1 1 = 1 ∨ leAt b 1 1 = 2) :
    Completes (if leAt b 1 1 = 1 then .controlRead p src tag b else .controlWrite p src tag b) s
      (s.chip.request p src tag b) := by
  obtain hop | hop := hop
  · have hexec : exec (.controlRead p src tag b) s = execControlRead p src tag b s := rfl
    simp [Completes, hop, hexec, execControlRead, State.nextChip_running s _ hruns, hup]
  · have hexec : exec (.controlWrite p src tag b) s = execControlWrite p src tag b s := rfl
    simp [Completes, hop, hexec, execControlWrite, State.nextChip_running s _ hruns, hup]

/-- A request for this module that does not repeat its source's last one is judged afresh. -/
theorem Chip.request_fresh (c : Chip) (p : DieId) (src : Nat) (tag : Option Nat) (b : List Nat)
    (hid : (readPdu b).addr / 2 ^ 28 = c.ownId)
    (hnew : ∀ r, (c.die p).port.lastOf src = some r → r.seq ≠ (readPdu b).seq) :
    c.request p src tag b = c.freshRequest p src tag b (readPdu b) := by
  unfold Chip.request
  cases hlast : (c.die p).port.lastOf src with
  | none => simp [-Nat.reducePow, hid]
  | some r => simp [-Nat.reducePow, hid, hnew r hlast]

/-- A well-formed request for a die that is not there is answered with status 0x02 and no data (R7, R266). -/
theorem Chip.freshRequest_noDie (c : Chip) (p : DieId) (src : Nat) (tag : Option Nat) (b : List Nat) (x : Pdu)
    (hversion : x.version = 1) (hform : c.malformed x b tag = false) (hdie : c.hasDie x.die = false) :
    c.freshRequest p src tag b x = c.sendReply p src tag x 2 [] := by
  simp [Chip.freshRequest, hversion, hform, hdie]

/-- On a K131 there is no die for a request whose die bit is 1 (R2, R7). -/
theorem Chip.hasDie_of_dieBit_k131 (c : Chip) (x : Pdu) (hk131 : c.variant = .k131) (hbit : nbit x.addr 27 = true) :
    c.hasDie x.die = false := by
  have hdie : x.die = .e := by simp [Pdu.die, hbit]
  simp [Chip.hasDie, Chip.two, hk131, hdie]

/-! ### The die that a K131 has not -/

/-- Settles O46: the request falls through to the judgement of its die, which a K131 has not, and the error reply is counted
and sent; beside the count only the port and the output differ. -/
theorem noSuchDie : Obligations.NoSuchDie := by
  unfold Obligations.NoSuchDie
  intro s src tag b hruns hk131 hup hop x hversion hid hform hbit hnew hheld hopen
  have hdie : s.chip.hasDie x.die = false := s.chip.hasDie_of_dieBit_k131 x hk131 hbit
  have hreply : s.chip.request .w src tag b = s.chip.sendReply .w src tag x 2 [] := by
    rw [Chip.request_fresh _ _ _ _ _ hid hnew, Chip.freshRequest_noDie _ _ _ _ _ _ hversion hform hdie]
  have hdone := completes_controlRequest s .w src tag b hruns hup hop
  rw [hreply, Chip.sendReply_error_open _ _ _ _ _ _ _ (by decide) hheld hopen] at hdone
  exact ⟨_, hdone, rfl, rfl⟩

end Sys2Proof.Machine
end

section
/-! The Evune link: the failure of a lane, the loss of the link, and its return (R28, R29, R434). -/

namespace Sys2Proof.Machine

/-! ### Changes of the two dies alone -/

/-- `c'` differs from `c` in its dies at most. -/
def Chip.OnlyDies (c c' : Chip) : Prop := c' = { c with w := c'.w, e := c'.e }

theorem Chip.OnlyDies.trans {a b c : Chip} (hab : a.OnlyDies b) (hbc : b.OnlyDies c) : a.OnlyDies c := by
  rw [Chip.OnlyDies, hbc, hab]

theorem Chip.onlyDies_onDie (c : Chip) (d : DieId) (f : Die → Die) : c.OnlyDies (c.onDie d f) := by
  cases d <;> rfl

theorem Chip.onlyDies_raise (c : Chip) (d : DieId) (n : Nat) : c.OnlyDies (c.raise d n) := by
  obtain ⟨v, p, r, t, h⟩ := c.raise_shape d n
  exact h ▸ c.onlyDies_onDie d _

theorem Chip.onlyDies_raiseBoth (c : Chip) (n : Nat) : c.OnlyDies (c.raiseBoth n) :=
  (c.onlyDies_raise .w n).trans (Chip.onlyDies_raise _ .e n)

theorem Chip.OnlyDies.hasDie {c c' : Chip} (h : c.OnlyDies c') (d : DieId) : c'.hasDie d = c.hasDie d := by
  rw [h]; rfl

theorem Chip.OnlyDies.evune {c c' : Chip} (h : c.OnlyDies c') : c'.evune = c.evune := by rw [h]

/-- An occurrence on both dies of a K262 counts once on each (R320). -/
theorem Chip.evtCount_raiseBoth (c : Chip) (d : DieId) (n : Nat) (he : c.hasDie .e = true) (hn : sourceUsed n = true) :
    ((c.raiseBoth n).die d).evtCount n = satAdd 255 ((c.die d).evtCount n) 1 := by
  cases d with
  | w =>
    rw [Chip.raiseBoth, Chip.die_raise_other _ _ _ _ (by decide), Chip.evtCount_raise _ _ _ rfl hn]
  | e =>
    have he' : (c.raise .w n).hasDie .e = true := ((c.onlyDies_raise .w n).hasDie .e).trans he
    rw [Chip.raiseBoth, Chip.evtCount_raise _ _ _ he' hn, Chip.die_raise_other _ _ _ _ (by decide)]

theorem satAdd_one (limit a : Nat) : satAdd limit a 1 = min limit (a + 1) := by
  unfold satAdd
  split <;> omega

/-! ### Changes that leave the registers, the event counts and the hold of each die -/

/-- `y` has the registers, the event counts and the hold of `x`. -/
structure Die.SameRecord (x y : Die) : Prop where
  regs : y.regs = x.regs
  counts : y.evt.counts = x.evt.counts
  hold : y.hold = x.hold

/-- `c'` differs from `c` in its dies at most, and not in their registers, event counts or hold. -/
structure Chip.Quiet (c c' : Chip) : Prop where
  onlyDies : c.OnlyDies c'
  sameRecord : ∀ d, (c.die d).SameRecord (c'.die d)

theorem Die.SameRecord.refl (x : Die) : x.SameRecord x := ⟨rfl, rfl, rfl⟩

theorem Die.SameRecord.trans {x y z : Die} (hxy : x.SameRecord y) (hyz : y.SameRecord z) : x.SameRecord z :=
  ⟨hyz.regs.trans hxy.regs, hyz.counts.trans hxy.counts, hyz.hold.trans hxy.hold⟩

theorem Die.SameRecord.fld {x y : Die} (h : x.SameRecord y) (f : Fld) : y.fld f = x.fld f := by
  simp [Die.fld, Die.reg, h.regs]

theorem Die.SameRecord.evtCount {x y : Die} (h : x.SameRecord y) (n : Nat) : y.evtCount n = x.evtCount n := by
  simp [Die.evtCount, h.counts]

theorem Chip.Quiet.refl (c : Chip) : c.Quiet c := ⟨rfl, fun d => .refl (c.die d)⟩

theorem Chip.Quiet.trans {a b c : Chip} (hab : a.Quiet b) (hbc : b.Quiet c) : a.Quiet c :=
  ⟨hab.onlyDies.trans hbc.onlyDies, fun d => (hab.sameRecord d).trans (hbc.sameRecord d)⟩

theorem Chip.quiet_onDie (c : Chip) (d : DieId) (f : Die → Die) (h : (c.die d).SameRecord (f (c.die d))) :
    c.Quiet (c.onDie d f) := by
  refine ⟨c.onlyDies_onDie d f, fun d' => ?_⟩
  by_cases hd : d' = d
  · subst hd; simpa using h
  · rw [Chip.die_onDie_other _ _ _ _ hd]; exact .refl _

theorem Chip.quiet_onGrist (c : Chip) (d : DieId) (f : Grist → Grist) : c.Quiet (c.onGrist d f) :=
  c.quiet_onDie d (fun x => { x with grist := f x.grist }) ⟨rfl, rfl, rfl⟩

theorem Chip.quiet_onKiln (c : Chip) (d : DieId) (f : Kiln → Kiln) : c.Quiet (c.onKiln d f) :=
  c.quiet_onDie d (fun x => { x with kiln := f x.kiln }) ⟨rfl, rfl, rfl⟩

theorem Chip.quiet_onEvl (c : Chip) (d : DieId) (f : Evl → Evl) : c.Quiet (c.onEvl d f) :=
  c.quiet_onDie d (fun x => { x with evl := f x.evl }) ⟨rfl, rfl, rfl⟩

theorem Chip.quiet_onBlnk (c : Chip) (d : DieId) (f : Blnk → Blnk) : c.Quiet (c.onBlnk d f) :=
  c.quiet_onDie d (fun x => { x with blnk := f x.blnk }) ⟨rfl, rfl, rfl⟩

theorem Chip.quiet_onEvt (c : Chip) (d : DieId) (f : Evt → Evt) (h : (f (c.die d).evt).counts = (c.die d).evt.counts) :
    c.Quiet (c.onEvt d f) :=
  c.quiet_onDie d (fun x => { x with evt := f x.evt }) ⟨rfl, h, rfl⟩

/-- A fold of quiet changes is quiet. -/
theorem Chip.quiet_forEach {α : Type} (c : Chip) (l : List α) (f : Chip → α → Chip)
    (h : ∀ (b : Chip) (a : α), b.Quiet (f b a)) : c.Quiet (c.forEach l f) :=
  List.foldlRecOn l f (Chip.Quiet.refl c) fun b hb a _ => hb.trans (h b a)

/-- A span is reported in the log's queue, and not in a register of the die. -/
theorem Chip.quiet_reportCycle (c : Chip) (d : DieId) (v : View) (set cause : Nat) (s : Span) :
    c.Quiet (c.reportCycle d v set cause s) := by
  have hspan : c.Quiet (c.reportSpan d s) := by
    unfold Chip.reportSpan
    split
    · exact c.quiet_onEvl d _
    · exact .refl c
  unfold Chip.reportCycle
  simp only
  split
  · exact .refl c
  · exact hspan.trans (Chip.quiet_onBlnk _ d _)

theorem Chip.quiet_reportUnsent (c : Chip) : c.Quiet c.reportUnsent := by
  unfold Chip.reportUnsent
  split
  · refine c.quiet_forEach _ _ fun c r => ?_
    split
    · split
      · exact c.quiet_reportCycle _ _ _ _ _
      · exact .refl c
    · exact .refl c
  · exact .refl c

theorem Chip.quiet_withdrawRemote (c : Chip) : c.Quiet c.withdrawRemote :=
  c.quiet_forEach _ _ fun c d => c.quiet_onEvt d _ rfl

theorem Chip.quiet_resendMargins (c : Chip) (d : DieId) : c.Quiet (c.resendMargins d) :=
  c.quiet_forEach _ _ fun c _ =>
    (c.quiet_onGrist d _).trans (Chip.quiet_onKiln _ d _)

/-! ### The frames sent -/

theorem Chip.emitData_shape (c : Chip) (d : DieId) (slot : Nat) (stripe : Bool) (codes : List (Nat × Nat × Nat × Bool))
    (bank : Nat) (behind : Bool) : ∃ o, c.emitData d slot stripe codes bank behind = { c with out := o } := by
  unfold Chip.emitData
  simp only
  split
  · exact ⟨c.out, rfl⟩
  · refine List.foldlRecOn (motive := fun b : Chip => ∃ o, b = { c with out := o }) _ _ ⟨c.out, rfl⟩ ?_
    rintro _ ⟨o, rfl⟩ _ _
    exact ⟨_, rfl⟩

/-- All that the all-zero frames change: the output, and the use of one open value. -/
theorem Chip.zeroFrames_shape (c : Chip) : ∃ o n, c.zeroFrames = { c with out := o, free := n } := by
  obtain ⟨o, ho⟩ := (c.freshBelow (2 ^ 32)).2.emitData_shape .e (c.freshBelow (2 ^ 32)).1 false [] c.e.blnk.bankInUse false
  exact ⟨o, _, ho⟩

@[simp] theorem Chip.die_zeroFrames (c : Chip) (d : DieId) : c.zeroFrames.die d = c.die d := by
  obtain ⟨o, n, h⟩ := c.zeroFrames_shape
  rw [h]; cases d <;> rfl

@[simp] theorem Chip.evune_zeroFrames (c : Chip) : c.zeroFrames.evune = c.evune := by
  obtain ⟨o, n, h⟩ := c.zeroFrames_shape
  rw [h]

/-! ### The link is lost (R28, R29) -/

/-- A die notes the loss in link_lost, and its margin messages under way are lost. -/
def Chip.noteLinkLost (c : Chip) (d : DieId) : Chip :=
  (c.setBit d F.SYS_EVUNE_STATUS_link_lost).onKiln d fun k => { k with marginOut := [] }

theorem Chip.onlyDies_noteLinkLost (c : Chip) (d : DieId) : c.OnlyDies (c.noteLinkLost d) :=
  (c.onlyDies_onDie d (·.setBit F.SYS_EVUNE_STATUS_link_lost)).trans (Chip.quiet_onKiln _ d _).onlyDies

theorem Chip.evt_noteLinkLost (c : Chip) (d d' : DieId) : ((c.noteLinkLost d).die d').evt = (c.die d').evt := by
  cases d <;> cases d' <;> rfl

theorem Chip.fld_noteLinkLost (c : Chip) (d : DieId) : (c.noteLinkLost d).fld d F.SYS_EVUNE_STATUS_link_lost = 1 := by
  have hput := c.fld_put_same d F.SYS_EVUNE_STATUS_link_lost 1 (by decide)
  cases d <;> exact hput

theorem Chip.fld_noteLinkLost_other (c : Chip) (d d' : DieId) (f : Fld) (h : d' ≠ d) :
    (c.noteLinkLost d).fld d' f = c.fld d' f := by
  simp only [Chip.fld, Chip.noteLinkLost, Chip.onKiln, Chip.setBit, Chip.die_onDie_other _ _ _ _ h]

theorem Chip.fld_hold (c : Chip) (q : Nat) (d : DieId) (f : Fld) :
    (c.onDie .e fun x => { x with hold := q }).fld d f = c.fld d f := by
  cases d <;> rfl

theorem Chip.evt_hold (c : Chip) (q : Nat) (d : DieId) :
    ((c.onDie .e fun x => { x with hold := q }).die d).evt = (c.die d).evt := by
  cases d <;> rfl

/-- The link is down from this tick on. -/
def Chip.linkDown (c : Chip) : Chip := c.onEvune fun x => { x with link := .down, since := c.now }

/-- The loss of the link noted on both dies, before anything is reported, withdrawn or sent. -/
def Chip.linkLost (c : Chip) : Chip :=
  (((c.linkDown.raiseBoth 5).noteLinkLost .w).noteLinkLost .e).onDie .e fun x => { x with hold := 0x11 }

/-- What the loss of a link that was up consists of. -/
theorem Chip.evuneDown_of_up (c : Chip) (he : c.hasDie .e = true) (hup : c.evune.link = .up) :
    c.evuneDown = c.linkLost.reportUnsent.withdrawRemote.zeroFrames := by
  have hboth : (c.linkDown.raiseBoth 5).hasDie .e = true := (Chip.onlyDies_raiseBoth _ 5).hasDie .e |>.trans he
  have hdies : (c.linkDown.raiseBoth 5).dies = [.w, .e] := if_pos hboth
  unfold Chip.evuneDown
  rw [if_pos (by simp [hup])]
  change Chip.zeroFrames (Chip.withdrawRemote (Chip.reportUnsent (Chip.onDie
    (Chip.forEach _ (c.linkDown.raiseBoth 5).dies Chip.noteLinkLost) .e _))) = _
  rw [hdies]
  rfl

/-- An attempt of training that fails only ends (R434). -/
theorem Chip.evuneDown_of_not_up (c : Chip) (h : c.evune.link ≠ .up) :
    c.evuneDown = c.onEvune fun x => { x with link := .down } := by
  simp [Chip.evuneDown, h]

theorem Chip.onlyDies_linkLost (c : Chip) : c.linkDown.OnlyDies c.linkLost :=
  (((Chip.onlyDies_raiseBoth _ 5).trans (Chip.onlyDies_noteLinkLost _ .w)).trans (Chip.onlyDies_noteLinkLost _ .e)).trans
    (Chip.onlyDies_onDie _ .e _)

theorem Chip.hold_linkLost (c : Chip) : c.linkLost.e.hold = 0x11 := rfl

/-- Both dies set link_lost. -/
theorem Chip.fld_linkLost (c : Chip) (d : DieId) : c.linkLost.fld d F.SYS_EVUNE_STATUS_link_lost = 1 := by
  rw [Chip.linkLost, Chip.fld_hold]
  cases d with
  | w => rw [Chip.fld_noteLinkLost_other _ .e .w _ (by decide), Chip.fld_noteLinkLost]
  | e => rw [Chip.fld_noteLinkLost]

/-- Both dies count source 5 once. -/
theorem Chip.evtCount_linkLost (c : Chip) (d : DieId) (he : c.hasDie .e = true) :
    (c.linkLost.die d).evtCount 5 = min 255 ((c.die d).evtCount 5 + 1) := by
  have hevt : (c.linkLost.die d).evt = ((c.linkDown.raiseBoth 5).die d).evt :=
    ((Chip.evt_hold _ _ d).trans (Chip.evt_noteLinkLost _ .e d)).trans (Chip.evt_noteLinkLost _ .w d)
  have hdie : c.linkDown.die d = c.die d := c.die_onEvune d _
  rw [Die.evtCount, hevt, ← Die.evtCount, ← hdie, ← satAdd_one]
  exact c.linkDown.evtCount_raiseBoth d 5 he (by decide)

/-- What a loss of the link does: to the link, to link_lost and source 5 of both dies and to die E's hold; and its frame. -/
structure Chip.LosesLink (c c' : Chip) : Prop where
  link : c'.evune.link = .down
  since : c'.evune.since = c.now
  hold : c'.e.hold = 0x11
  linkLost : ∀ d, c'.fld d F.SYS_EVUNE_STATUS_link_lost = 1
  event : ∀ d, (c'.die d).evtCount 5 = min 255 ((c.die d).evtCount 5 + 1)
  frame : c' = { c with evune := c'.evune, w := c'.w, e := c'.e, out := c'.out, free := c'.free }

/-- The reports, the withdrawal and the frames that follow a loss leave what the dies have noted of it. -/
theorem Chip.losesLink_evuneDown (c : Chip) (he : c.hasDie .e = true) (hup : c.evune.link = .up) :
    c.LosesLink c.evuneDown := by
  obtain ⟨hdies, hrecord⟩ := c.linkLost.quiet_reportUnsent.trans (Chip.quiet_withdrawRemote _)
  have honly := c.onlyDies_linkLost.trans hdies
  rw [c.evuneDown_of_up he hup]
  generalize c.linkLost.reportUnsent.withdrawRemote = c2 at hrecord honly
  have hevune : c2.zeroFrames.evune = c.linkDown.evune := by rw [Chip.evune_zeroFrames, honly.evune]
  have hsame (d : DieId) : (c.linkLost.die d).SameRecord (c2.zeroFrames.die d) := by
    rw [Chip.die_zeroFrames]; exact hrecord d
  exact {
    link := congrArg Evune.link hevune
    since := congrArg Evune.since hevune
    hold := (hsame .e).hold.trans c.hold_linkLost
    linkLost := fun d => ((hsame d).fld _).trans (c.fld_linkLost d)
    event := fun d => ((hsame d).evtCount 5).trans (c.evtCount_linkLost d he)
    frame := by
      obtain ⟨o, n, hframes⟩ := c2.zeroFrames_shape
      rw [hframes, honly]; rfl }

/-! ### A lane fails (R28) -/

/-- The lanes in use in a direction become `mask`. -/
def Chip.withLanes (c : Chip) (fromW : Bool) (mask : Nat) : Chip :=
  c.onEvune fun x => if fromW then { x with maskWE := mask } else { x with maskEW := mask }

/-- A lane in use that fails is taken out of use, and the link goes on with 7 lanes or goes down. -/
theorem Chip.evuneLaneFails_of_used (c : Chip) (fromW : Bool) (lane left : Nat)
    (hused : nbit (if fromW then c.evune.maskWE else c.evune.maskEW) lane = true)
    (hleft : setNbit (if fromW then c.evune.maskWE else c.evune.maskEW) lane false = left) :
    c.evuneLaneFails fromW lane =
      if popcount 8 left < 7 then (c.withLanes fromW left).evuneDown else (c.withLanes fromW left).raiseBoth 4 := by
  subst hleft
  simp only [Chip.evuneLaneFails, hused]
  rfl

theorem Chip.link_withLanes (c : Chip) (fromW : Bool) (mask : Nat) :
    (c.withLanes fromW mask).evune.link = c.evune.link := by
  cases fromW <;> rfl

/-- The loss of the link that follows the failure of a lane, by what was before the failure. -/
theorem Chip.LosesLink.of_withLanes {c c' : Chip} {fromW : Bool} {mask : Nat} (h : (c.withLanes fromW mask).LosesLink c') :
    c.LosesLink c' where
  link := h.link
  since := h.since
  hold := h.hold
  linkLost := h.linkLost
  event d := by rw [h.event d, Chip.withLanes, Chip.die_onEvune]
  frame := h.frame

/-! ### What the commands do -/

section
variable (s : State) (hruns : s.runs) (he : s.chip.hasDie .e = true)
include hruns he

theorem completes_evuneLaneFail (fromW : Bool) (lane : Nat) (hup : s.chip.evune.link = .up) (hlane : lane < 8) :
    Completes (.evuneLaneFail fromW lane) s (s.chip.evuneLaneFails fromW lane) := by
  have hexec : exec (.evuneLaneFail fromW lane) s = execEvuneLaneFail fromW lane s := rfl
  simp [Completes, hexec, execEvuneLaneFail, State.nextChip_running s _ hruns, he, hup, hlane]

/-- A timeout acts while the link is up, and on an attempt of training once 1 µs of it has passed. -/
theorem completes_evuneTrainingTimeout
    (hlink : s.chip.evune.link = .up ∨ (s.chip.evune.link = .training ∧ s.chip.evune.since + 1000 ≤ s.chip.now)) :
    Completes .evuneTrainingTimeout s s.chip.evuneDown := by
  have hexec : exec .evuneTrainingTimeout s = execEvuneTrainingTimeout s := rfl
  have hdue : s.chip.evune.link = .up ∨ (s.chip.evune.link = .training ∧ usTicks ≤ s.chip.sinceTick s.chip.evune.since) :=
    hlink.imp_right fun ⟨htrain, hsince⟩ => ⟨htrain, by simp only [usTicks, Chip.sinceTick]; omega⟩
  simp [Completes, hexec, execEvuneTrainingTimeout, State.nextChip_running s _ hruns, he, hdue]

theorem completes_evuneRetrain (hdown : s.chip.evune.link = .down) (hsince : 1000000 ≤ s.chip.now - s.chip.evune.since) :
    Completes .evuneRetrain s (s.chip.onEvune fun x => { x with link := .training, since := s.chip.now }) := by
  have hexec : exec .evuneRetrain s = execEvuneRetrain s := rfl
  have hdue : msTicks ≤ s.chip.sinceTick s.chip.evune.since := hsince
  simp [Completes, hexec, execEvuneRetrain, State.nextChip_running s _ hruns, he, hdown, hdue]

/-- Training that succeeds changes the link and, for the margin messages sent again, the dies. -/
theorem completes_evuneLinkReturn (a b l : Nat) (htrain : s.chip.evune.link = .training) (ha : 7 ≤ popcount 8 a)
    (hb : 7 ≤ popcount 8 b) : ∃ c, Completes (.evuneLinkReturn a b l) s c ∧
      Chip.OnlyDies (s.chip.onEvune fun x =>
        { x with link := .up, maskWE := a % 256, maskEW := b % 256, latency := l % 4096, since := s.chip.now }) c := by
  have hexec : exec (.evuneLinkReturn a b l) s = execEvuneLinkReturn a b l s := rfl
  refine ⟨_, ?_, ((Chip.quiet_resendMargins _ .w).trans (Chip.quiet_resendMargins _ .e)).onlyDies⟩
  simp [Completes, hexec, execEvuneLinkReturn, State.nextChip_running s _ hruns, he, htrain, ha, hb]

end

/-! ### The states of the link -/

/-- Settles O12: a first lane's failure is an event on both dies, a second one loses the link; the timeout, the retraining
and the return act on the link as their rules say, and the return changes beside it the dies alone. -/
theorem evuneLink : Obligations.EvuneLink := by
  unfold Obligations.EvuneLink
  refine ⟨?_, ?_, ?_, ?_, ?_⟩
  · intro s fromW lane hruns he hup hlane mask left hused
    have hdone := completes_evuneLaneFail s hruns he fromW lane hup hlane
    rw [s.chip.evuneLaneFails_of_used fromW lane left hused rfl] at hdone
    refine ⟨fun hfirst => ?_, fun hsecond => ?_⟩
    · rw [if_neg (Nat.not_lt.2 hfirst)] at hdone
      exact hdone
    · rw [if_pos hsecond] at hdone
      have hup' : (s.chip.withLanes fromW left).evune.link = .up := (s.chip.link_withLanes fromW left).trans hup
      have hloss := ((s.chip.withLanes fromW left).losesLink_evuneDown he hup').of_withLanes
      exact ⟨_, hdone, hloss.link, hloss.since, hloss.hold, hloss.linkLost, hloss.event, hloss.frame⟩
  · intro s hruns he htrain hsince
    have hdone := completes_evuneTrainingTimeout s hruns he (.inr ⟨htrain, hsince⟩)
    rwa [s.chip.evuneDown_of_not_up (by simp [htrain])] at hdone
  · intro s hruns he hup
    have hloss := s.chip.losesLink_evuneDown he hup
    exact ⟨_, completes_evuneTrainingTimeout s hruns he (.inl hup), hloss.link, hloss.hold⟩
  · intro s hruns he hdown hsince
    exact completes_evuneRetrain s hruns he hdown hsince
  · intro s a b l hruns he htrain ha hb
    obtain ⟨c, hdone, honly⟩ := completes_evuneLinkReturn s hruns he a b l htrain ha hb
    exact ⟨c, hdone, honly.evune, by rw [honly]; rfl⟩

end Sys2Proof.Machine
end

section
/-! The completion of an interrupt: the top entry is popped, and a completion out of order is recorded (R326, R327, R336). -/

namespace Sys2Proof.Machine

/-! ### Fields of one register, and counts -/

theorem Die.fld_put_apart (x : Die) (f g : Fld) (v : Nat) (hoff : g.off = f.off) (hhi : g.hi < 32)
    (hapart : g.hi < f.lo ∨ f.hi < g.lo) : (x.put f v).fld g = x.fld g := by
  simp [Die.fld, Die.put, hoff, bits_putBits_other _ _ _ _ _ _ hhi hapart]

theorem Chip.fld_put_apart (c : Chip) (d : DieId) (f g : Fld) (v : Nat) (hoff : g.off = f.off) (hhi : g.hi < 32)
    (hapart : g.hi < f.lo ∨ f.hi < g.lo) : (c.put d f v).fld d g = c.fld d g := by
  simp [Chip.fld, Die.fld_put_apart _ _ _ _ hoff hhi hapart]

theorem satAdd_le (limit a b : Nat) : satAdd limit a b ≤ limit := by
  unfold satAdd
  split <;> omega

/-- A count goes up by 1 and stops at its field's largest value. -/
theorem Chip.fld_bump_same (c : Chip) (d : DieId) (f : Fld) (hhi : f.hi < 32) :
    (c.bump d f).fld d f = min (2 ^ (f.hi + 1 - f.lo) - 1) (c.fld d f + 1) := by
  have hfits := satAdd_le (2 ^ (f.hi + 1 - f.lo) - 1) (c.fld d f) 1
  have hpos : 0 < 2 ^ (f.hi + 1 - f.lo) := Nat.two_pow_pos _
  have hput : (c.bump d f).fld d f = satAdd (2 ^ (f.hi + 1 - f.lo) - 1) (c.fld d f) 1 % 2 ^ (f.hi + 1 - f.lo) := by
    rw [Chip.fld, Chip.die_bump]
    exact (c.die d).fld_put_same f _ hhi
  rw [hput, Nat.mod_eq_of_lt (by omega), satAdd_one]

theorem Chip.onlyDies_put (c : Chip) (d : DieId) (f : Fld) (v : Nat) : c.OnlyDies (c.put d f v) := c.onlyDies_onDie d _

theorem Chip.onlyDies_bump (c : Chip) (d : DieId) (f : Fld) : c.OnlyDies (c.bump d f) := c.onlyDies_onDie d _

/-! ### What an occurrence leaves beside the event counts -/

theorem Chip.fld_raise (c : Chip) (d d' : DieId) (n : Nat) (f : Fld) (h : f.off ≠ F.CTRL_MSG_STATUS_lost.off) :
    (c.raise d n).fld d' f = c.fld d' f := by
  simp [Chip.fld, Die.fld, c.reg_raise d d' n f.off h]

theorem Chip.evt_queueMsg (c : Chip) (d : DieId) (k m n : Nat) : ((c.queueMsg d k m n).die d).evt = (c.die d).evt := by
  obtain ⟨p, r, t, h⟩ := c.queueMsg_shape d k m n
  simp [h]

/-- An occurrence changes neither core's stack nor its mode. -/
theorem Chip.core_raise (c : Chip) (d : DieId) (n q : Nat) :
    ((c.raise d n).die d).evt.core q = (c.die d).evt.core q := by
  unfold Chip.raise
  split
  · rfl
  · simp only
    split
    · rw [Chip.evt_queueMsg]; cases d <;> rfl
    · cases d <;> rfl

/-! ### A core's view, and its mode -/

theorem Chip.onDie_onDie (c : Chip) (d : DieId) (f g : Die → Die) : (c.onDie d f).onDie d g = c.onDie d fun x => g (f x) := by
  cases d <;> rfl

/-- Only what a change makes of the die as it stands counts. -/
theorem Chip.onDie_congr (c : Chip) (d : DieId) {f g : Die → Die} (h : f (c.die d) = g (c.die d)) :
    c.onDie d f = c.onDie d g := by
  cases d <;> simp_all [Chip.onDie]

theorem Evt.onCore_onCore (x : Evt) (k : Nat) (f g : EvtCore → EvtCore) :
    (x.onCore k f).onCore k g = x.onCore k fun e => g (f e) := by
  unfold Evt.onCore
  split <;> rfl

@[simp] theorem Evt.core_onCore_same (x : Evt) (k : Nat) (f : EvtCore → EvtCore) : (x.onCore k f).core k = f (x.core k) := by
  unfold Evt.onCore Evt.core
  split <;> rfl

@[simp] theorem Evt.counts_onCore (x : Evt) (k : Nat) (f : EvtCore → EvtCore) : (x.onCore k f).counts = x.counts := by
  unfold Evt.onCore
  split <;> rfl

/-- A mode that takes effect changes nothing but the mode in the core's view. -/
theorem Die.settleMode_shape (x : Die) (k : Nat) :
    ∃ m, x.settleMode k = { x with evt := x.evt.onCore k fun e => { e with scan := m } } := by
  unfold Die.settleMode
  split
  · exact ⟨_, rfl⟩
  · refine ⟨(x.evt.core k).scan, ?_⟩
    unfold Evt.onCore Evt.core
    split <;> rfl

/-! ### The top entry is popped (R326, R336) -/

/-- A completion in order: the entry leaves the stack, and a mode that waited for an empty stack may take effect. -/
def Chip.popEoi (c : Chip) (d : DieId) (k : Nat) (top : StackEntry) : Chip :=
  (c.onEvt d (·.onCore k fun e => { e with stack := e.stack.erase top })).onDie d (·.settleMode k)

theorem Chip.writeEvtEoi_of_top (c : Chip) (d : DieId) (k : Nat) (top : StackEntry) (rest : List StackEntry)
    (hvector : ((c.startDie d).evt.core k).scan = false) (hstack : ((c.startDie d).evt.core k).stack = top :: rest) :
    c.writeEvtEoi d k top.id = c.popEoi d k top := by
  simp [Chip.writeEvtEoi, Chip.popEoi, hvector, hstack]

/-- What a completion in order changes: the core's view, by the entry popped and perhaps the mode. -/
theorem Chip.popEoi_shape (c : Chip) (d : DieId) (k : Nat) (top : StackEntry) : ∃ m, c.popEoi d k top =
    c.onEvt d (·.onCore k fun e => { e with stack := e.stack.erase top, scan := m }) := by
  obtain ⟨m, hm⟩ := Die.settleMode_shape
    { c.die d with evt := (c.die d).evt.onCore k fun e => { e with stack := e.stack.erase top } } k
  refine ⟨m, ?_⟩
  rw [Chip.popEoi, Chip.onEvt, Chip.onDie_onDie]
  refine c.onDie_congr d (hm.trans ?_)
  simp only [Evt.onCore_onCore]

/-! ### A completion out of order is recorded (R327) -/

/-- EVT_FAULT loaded for a completion of `id` on core `k`, `top` being the id on top of its stack. -/
def Chip.faultLoaded (c : Chip) (d : DieId) (k id top : Nat) : Chip :=
  ((c.put d F.EVT_FAULT_core (k % 2)).put d F.EVT_FAULT_id_written id).put d F.EVT_FAULT_top_id top

/-- EVT_FAULT loaded, and counted. -/
def Chip.faultCounted (c : Chip) (d : DieId) (k id top : Nat) : Chip :=
  (c.faultLoaded d k id top).bump d F.EVT_FAULT_1_count

/-- All that a completion out of order does. -/
def Chip.refuseEoi (c : Chip) (d : DieId) (k id top : Nat) : Chip := (c.faultCounted d k id top).raise d 248

theorem Chip.writeEvtEoi_of_not_top (c : Chip) (d : DieId) (k id : Nat) (top : StackEntry) (rest : List StackEntry)
    (hvector : ((c.startDie d).evt.core k).scan = false) (hstack : ((c.startDie d).evt.core k).stack = top :: rest)
    (hid : top.id ≠ id) : c.writeEvtEoi d k id = c.refuseEoi d k id top.id := by
  simp [Chip.writeEvtEoi, Chip.refuseEoi, Chip.faultCounted, Chip.faultLoaded, Chip.puts, hvector, hstack, hid]

theorem Chip.writeEvtEoi_of_empty (c : Chip) (d : DieId) (k id : Nat)
    (hvector : ((c.startDie d).evt.core k).scan = false) (hstack : ((c.startDie d).evt.core k).stack = []) :
    c.writeEvtEoi d k id = c.refuseEoi d k id 0x3FF := by
  simp [Chip.writeEvtEoi, Chip.refuseEoi, Chip.faultCounted, Chip.faultLoaded, Chip.puts, hvector, hstack]

theorem Chip.onlyDies_faultCounted (c : Chip) (d : DieId) (k id top : Nat) : c.OnlyDies (c.faultCounted d k id top) :=
  (((c.onlyDies_put d _ _).trans (Chip.onlyDies_put _ d _ _)).trans (Chip.onlyDies_put _ d _ _)).trans
    (Chip.onlyDies_bump _ d _)

theorem Chip.die_faultCounted_other (c : Chip) (d d' : DieId) (k id top : Nat) (h : d' ≠ d) :
    (c.faultCounted d k id top).die d' = c.die d' := by
  simp only [Chip.faultCounted, Chip.faultLoaded, Chip.bump, Chip.put, Chip.die_onDie_other _ _ _ _ h]

theorem Chip.fld_faultLoaded_other (c : Chip) (d : DieId) (k id top : Nat) (f : Fld) (h : f.off ≠ F.EVT_FAULT_core.off) :
    (c.faultLoaded d k id top).fld d f = c.fld d f := by
  rw [Chip.faultLoaded, Chip.fld_put_other _ _ F.EVT_FAULT_top_id _ _ h,
    Chip.fld_put_other _ _ F.EVT_FAULT_id_written _ _ h, Chip.fld_put_other _ _ F.EVT_FAULT_core _ _ h]

theorem Chip.fld_faultLoaded_core (c : Chip) (d : DieId) (k id top : Nat) :
    (c.faultLoaded d k id top).fld d F.EVT_FAULT_core = k % 2 := by
  rw [Chip.faultLoaded, Chip.fld_put_apart _ _ F.EVT_FAULT_top_id _ _ (by decide) (by decide) (by decide),
    Chip.fld_put_apart _ _ F.EVT_FAULT_id_written _ _ (by decide) (by decide) (by decide), Chip.fld_put_same _ _ _ _ (by decide)]
  exact Nat.mod_mod k 2

theorem Chip.fld_faultLoaded_idWritten (c : Chip) (d : DieId) (k id top : Nat) :
    (c.faultLoaded d k id top).fld d F.EVT_FAULT_id_written = id % 1024 := by
  rw [Chip.faultLoaded, Chip.fld_put_apart _ _ F.EVT_FAULT_top_id _ _ (by decide) (by decide) (by decide)]
  exact Chip.fld_put_same _ d _ id (by decide)

theorem Chip.fld_faultLoaded_topId (c : Chip) (d : DieId) (k id top : Nat) :
    (c.faultLoaded d k id top).fld d F.EVT_FAULT_top_id = top % 1024 :=
  Chip.fld_put_same _ d _ top (by decide)

/-- The count and the event leave what EVT_FAULT was loaded with. -/
theorem Chip.fld_refuseEoi (c : Chip) (d : DieId) (k id top : Nat) (f : Fld) (h : f.off = F.EVT_FAULT_core.off) :
    (c.refuseEoi d k id top).fld d f = (c.faultLoaded d k id top).fld d f := by
  have hmsg : f.off ≠ F.CTRL_MSG_STATUS_lost.off := h ▸ by decide
  have hcount : f.off ≠ F.EVT_FAULT_1_count.off := h ▸ by decide
  rw [Chip.refuseEoi, Chip.fld_raise _ _ _ _ _ hmsg, Chip.faultCounted, Chip.fld_bump_other _ _ _ _ hcount]

/-- A completion out of order recorded: EVT_FAULT loaded and counted, source 248 raised once, and the frame. -/
structure Chip.RecordsEoi (c : Chip) (d : DieId) (k id top : Nat) (c' : Chip) : Prop where
  core : c'.fld d F.EVT_FAULT_core = k % 2
  idWritten : c'.fld d F.EVT_FAULT_id_written = id % 1024
  topId : c'.fld d F.EVT_FAULT_top_id = top % 1024
  count : c'.fld d F.EVT_FAULT_1_count = min (2 ^ 32 - 1) (c.fld d F.EVT_FAULT_1_count + 1)
  event : (c'.die d).evtCount 248 = min 255 ((c.die d).evtCount 248 + 1)
  otherEvents : ∀ n, n ≠ 248 → (c'.die d).evtCount n = (c.die d).evtCount n
  cores : ∀ q, (c'.die d).evt.core q = (c.die d).evt.core q
  otherDie : c'.die d.other = c.die d.other

theorem Chip.recordsEoi_refuseEoi (c : Chip) (d : DieId) (k id top : Nat) (hd : c.hasDie d = true) :
    c.RecordsEoi d k id top (c.refuseEoi d k id top) := by
  have hdie : (c.faultCounted d k id top).hasDie d = true := ((c.onlyDies_faultCounted d k id top).hasDie d).trans hd
  have hevt : ((c.faultCounted d k id top).die d).evt = (c.die d).evt := by simp [Chip.faultCounted, Chip.faultLoaded]
  have hcount (n : Nat) : ((c.faultCounted d k id top).die d).evtCount n = (c.die d).evtCount n :=
    congrArg (fun v : Evt => smGet 0 n v.counts) hevt
  have hother : d.other ≠ d := by cases d <;> decide
  exact {
    core := (c.fld_refuseEoi d k id top _ (by decide)).trans (c.fld_faultLoaded_core d k id top)
    idWritten := (c.fld_refuseEoi d k id top _ (by decide)).trans (c.fld_faultLoaded_idWritten d k id top)
    topId := (c.fld_refuseEoi d k id top _ (by decide)).trans (c.fld_faultLoaded_topId d k id top)
    count := by
      rw [Chip.refuseEoi, Chip.fld_raise _ _ _ _ _ (by decide), Chip.faultCounted, Chip.fld_bump_same _ _ _ (by decide),
        Chip.fld_faultLoaded_other _ _ _ _ _ _ (by decide)]
      rfl
    event := by
      rw [Chip.refuseEoi, Chip.evtCount_raise _ _ _ hdie (by decide), satAdd_one, hcount]
    otherEvents := fun n hn => by
      rw [Chip.refuseEoi, Chip.evtCount_raise_other _ _ _ _ hn, hcount]
    cores := fun q => by
      rw [Chip.refuseEoi, Chip.core_raise, hevt]
    otherDie := by
      rw [Chip.refuseEoi, Chip.die_raise_other _ _ _ _ hother, Chip.die_faultCounted_other _ _ _ _ _ _ hother] }

/-! ### The end of an interrupt -/

/-- On a die that is there EVT_EOI is handed to its interrupt controller. -/
theorem completes_evtEoi (s : State) (m : Master) (d : DieId) (k id : Nat) (hserves : s.serves)
    (hd : s.chip.hasDie d = true) (hk : k < 2) (hid : id < 1024) :
    Completes (.evtEoi m d k id) s (s.chip.writeEvtEoi d k id) := by
  obtain ⟨hruns, hstage⟩ := hserves
  have hexec : exec (.evtEoi m d k id) s = execEvtEoi m d k id s := rfl
  simp [Completes, hexec, execEvtEoi, State.nextBus_running s _ hruns hstage, hd, hk, Nat.mod_eq_of_lt hid]

/-- Settles O10: with the id on top at the start of the tick the entry leaves the stack; any other id, and an empty stack,
is recorded in EVT_FAULT and raised as source 248, and every stack stays. -/
theorem endOfInterrupt : Obligations.EndOfInterrupt := by
  unfold Obligations.EndOfInterrupt
  intro s m d k id hserves hd hk hid hvector stack refused
  have hdone := completes_evtEoi s m d k id hserves hd hk hid
  have hrefused (top : Nat) : refused (s.chip.refuseEoi d k id top) top := by
    have hrec := s.chip.recordsEoi_refuseEoi d k id top hd
    exact ⟨hrec.core.trans (Nat.mod_eq_of_lt hk), hrec.idWritten.trans (Nat.mod_eq_of_lt hid), hrec.topId, hrec.count,
      hrec.event, hrec.otherEvents, fun q _ => congrArg EvtCore.stack (hrec.cores q), hrec.otherDie⟩
  refine ⟨?_, ?_, ?_⟩
  · rintro top rest hstack rfl
    rw [s.chip.writeEvtEoi_of_top d k top rest hvector hstack] at hdone
    obtain ⟨mode, hpop⟩ := s.chip.popEoi_shape d k top
    rw [hpop] at hdone
    exact ⟨_, hdone, by simp, fun n => by simp [Die.evtCount], _, s.chip.onDie_congr d rfl⟩
  · intro top rest hstack hne
    rw [s.chip.writeEvtEoi_of_not_top d k id top rest hvector hstack hne] at hdone
    exact ⟨_, hdone, hrefused top.id⟩
  · intro hstack
    rw [s.chip.writeEvtEoi_of_empty d k id hvector hstack] at hdone
    exact ⟨_, hdone, hrefused 0x3FF⟩

end Sys2Proof.Machine
end

section
/-! The herd tick `now` is moved by the clock alone (R37): whatever a decision does in the tick in which it acts, the tick stays.
One lemma for each operation between a change of one unit and a decision of the herd (R367). -/

namespace Sys2Proof.Machine

variable (c : Chip) (d : DieId) (v : View)

/-! ### Choices and repetitions -/

@[simp] theorem Chip.now_ite (p : Prop) [Decidable p] (a b : Chip) : (if p then a else b).now = if p then a.now else b.now :=
  apply_ite Chip.now p a b

@[simp] theorem Chip.now_whenB (b : Bool) (f : Chip → Chip) (h : (f c).now = c.now) : (c.whenB b f).now = c.now := by
  simp [Chip.whenB, h]

/-- Actions each of which keeps the tick keep it together. -/
@[simp] theorem Chip.now_forEach {α : Type} (l : List α) (f : Chip → α → Chip)
    (h : ∀ (b : Chip) (a : α), (f b a).now = b.now) : (c.forEach l f).now = c.now :=
  List.foldlRecOn (motive := fun b => b.now = c.now) l f rfl fun b hb a _ => (h b a).trans hb

/-! ### Occurrences, records and spans -/

@[simp] theorem Chip.now_raiseBoth (n : Nat) : (c.raiseBoth n).now = c.now := by simp [Chip.raiseBoth]

@[simp] theorem Chip.now_raiseTimes (n k : Nat) : (c.raiseTimes d n k).now = c.now :=
  c.now_forEach _ _ fun _ _ => Chip.now_raise ..

@[simp] theorem Chip.now_freshBelow (n : Nat) : (c.freshBelow n).2.now = c.now := rfl

@[simp] theorem Chip.now_storeRecord (r : JobRecord) : (c.storeRecord d r).now = c.now := by simp [Chip.storeRecord]

@[simp] theorem Chip.now_storeBoth (r : JobRecord) : (c.storeBoth r).now = c.now := by simp [Chip.storeBoth]

@[simp] theorem Chip.now_onJobs (f : Job → Job) : (c.onJobs d f).now = c.now := by simp [Chip.onJobs]

@[simp] theorem Chip.now_onJob (id : Nat) (f : Job → Job) : (c.onJob d id f).now = c.now := by simp [Chip.onJob]

@[simp] theorem Chip.now_jobEnded (j : Job) : (c.jobEnded d j).now = c.now := by simp [Chip.jobEnded]

@[simp] theorem Chip.now_setMeas (m : List Nat) : (c.setMeas m).now = c.now := by simp [Chip.setMeas]

@[simp] theorem Chip.now_reportSpan (s : Span) : (c.reportSpan d s).now = c.now := by simp [Chip.reportSpan]

@[simp] theorem Chip.now_closeLog (id : Nat) : (c.closeLog d id).now = c.now := by simp [Chip.closeLog]

@[simp] theorem Chip.now_readError (read : MemRead) (region channel client addr : Nat) :
    (c.readError d read region channel client addr).now = c.now := by
  cases read <;> simp [Chip.readError]

@[simp] theorem Chip.now_sramReadError (read : MemRead) (region : Nat) : (c.sramReadError d read region).now = c.now := by
  simp [Chip.sramReadError]

/-! ### Stripes and their storing in the Cask -/

@[simp] theorem Chip.now_onStripe (id : Nat) (f : Stripe → Stripe) : (c.onStripe d id f).now = c.now := by simp [Chip.onStripe]

@[simp] theorem Chip.now_caskFail (count : Fld) (source reason entry chunk stripe job : Nat) :
    (c.caskFail d count source reason entry chunk stripe job).now = c.now := by
  simp [Chip.caskFail]

@[simp] theorem Chip.now_freeCaskEntry (n : Nat) : (c.freeCaskEntry d n).now = c.now := by simp [Chip.freeCaskEntry]

@[simp] theorem Chip.now_storeFail (n reason chunk : Nat) : (c.storeFail d n reason chunk).now = c.now := by
  simp [Chip.storeFail]

@[simp] theorem Chip.now_takeRow (n : Nat) : (c.takeRow d n).now = c.now := by
  unfold Chip.takeRow
  split <;> simp

@[simp] theorem Chip.now_takeRowsOf (n fuel : Nat) : (c.takeRowsOf d n fuel).now = c.now := by
  induction fuel generalizing c with
  | zero => rfl
  | succ fuel ih => simp [Chip.takeRowsOf, ih]

@[simp] theorem Chip.now_caskTake : (c.caskTake d).now = c.now := by simp [Chip.caskTake]

@[simp] theorem Chip.now_closeStore (t : Stripe) : (c.closeStore d t).now = c.now := by
  unfold Chip.closeStore
  split <;> simp

@[simp] theorem Chip.now_dropFinished : (c.dropFinished d).now = c.now := by simp [Chip.dropFinished]

@[simp] theorem Chip.now_endStripeOn (id : Nat) : (c.endStripeOn d id).now = c.now := by simp [Chip.endStripeOn]

@[simp] theorem Chip.now_tunRowFreed (id y : Nat) : (c.tunRowFreed d id y).now = c.now := by
  simp only [Chip.tunRowFreed, Chip.now_onStripe]
  split
  · split <;> simp
  · rfl

/-! ### What is judged at a slot and reported of it -/

@[simp] theorem Chip.now_judgeRows (id : Nat) (pieces : List (Nat × Nat)) : (c.judgeRows d id pieces).now = c.now := by
  unfold Chip.judgeRows
  split <;> simp

@[simp] theorem Chip.now_judgeAtStart : (c.judgeAtStart d v).now = c.now := by simp [Chip.judgeAtStart]

@[simp] theorem Chip.now_judgeSlot (k : Nat) : (c.judgeSlot d v k).now = c.now := by simp [Chip.judgeSlot]

@[simp] theorem Chip.now_noteFaults (before : Chip) : (noteFaults before c).now = c.now := by simp [Chip.noteFaults]

@[simp] theorem Chip.now_reportCycle (set cause : Nat) (s : Span) : (c.reportCycle d v set cause s).now = c.now := by
  simp [Chip.reportCycle]

@[simp] theorem Chip.now_reportRows (k : Nat) : (c.reportRows d v k).now = c.now := by
  refine c.now_forEach _ _ fun b x => ?_
  split
  · rfl
  · simp only
    split <;> simp

@[simp] theorem Chip.now_reportPixels (k : Nat) : (c.reportPixels d v k).now = c.now := by
  refine c.now_forEach _ _ fun b x => ?_
  split <;> simp

@[simp] theorem Chip.now_reportSeam (k : Nat) : (c.reportSeam v k).now = c.now := by
  unfold Chip.reportSeam
  simp only [Chip.now_ite, Chip.now_reportCycle]
  rw [Chip.now_forEach, ite_self, ite_self]
  intro b x
  split <;> simp

@[simp] theorem Chip.now_reportLane (cause lam k : Nat) : (c.reportLane d v cause lam k).now = c.now := by
  simp [Chip.reportLane]

@[simp] theorem Chip.now_reportDark (k launch : Nat) : (c.reportDark d v k launch).now = c.now := by simp [Chip.reportDark]

@[simp] theorem Chip.now_reportSlot (k : Nat) : (c.reportSlot d v k).now = c.now := by simp [Chip.reportSlot]

@[simp] theorem Chip.now_reportHeld (number : Nat) : (c.reportHeld d number).now = c.now := by
  unfold Chip.reportHeld
  split <;> simp

@[simp] theorem Chip.now_applyVerdicts (k : Option Nat) : (c.applyVerdicts d v k).now = c.now := by
  cases k <;> simp [Chip.applyVerdicts]

@[simp] theorem Chip.now_reportBadTables (ka : Nat) : (c.reportBadTables d v ka).now = c.now := by
  simp [Chip.reportBadTables]

@[simp] theorem Chip.now_meetBadTables : (c.meetBadTables d v).now = c.now := by simp [Chip.meetBadTables]

/-! ### Lanes: frames, trainings and handovers -/

@[simp] theorem Chip.now_wakeLanes (before : Chip) : (wakeLanes before c).now = c.now := by simp [Chip.wakeLanes]

@[simp] theorem Chip.now_wakeLane (l : Nat) : (c.wakeLane d l).now = c.now := by simp [Chip.wakeLane]

@[simp] theorem Chip.now_nameBank : (c.nameBank d).now = c.now := by simp [Chip.nameBank]

@[simp] theorem Chip.now_emitLane (l : Nat) (header : List Nat) (payload : List (Nat × Nat)) :
    (c.emitLane d l header payload).now = c.now := rfl

@[simp] theorem Chip.now_emitData (slot : Nat) (stripe : Bool) (codes : List (Nat × Nat × Nat × Bool)) (bank : Nat)
    (behind : Bool) : (c.emitData d slot stripe codes bank behind).now = c.now := by
  obtain ⟨o, h⟩ := c.emitData_shape d slot stripe codes bank behind
  rw [h]

@[simp] theorem Chip.now_zeroFrames : c.zeroFrames.now = c.now := by
  obtain ⟨o, n, h⟩ := c.zeroFrames_shape
  rw [h]

@[simp] theorem Chip.now_recordSlot (slot : Nat) (k : Option Nat) (go : List Nat) : (c.recordSlot d slot k go).now = c.now := by
  simp [Chip.recordSlot]

@[simp] theorem Chip.now_emitTrain (l preset : Nat) : (c.emitTrain d l preset).now = c.now := by simp [Chip.emitTrain]

@[simp] theorem Chip.now_flushTrain : (c.flushTrain d).now = c.now := by simp [Chip.flushTrain]

@[simp] theorem Chip.now_startTraining (l : Nat) (inPlace : Option Nat) (retry recal : Bool) :
    (c.startTraining d l inPlace retry recal).now = c.now := by
  simp [Chip.startTraining]

@[simp] theorem Chip.now_startHandover (lam toLane : Nat) (train : Option Bool) (soft : Bool) :
    (c.startHandover d lam toLane train soft).now = c.now := by
  simp [Chip.startHandover]

@[simp] theorem Chip.now_recalEnds (outcome : Nat) (keep : Bool) : (c.recalEnds d outcome keep).now = c.now := by
  simp [Chip.recalEnds]

@[simp] theorem Chip.now_serveWaiting : (c.serveWaiting d).now = c.now := by
  simp only [Chip.serveWaiting]
  split
  · rfl
  · split <;> simp

@[simp] theorem Chip.now_afterAbandon (h : Handover) : (c.afterAbandon d h).now = c.now := by
  simp only [Chip.afterAbandon, Chip.now_serveWaiting]
  split <;> simp

@[simp] theorem Chip.now_switchAt (slot : Nat) : (c.switchAt d slot).now = c.now := by
  simp only [Chip.switchAt, Chip.now_ite]
  split
  · rfl
  · split <;> simp

/-! ### A slot acts: its start, its frames, and the end of its stripe -/

@[simp] theorem Chip.now_bindBank : (c.bindBank d).now = c.now := by simp [Chip.bindBank]

@[simp] theorem Chip.now_startBlind (t : Stripe) : (c.startBlind d t).now = c.now := by simp [Chip.startBlind]

@[simp] theorem Chip.now_startOn (stripe n number : Nat) : (c.startOn d stripe n number).now = c.now := by
  unfold Chip.startOn
  split <;> simp

@[simp] theorem Chip.now_fireStripe (k : Nat) (blanked : List Nat) : (c.fireStripe d v k blanked).now = c.now := by
  simp [Chip.fireStripe]

@[simp] theorem Chip.now_burstData (slot beam code endsAt : Nat) : (c.burstData d slot beam code endsAt).now = c.now := by
  simp [Chip.burstData]

@[simp] theorem Chip.now_burstFirst (m : SlotMsg) : (c.burstFirst d m).now = c.now := by
  unfold Chip.burstFirst
  split <;> simp

@[simp] theorem Chip.now_fireOn (m : SlotMsg) : (c.fireOn d m).now = c.now := by
  simp only [Chip.fireOn, Chip.now_switchAt]
  split <;> simp

@[simp] theorem Chip.now_closeView : (c.closeView d).now = c.now := by simp [Chip.closeView]

@[simp] theorem Chip.now_endEarlyOn (cause : Nat) (ka : Option Nat) : (c.endEarlyOn d v cause ka).now = c.now := by
  cases ka <;> simp [Chip.endEarlyOn]

@[simp] theorem Chip.now_endNormalOn (id : Nat) : (c.endNormalOn d id).now = c.now := by
  simp only [Chip.endNormalOn, Chip.now_endStripeOn, Chip.now_closeView]
  split <;> simp

@[simp] theorem Chip.now_notBegunOn (id cause number : Nat) : (c.notBegunOn d id cause number).now = c.now := by
  unfold Chip.notBegunOn
  split <;> simp

@[simp] theorem Chip.now_noteEnd (e : StripeEnd) : (c.noteEnd e).now = c.now := by
  cases e <;> simp [Chip.noteEnd]

@[simp] theorem Chip.now_endStripe (e : StripeEnd) (number : Nat) : (c.endStripe e number).now = c.now := by
  refine (Chip.now_forEach _ _ _ fun b d => ?_).trans (c.now_noteEnd e)
  cases e with
  | boundary id => simp
  | early id cause ka =>
    simp only
    split <;> simp
  | notBegun stripe cause => simp

@[simp] theorem Chip.now_followSlot (m : SlotMsg) : (c.followSlot m).now = c.now := by simp [Chip.followSlot]

@[simp] theorem Chip.now_actSlot (m : SlotMsg) : (c.actSlot m).now = c.now := by
  simp only [Chip.actSlot]
  cases m.s0 <;> cases m.ends <;> simp

/-! ### A swap acts -/

@[simp] theorem Chip.now_swapOutcome (outcome : Nat) (reasons : List Nat) (source : Option Nat) :
    (c.swapOutcome outcome reasons source).now = c.now := by
  cases source <;> simp [Chip.swapOutcome]

@[simp] theorem Chip.now_dropSwap : c.dropSwap.now = c.now := by simp [Chip.dropSwap]

@[simp] theorem Chip.now_disableUnit (k0 off : Nat) : (c.disableUnit d v k0 off).now = c.now := by
  simp only [Chip.disableUnit]
  split <;> simp

@[simp] theorem Chip.now_disableUnits (before : Chip) : (disableUnits before c d).now = c.now := by
  unfold Chip.disableUnits
  split <;> simp

@[simp] theorem Chip.now_doSwap (slot : Nat) (initial : Bool) (herdEnable : Option Bool) :
    (c.doSwap slot initial herdEnable).now = c.now := by
  simp [Chip.doSwap]

@[simp] theorem Chip.now_actCommit (on : Bool) : (c.actCommit on).now = c.now := by
  unfold Chip.actCommit
  split <;> simp

/-! ### A decision acts -/

@[simp] theorem Chip.now_actDecision (x : Decision) : (c.actDecision x).now = c.now := by
  simp only [Chip.actDecision]
  cases x.slot <;> cases x.commit <;> simp

/-- The decisions due in a tick act in it. -/
@[simp] theorem Chip.now_actDue : c.actDue.now = c.now := by simp [Chip.actDue]

end Sys2Proof.Machine
end

section
/-! Two microseconds of silence: a member lost, a link lost, the buck lost (R380). -/

namespace Sys2Proof.Machine

theorem silence_ticks : silence = 2000 := rfl

/-! ### A member is lost -/

/-- A known peer reads back as changed, where the change keeps its id. -/
theorem Herd.peer?_onPeer (x : Herd) (p : Peer) (f : Peer → Peer) (hp : x.peer? p.id = some p) (hid : (f p).id = p.id) :
    (x.onPeer p.id f).peer? p.id = some (f p) := by
  have hbelow : (x.peers.filter (·.id < p.id)).find? (·.id == p.id) = none := by
    simp only [List.find?_eq_none, List.mem_filter, decide_eq_true_eq, beq_iff_eq]
    exact fun q hq => Nat.ne_of_lt hq.2
  have hknown : (x.peer? p.id).getD (.fresh p.id) = p := by rw [hp, Option.getD_some]
  simp only [Herd.onPeer, hknown]
  simp [Herd.peer?, List.find?_append, hbelow, hid]

/-- A peer as it stands once it is declared lost. -/
def Peer.declaredLost (p : Peer) (now : Nat) : Peer := { p with admitted := false, gone := true, goneAt := now }

/-- The loss of a member as it is marked, counted and raised (R380). -/
def Chip.lossNoted (c : Chip) (p : Peer) : Chip :=
  ((c.onHerd fun x => { x.onPeer p.id (·.declaredLost c.now) with measDirty := true }).bump .w
    F.HERD_LOST_COUNT_count).raise .w 225

/-- What follows the noting of a loss, the report of the lost beams (R381), leaves the registers, the event counts, the herd and
the scheduler. -/
theorem Chip.memberLost_quiet (c : Chip) (p : Peer) :
    { c.lossNoted p with memberGates := (c.lossNoted p).memberGates.filter (· != p.id) }.Quiet (c.memberLost p) := by
  have hspan (b : Chip) (s : Span) : b.Quiet (b.reportSpan .w s) := by
    unfold Chip.reportSpan
    split
    · exact b.quiet_onEvl .w _
    · exact .refl b
  unfold Chip.memberLost
  simp only
  split
  · exact Chip.quiet_forEach _ _ _ fun b d => hspan b _
  · exact .refl _

theorem Chip.herd_memberLost (c : Chip) (p : Peer) :
    (c.memberLost p).herd = { c.herd.onPeer p.id (·.declaredLost c.now) with measDirty := true } := by
  rw [(c.memberLost_quiet p).onlyDies]
  simp [Chip.lossNoted]

theorem Chip.sched_memberLost (c : Chip) (p : Peer) : (c.memberLost p).sched = c.sched := by
  rw [(c.memberLost_quiet p).onlyDies]
  simp [Chip.lossNoted]

/-- The loss goes into HERD_LOST_COUNT, which saturates. -/
theorem Chip.fld_memberLost (c : Chip) (p : Peer) : (c.memberLost p).fld .w F.HERD_LOST_COUNT_count =
    min (2 ^ 32 - 1) (c.fld .w F.HERD_LOST_COUNT_count + 1) :=
  calc (c.memberLost p).fld .w F.HERD_LOST_COUNT_count
    _ = (c.lossNoted p).fld .w F.HERD_LOST_COUNT_count := ((c.memberLost_quiet p).sameRecord .w).fld _
    _ = _ := by
      rw [Chip.lossNoted, Chip.fld_raise _ _ _ _ _ (by decide), Chip.fld_bump_same _ _ _ (by decide)]
      rfl

theorem Chip.evtCount_memberLost (c : Chip) (p : Peer) :
    (c.memberLost p).w.evtCount 225 = min 255 (c.w.evtCount 225 + 1) :=
  calc (c.memberLost p).w.evtCount 225
    _ = ((c.lossNoted p).die .w).evtCount 225 := ((c.memberLost_quiet p).sameRecord .w).evtCount 225
    _ = _ := by
      rw [Chip.lossNoted, Chip.evtCount_raise _ _ _ rfl (by decide), satAdd_one]
      rfl

/-- On the buck MEMBER_LOSS of an admitted member acts from the 2 µs of `silence` on. -/
theorem completes_memberLoss (s : State) (p : Peer) (hruns : s.runs) (hrole : s.chip.herd.role = .buck)
    (hpeer : s.chip.herd.peer? p.id = some p) (hadmitted : p.admitted = true) :
    Completes (.memberLoss p.id) s (if silence ≤ s.chip.now - p.heardAt then s.chip.memberLost p else s.chip) := by
  have hexec : exec (.memberLoss p.id) s = execMemberLoss p.id s := rfl
  simp [Completes, hexec, execMemberLoss, State.nextChip_running s _ hruns, hrole, hpeer, hadmitted]

/-! ### The buck is lost -/

/-- The module enters lost in the present tick, whatever decisions acted in it before (R385). -/
theorem Chip.herd_buckLost (c : Chip) : c.buckLost.herd.role = .lost ∧ c.buckLost.herd.lostAt = c.now := by
  simp [Chip.buckLost]

/-- On a member BUCK_LOSS acts from the 2 µs of `silence` of its buck on. -/
theorem completes_buckLoss (s : State) (p : Peer) (hruns : s.runs) (hrole : s.chip.herd.role = .member)
    (hpeer : s.chip.herd.peer? s.chip.herd.buckId = some p) :
    Completes .buckLoss s (if silence ≤ s.chip.now - p.heardAt then s.chip.buckLost else s.chip) := by
  have hexec : exec .buckLoss s = execBuckLoss s := rfl
  simp [Completes, hexec, execBuckLoss, State.nextChip_running s _ hruns, hrole, hpeer]

/-! ### A link is lost -/

/-- Outside a standalone module SYNC_LINK_LOSS of a link that is up takes its mark and its receiver's locks, and raises source
228. -/
theorem completes_syncLinkLoss (s : State) (linkB : Bool) (hruns : s.runs) (hrole : s.chip.herd.role ≠ .standalone)
    (hup : (if linkB then s.chip.herd.linkB else s.chip.herd.linkA) = true) :
    Completes (.syncLinkLoss linkB) s
      ({ s.chip with herd := if linkB then { s.chip.herd with linkB := false, rxB := s.chip.herd.rxB.loseBlock }
        else { s.chip.herd with linkA := false, rxA := s.chip.herd.rxA.loseBlock } }.raise .w 228) := by
  have hexec : exec (.syncLinkLoss linkB) s = execSyncLinkLoss linkB s := rfl
  simp only [Completes, hexec, execSyncLinkLoss, State.nextChip_running s _ hruns, hup, bne_iff_ne.mpr hrole, Bool.and_self,
    if_true]
  rfl

/-! ### Silence -/

/-- Settles O56: at 2 µs of silence, and not before, MEMBER_LOSS and BUCK_LOSS act; a link is lost at once. -/
theorem herdSilence : Obligations.HerdSilence := by
  unfold Obligations.HerdSilence
  refine ⟨?_, completes_syncLinkLoss, ?_⟩
  · intro s p hruns hrole hpeer hadmitted
    have hdone := completes_memberLoss s p hruns hrole hpeer hadmitted
    rw [silence_ticks] at hdone
    refine ⟨fun hheard => ?_, fun hsilent => ?_⟩
    · rwa [if_neg (Nat.not_le.mpr hheard)] at hdone
    · rw [if_pos hsilent] at hdone
      refine ⟨_, hdone, ?_, ?_, s.chip.fld_memberLost p, s.chip.evtCount_memberLost p, s.chip.sched_memberLost p⟩
      · rw [Chip.herd_memberLost]
        exact s.chip.herd.peer?_onPeer p (·.declaredLost s.chip.now) hpeer rfl
      · rw [Chip.herd_memberLost]
        exact hrole
  · intro s p hruns hrole hpeer
    have hdone := completes_buckLoss s p hruns hrole hpeer
    rw [silence_ticks] at hdone
    refine ⟨fun hheard => ?_, fun hsilent => ?_⟩
    · rwa [if_neg (Nat.not_le.mpr hheard)] at hdone
    · rw [if_pos hsilent] at hdone
      exact ⟨_, hdone, s.chip.herd_buckLost⟩

end Sys2Proof.Machine
end
